-- ==== Sys2Proof/Word.lean ====
section
/-! DEFINITION. The word types of the Kyrraxa D9, its fault classes and the record of one fault (03, 12). -/

namespace Sys2Proof

/-- A 32-bit instruction word, scalar register or lane (R54, R167). -/
abbrev Word := BitVec 32

/-- A 64-bit pair, address or counter (R56, R104). -/
abbrev DWord := BitVec 64

/-- One byte of memory. -/
abbrev Byte := BitVec 8

/-- The register files a word can name (R175). -/
inductive RegFile where
  | v | s
  deriving DecidableEq, Repr

/-- The format tags of R67 and R78. -/
inductive Tag where
  | raw | i32 | fp32 | bf16x2 | fp16x2 | e4m3x4 | e5m2x4 | e2m1x8 | i8x4 | i16x2 | e8m0x4
  deriving DecidableEq, Repr

/-- The fault classes of R339. -/
inductive FaultClass where
  | illegalInstruction | illegalOperand | privilege | format | fullEmpty | misalignment
  | rangeLock | barrierWord | barrierCount | exitedLane | reconvergence | window | access
  | translation | attachMiss | segmentError | poolObject | quota | dataError
  | exchangeTimeout | matrixDescriptor | softwareTrap
  deriving DecidableEq, Repr

/-- The code of a fault class, as R339 lists it. -/
def FaultClass.code : FaultClass → Nat
  | .illegalInstruction => 0x01 | .illegalOperand => 0x02 | .privilege => 0x03
  | .format => 0x04 | .fullEmpty => 0x05 | .misalignment => 0x06 | .rangeLock => 0x07
  | .barrierWord => 0x08 | .barrierCount => 0x09 | .exitedLane => 0x0A
  | .reconvergence => 0x0B | .window => 0x0C | .access => 0x0D | .translation => 0x0E
  | .attachMiss => 0x0F | .segmentError => 0x10 | .poolObject => 0x11 | .quota => 0x12
  | .dataError => 0x13 | .exchangeTimeout => 0x14 | .matrixDescriptor => 0x15
  | .softwareTrap => 0x20

/-- The classes that may be sent to a handler, with their HNDEN bit (R72, R339). -/
def FaultClass.hndBit : FaultClass → Option Nat
  | .fullEmpty => some 0 | .format => some 1 | .rangeLock => some 2 | _ => none

/-- A position in the code: a packet address and a word index (R167). -/
structure Pos where
  pa : DWord
  w  : Nat
  deriving DecidableEq, Repr

/-- One fault: its class and subclass, its lane and address, the word that caused it, and whether it is
taken at a consumer or deferred (R339 to R341). -/
structure FaultInfo where
  cls   : FaultClass
  cause : Nat
  lane  : Nat
  addr  : Option DWord
  src   : Pos
  cons  : Bool
  defer : Bool
  tcode : Nat
  deriving DecidableEq, Repr

end Sys2Proof
end

