-- ==== Sys2Proof/Machine/Bits.lean ====
section
/-! DEFINITION. Integer arithmetic on 32-bit patterns and 64-bit pairs (R83, R197 to R203, R227 to R238, R250). -/

namespace Sys2Proof.Machine

/-- The numbers 0 to 31, the lanes of a group (R12). -/
def laneIds : List Nat := List.range 32

/-- Bit `i` of a lane mask. -/
def bitOf (m : Word) (i : Nat) : Bool := m.getLsbD i

/-- The mask with bit `i` set for every lane `i` that satisfies a test. -/
def maskOf (p : Nat → Bool) : Word :=
  BitVec.ofNat 32 (laneIds.foldr (fun i n => (p i).toNat + 2 * n) 0)

/-- The lanes of a mask, ascending. -/
def lanesOf (m : Word) : List Nat := laneIds.filter (bitOf m)

/-- The number of lanes of a mask. -/
def countOf (m : Word) : Nat := (lanesOf m).length

/-- The low `n` bits of a number, sign-extended to 32 bits. -/
def simm (n v : Nat) : Word := (BitVec.ofNat n v).signExtend 32

/-- The low `n` bits of a number as a signed integer. -/
def sint (n v : Nat) : Int := (BitVec.ofNat n v).toInt

/-- A pair's low and high halves (R56). -/
def lo32 (x : DWord) : Word := x.setWidth 32
def hi32 (x : DWord) : Word := (x >>> 32).setWidth 32

/-- The pair with these halves (R56). -/
def pair64 (lo hi : Word) : DWord := (hi.setWidth 64 <<< 32) ||| lo.setWidth 64

/-- Shift left by the low byte of `b`: 0 from 32 on (R197). -/
def shl (a b : Word) : Word := if Nat.blt (b.toNat % 256) 32 then a <<< (b.toNat % 256) else 0

/-- Shift right by the low byte of `b`, zero-filled: 0 from 32 on (R197). -/
def shr (a b : Word) : Word := if Nat.blt (b.toNat % 256) 32 then a >>> (b.toNat % 256) else 0

/-- Shift right by the low byte of `b`, at most 31, filled with the sign (R197). -/
def sra (a b : Word) : Word := a.sshiftRight (min (b.toNat % 256) 31)

/-- Rotate left by the low five bits of `b` (R197). -/
def rotl (a b : Word) : Word := a.rotateLeft (b.toNat % 32)

/-- The high half of the signed and of the unsigned product (R197). -/
def mulhS (a b : Word) : Word := (BitVec.ofInt 64 (a.toInt * b.toInt) >>> 32).setWidth 32
def mulhZ (a b : Word) : Word := BitVec.ofNat 32 (a.toNat * b.toNat / 4294967296)

/-- Division of R83: by zero the quotient is all ones and the remainder the dividend. -/
def divS (a b : Word) : Word := if b = 0 then BitVec.allOnes 32 else BitVec.ofInt 32 (Int.tdiv a.toInt b.toInt)
def divZ (a b : Word) : Word := if b = 0 then BitVec.allOnes 32 else BitVec.ofNat 32 (a.toNat / b.toNat)
def remS (a b : Word) : Word := if b = 0 then a else BitVec.ofInt 32 (Int.tmod a.toInt b.toInt)
def remZ (a b : Word) : Word := if b = 0 then a else BitVec.ofNat 32 (a.toNat % b.toNat)

/-- The lesser and the greater of two patterns, signed and unsigned (R197). -/
def minS (a b : Word) : Word := if a.slt b then a else b
def minZ (a b : Word) : Word := if a.ult b then a else b
def maxS (a b : Word) : Word := if a.slt b then b else a
def maxZ (a b : Word) : Word := if a.ult b then b else a

/-- The number of 1 bits. -/
def popc (a : Word) : Word := BitVec.ofNat 32 (countOf a)

/-- The number of 0 bits above the highest 1 bit, 32 for 0. -/
def clz (a : Word) : Word := if a = 0 then 32 else BitVec.ofNat 32 (31 - Nat.log2 a.toNat)

/-- The number of 0 bits below the lowest 1 bit, 32 for 0. -/
def ctz (a : Word) : Word := BitVec.ofNat 32 ((laneIds.find? (bitOf a)).getD 32)

/-- The pattern with its bits in reverse order. -/
def brev (a : Word) : Word := maskOf (fun i => bitOf a (31 - i))

/-- The absolute value modulo 2^32 (R227). -/
def absW (a : Word) : Word := if a.slt 0 then 0 - a else a

/-- Bits [pos + w - 1 : pos], zero-extended and sign-extended (R202). -/
def bfeZ (a : Word) (pos w : Nat) : Word := BitVec.ofNat 32 (a.toNat / 2 ^ pos % 2 ^ w)
def bfeS (a : Word) (pos w : Nat) : Word := (BitVec.ofNat w (a.toNat / 2 ^ pos)).signExtend 32

/-- `t` with bits [pos + w - 1 : pos] replaced by the low `w` bits of `a` (R202). -/
def bfi (t a : Word) (pos w : Nat) : Word :=
  let m : Word := BitVec.ofNat 32 ((2 ^ w - 1) * 2 ^ pos)
  (t &&& ~~~m) ||| ((a <<< pos) &&& m)

/-- Clamping to a signed and to an unsigned range of `w` bits (R83). -/
def satS (x : Int) (w : Nat) : Int := max (-(2 ^ (w - 1) : Nat) : Int) (min x ((2 ^ (w - 1) : Nat) - 1))
def satZ (x : Int) (w : Nat) : Int := max 0 (min x ((2 ^ w : Nat) - 1))

/-- Byte and half `k` of a pattern. -/
def byteOf (a : Word) (k : Nat) : Nat := a.toNat / 2 ^ (8 * k) % 256
def halfOf (a : Word) (k : Nat) : Nat := a.toNat / 2 ^ (16 * k) % 65536

/-- The pattern of four bytes, byte 0 first. -/
def ofBytes (b0 b1 b2 b3 : Nat) : Word := BitVec.ofNat 32 (b0 + 256 * b1 + 65536 * b2 + 16777216 * b3)

/-- VPACK.b16 and VPACK.b8 (R235). -/
def packB16 (a b : Word) : Word := BitVec.ofNat 32 (halfOf b 0 * 65536 + halfOf a 0)
def packB8 (a b : Word) : Word := ofBytes (byteOf a 0) (byteOf a 2) (byteOf b 0) (byteOf b 2)

/-- One byte chosen by VPERMB (R237). -/
def permByte (a : Word) (c : Nat) : Nat := if Nat.ble 128 c then 0 else byteOf a (c % 4)

/-- VPERMB (R237). -/
def permB (a b : Word) : Word :=
  ofBytes (permByte a (byteOf b 0)) (permByte a (byteOf b 1)) (permByte a (byteOf b 2)) (permByte a (byteOf b 3))

/-- The 128-bit carry-less product of two pairs (R250). -/
def clmul (x y : DWord) : Nat :=
  (List.range 64).foldl (fun p k => if y.getLsbD k then p ^^^ (x.toNat * 2 ^ k) else p) 0

/-- The sum of R228 for VADDC and VSUBB, 33 bits. -/
def addc (a b : Word) (c : Bool) : Nat := a.toNat + b.toNat + c.toNat
def subb (a b : Word) (c : Bool) : Nat := a.toNat + 4294967296 - b.toNat - c.toNat

end Sys2Proof.Machine
end

