-- ==== Sys2Proof/Machine/Float.lean ====
section
/-! DEFINITION. The float formats and their exact arithmetic (03): values are signed dyadic numbers, every operation is
exact and is rounded once (R85). The special functions are computed to 320 fraction bits with a sticky bit; their
results are irrational outside the exact cases written out (R91; log entry 19). -/

namespace Sys2Proof.Machine

/-- The float formats of R80. -/
inductive Fmt where
  | fp32 | bf16 | fp16 | e4m3 | e5m2 | e2m1 | e8m0
  deriving DecidableEq, Repr

/-- Element width, mantissa width, exponent bias (R80). -/
def Fmt.width : Fmt → Nat
  | .fp32 => 32 | .bf16 => 16 | .fp16 => 16 | .e4m3 => 8 | .e5m2 => 8 | .e2m1 => 4 | .e8m0 => 8
def Fmt.mant : Fmt → Nat
  | .fp32 => 23 | .bf16 => 7 | .fp16 => 10 | .e4m3 => 3 | .e5m2 => 2 | .e2m1 => 1 | .e8m0 => 0
def Fmt.bias : Fmt → Nat
  | .fp32 => 127 | .bf16 => 127 | .fp16 => 15 | .e4m3 => 7 | .e5m2 => 15 | .e2m1 => 1 | .e8m0 => 127

/-- The encoding of the largest finite magnitude (R81). -/
def Fmt.maxFin : Fmt → Nat
  | .fp32 => 0x7F7FFFFF | .bf16 => 0x7F7F | .fp16 => 0x7BFF | .e4m3 => 0x7E | .e5m2 => 0x7B | .e2m1 => 0x7
  | .e8m0 => 0xFE

/-- The canonical NaN; E2M1 has none and a NaN becomes 0 there (R81, R93). -/
def Fmt.canon : Fmt → Nat
  | .fp32 => 0x7FC00000 | .bf16 => 0x7FC0 | .fp16 => 0x7E00 | .e4m3 => 0x7F | .e5m2 => 0x7E | .e2m1 => 0
  | .e8m0 => 0xFF

/-- The encoding of +infinity, where the format has one (R81, R82). -/
def Fmt.infBits : Fmt → Option Nat
  | .fp32 => some 0x7F800000 | .bf16 => some 0x7F80 | .fp16 => some 0x7C00 | .e5m2 => some 0x7C | _ => none

/-- The weight of the sign bit (R80). -/
def Fmt.signBit (f : Fmt) : Nat := match f with | .e8m0 => 0 | _ => 2 ^ (f.width - 1)

/-- The rounding modes of R84. -/
inductive RMode where
  | near | zero | up | down
  deriving DecidableEq, Repr

/-- The mode of a code (R84). -/
def rmodeOf : Nat → RMode
  | 0 => .near | 1 => .zero | 2 => .up | _ => .down

/-- An exact value: NaN, an infinity, or (-1)^neg x m x 2^e; m = 0 is a signed zero (R80, R82). -/
inductive FVal where
  | nan
  | inf (neg : Bool)
  | fin (neg : Bool) (m : Nat) (e : Int)
  deriving DecidableEq, Repr

/-- `Val(bits, f)`: the exact value of an encoding (R80, R82). -/
def fval (f : Fmt) (bits : Nat) : FVal :=
  match f with
  | .e8m0 => if bits = 0xFF then .nan else .fin false 1 ((bits : Int) - 127)
  | _ =>
    let neg := Nat.ble f.signBit bits
    let mag := bits % f.signBit
    let p := f.mant
    let e := mag / 2 ^ p
    let m := mag % 2 ^ p
    match f.infBits with
    | some i =>
      if Nat.blt i mag then .nan else if mag = i then .inf neg
      else if e = 0 then .fin neg m (1 - (f.bias : Int) - p) else .fin neg (2 ^ p + m) ((e : Int) - f.bias - p)
    | none =>
      if f = .e4m3 ∧ mag = 0x7F then .nan
      else if e = 0 then .fin neg m (1 - (f.bias : Int) - p) else .fin neg (2 ^ p + m) ((e : Int) - f.bias - p)

/-- Whether a discarded part of `r` out of `2^sh` rounds the magnitude `n` up (R84). -/
def roundUp (rm : RMode) (neg : Bool) (n r sh : Nat) : Bool :=
  match rm with
  | .near => Nat.blt (2 ^ sh) (2 * r) || (2 * r == 2 ^ sh && n % 2 == 1)
  | .zero => false
  | .up => !neg && r != 0
  | .down => neg && r != 0

/-- The integer nearest to m x 2^e in a mode, as a magnitude (R84). A shift beyond the number's length leaves only
the fact that something was discarded. -/
def roundMag (rm : RMode) (neg : Bool) (m : Nat) (e : Int) : Nat :=
  if m = 0 then 0
  else if 0 ≤ e then m * 2 ^ e.toNat
  else
    let sh := (-e).toNat
    if Nat.blt (Nat.log2 m + 2) sh then (if roundUp rm neg 0 1 2 then 1 else 0)
    else
      let n := m / 2 ^ sh
      if roundUp rm neg n (m % 2 ^ sh) sh then n + 1 else n

/-- The magnitude encoding of a rounded value before overflow is judged: the format's own spacing is continued above
its largest finite value (R84, R86). -/
def encodeMag (f : Fmt) (rm : RMode) (neg : Bool) (m : Nat) (e : Int) : Nat :=
  let p : Int := f.mant
  let emin : Int := 1 - (f.bias : Int)
  let top : Int := (Nat.log2 m : Int) + e
  if f.bias + 2 < top then f.maxFin + 2
  else
    let q : Int := (max top emin) - p
    let n := roundMag rm neg m (e - q)
    ((q + p + f.bias) * 2 ^ f.mant + n - 2 ^ f.mant).toNat

/-- What an overflow delivers under a mode: infinity, or the largest finite value (R87). -/
def overflowsToInf (rm : RMode) (neg : Bool) : Bool :=
  match rm with | .near => true | .zero => false | .up => !neg | .down => neg

/-- An encoding with its sign. -/
def withSign (f : Fmt) (neg : Bool) (mag : Nat) : Nat := if neg then f.signBit + mag else mag

/-- A conversion to E8M0 (R94). -/
def narrowE8 (x : FVal) (rm : RMode) (sat : Bool) : Nat :=
  match x with
  | .nan => 0xFF
  | .inf _ => if sat then 0xFE else 0xFF
  | .fin _ m e =>
    if m = 0 then 0 else
    let l := Nat.log2 m
    let k : Int := (l : Int) + e
    let exact := m == 2 ^ l
    let up := match rm with
      | .near => Nat.ble (3 * 2 ^ l) (2 * m)
      | .zero => false
      | .down => false
      | .up => !exact
    let k' : Int := if up then k + 1 else k
    if 127 < k' then (if sat then 0xFE else 0xFF) else if k' < -127 then 0 else (k' + 127).toNat

/-- `Narrow(x, f, rm, sat)`: rounding with the overflow and SAT rules of R87, R93 and R94. -/
def narrow (f : Fmt) (x : FVal) (rm : RMode) (sat : Bool) : Nat :=
  match f with
  | .e8m0 => narrowE8 x rm sat
  | _ =>
    match x with
    | .nan => f.canon
    | .inf neg =>
      if sat then withSign f neg f.maxFin
      else match f with
        | .e2m1 => withSign f neg f.maxFin
        | .e4m3 => withSign f neg 0x7F
        | _ => withSign f neg (f.infBits.getD 0)
    | .fin neg m e =>
      if m = 0 then withSign f neg 0
      else
        let mag := encodeMag f rm neg m e
        if Nat.ble mag f.maxFin then withSign f neg mag
        else if sat || !overflowsToInf rm neg then withSign f neg f.maxFin
        else match f with
          | .e2m1 => withSign f neg f.maxFin
          | .e4m3 => withSign f neg 0x7F
          | _ => withSign f neg (f.infBits.getD 0)

/-- `Round(x, f, rm)` (R85 to R88). -/
def roundF (f : Fmt) (x : FVal) (rm : RMode) : Nat := narrow f x rm false

/-- The sign of a value; NaN counts as positive. -/
def FVal.neg : FVal → Bool
  | .nan => false | .inf n => n | .fin n _ _ => n

def FVal.isNan : FVal → Bool
  | .nan => true | _ => false

/-- A value with its sign inverted: the second operand of a subtraction (R89). -/
def FVal.negate : FVal → FVal
  | .nan => .nan | .inf n => .inf (!n) | .fin n m e => .fin (!n) m e

/-- An exact product; 0 x infinity is invalid (R88, R89). -/
def fmulE : FVal → FVal → FVal
  | .nan, _ => .nan
  | _, .nan => .nan
  | .inf a, .inf b => .inf (a != b)
  | .inf a, .fin b m _ => if m = 0 then .nan else .inf (a != b)
  | .fin a m _, .inf b => if m = 0 then .nan else .inf (a != b)
  | .fin a m e, .fin b n k => .fin (a != b) (m * n) (e + k)

/-- The signed integer of a finite value in units of 2^q. -/
def FVal.units (q : Int) : FVal → Int
  | .fin n m e => if n then -((m * 2 ^ (e - q).toNat : Nat) : Int) else ((m * 2 ^ (e - q).toNat : Nat) : Int)
  | _ => 0

/-- The exponent of a finite value that is not 0. -/
def FVal.exp? : FVal → Option Int
  | .fin _ m e => if m = 0 then none else some e
  | _ => none

/-- The exact sum of a list of terms, with the sign rule of R89 for an exact zero. -/
def fsum (ts : List FVal) (rm : RMode) : FVal :=
  if ts.any FVal.isNan then .nan
  else
    let pinf := ts.any (fun t => t == .inf false)
    let ninf := ts.any (fun t => t == .inf true)
    if pinf && ninf then .nan else if pinf then .inf false else if ninf then .inf true
    else
      let es := ts.filterMap FVal.exp?
      let q := es.foldl min (es.headD 0)
      let tot : Int := (ts.filter (fun t => t.exp?.isSome)).foldl (fun (s : Int) t => s + t.units q) 0
      if tot = 0 then
        if es.isEmpty && ts.all FVal.neg then .fin true 0 0
        else if es.isEmpty && ts.all (fun t => !t.neg) then .fin false 0 0
        else .fin (rm == .down) 0 0
      else .fin (decide (tot < 0)) tot.natAbs q

/-- The integer square root, bit by bit from bit `k` down. -/
def isqrtAux (n : Nat) : Nat → Nat → Nat
  | 0, r => if Nat.ble ((r + 1) * (r + 1)) n then r + 1 else r
  | k + 1, r =>
    let t := r + 2 ^ (k + 1)
    isqrtAux n k (if Nat.ble (t * t) n then t else r)

def isqrt (n : Nat) : Nat := isqrtAux n (Nat.log2 n / 2 + 1) 0

/-- A magnitude with a sticky bit below it: 2 x n, plus 1 when something was discarded. -/
def sticky (n : Nat) (inexact : Bool) : Nat := 2 * n + inexact.toNat

/-- 1 / x (R91). -/
def frcpE : FVal → FVal
  | .nan => .nan
  | .inf n => .fin n 0 0
  | .fin n m e =>
    if m = 0 then .inf n
    else
      let k := Nat.log2 m + 64
      .fin n (sticky (2 ^ k / m) (2 ^ k % m != 0)) (-e - k - 1)

/-- The square root (R91). -/
def fsqrtE : FVal → FVal
  | .nan => .nan
  | .inf n => if n then .nan else .inf false
  | .fin n m e =>
    if m = 0 then .fin n 0 0
    else if n then .nan
    else
      let sh := 128 + (e % 2).toNat
      let y := m * 2 ^ sh
      let r := isqrt y
      .fin false (sticky r (r * r != y)) ((e - sh) / 2 - 1)

/-- 1 / sqrt(x) (R91). -/
def frsqE : FVal → FVal
  | .nan => .nan
  | .inf n => if n then .nan else .fin false 0 0
  | .fin n m e =>
    if m = 0 then .inf n
    else if n then .nan
    else
      let k := 2 * Nat.log2 m + 140 + (e % 2).toNat
      let y := 2 ^ k / m
      let r := isqrt y
      .fin false (sticky r (r * r != y || 2 ^ k % m != 0)) ((-e - k) / 2 - 1)

/-- Fraction bits of the special functions. -/
def fracBits : Nat := 320

/-- 2 x pi and ln 2 in units of 2^-320, rounded down. -/
def twoPi : Nat := 13420802360424337830311681948440006481608388178854297901454212848703426437343610760199000777828079
def ln2 : Nat := 1480553391661173448385607439722553250922680800745876974795605978609098082859138712941075737848984

/-- A Taylor series in units of 2^-320: the terms t x (x / a) x (x / b) ..., with alternating signs where asked. -/
def taylor (alt : Bool) (x2 : Nat) (den : Nat → Nat) : Nat → Nat → Nat → Int
  | 0, _, _ => 0
  | fuel + 1, k, t =>
    (t : Int) + (if alt then -1 else 1) * taylor alt x2 den fuel (k + 1) (t * x2 / 2 ^ fracBits / den k)

/-- The magnitude and exponent of a fixed-point number in units of 2^-320 that is not exact. -/
def ofFixed (x : Int) : FVal := .fin (decide (x < 0)) (sticky x.natAbs true) (-(fracBits : Int) - 1)

/-- 2^x: exact for an integer, otherwise irrational (R91). -/
def fexp2E : FVal → FVal
  | .nan => .nan
  | .inf n => if n then .fin false 0 0 else .inf false
  | .fin n m e =>
    if m = 0 then .fin false 1 0
    else if 16 < (Nat.log2 m : Int) + e then .fin false 1 (if n then -100000 else 100000)
    else
      let u : Int := if 0 ≤ e then 0 else e
      let v : Int := (FVal.fin n m e).units u
      let d : Int := 2 ^ (-u).toNat
      let k := v / d
      let fr := (v % d).toNat
      if fr = 0 then .fin false 1 k
      else
        let x := fr * 2 ^ fracBits / 2 ^ (-u).toNat
        let t := x * ln2 / 2 ^ fracBits
        match ofFixed (taylor false t (fun i => i) 90 1 (2 ^ fracBits)) with
        | .fin s m' e' => .fin s m' (e' + k)
        | r => r

/-- log2 x: exact for a power of two, otherwise irrational (R91). -/
def flog2E : FVal → FVal
  | .nan => .nan
  | .inf n => if n then .nan else .inf false
  | .fin n m e =>
    if m = 0 then .inf true
    else if n then .nan
    else
      let l := Nat.log2 m
      let k : Int := (l : Int) + e
      if m = 2 ^ l then .fin (decide (k < 0)) k.natAbs 0
      else
        let z := (m - 2 ^ l) * 2 ^ fracBits / (m + 2 ^ l)
        let z2 := z * z / 2 ^ fracBits
        let s := (List.range 110).foldl (fun (a : Nat × Nat) i => (a.1 + a.2 / (2 * i + 1), a.2 * z2 / 2 ^ fracBits)) (0, z)
        ofFixed (k * 2 ^ fracBits + ((2 * s.1 * 2 ^ fracBits / ln2 : Nat) : Int))

/-- sin and cos of 2 pi g for g in units of 2^-320, 0 < g < 1/4. -/
def sinFixed (g : Nat) : Int :=
  let t := g * twoPi / 2 ^ fracBits
  taylor true (t * t / 2 ^ fracBits) (fun i => (2 * i) * (2 * i + 1)) 60 1 t
def cosFixed (g : Nat) : Int :=
  let t := g * twoPi / 2 ^ fracBits
  taylor true (t * t / 2 ^ fracBits) (fun i => (2 * i - 1) * (2 * i)) 60 1 (2 ^ fracBits)

/-- sin(2 pi x) with the argument in turns, its quadrant advanced by `adv` (1 gives the cosine): exact at the
multiples of a quarter turn, otherwise irrational (R91). -/
def fturnE (adv : Nat) : FVal → FVal
  | .nan => .nan
  | .inf _ => .nan
  | .fin n m e =>
    if m = 0 then (if adv = 0 then .fin n 0 0 else .fin false 1 0)
    else
      let u : Int := if 0 ≤ e then 0 else e
      let d : Nat := 4 * 2 ^ (-u).toNat
      let v : Nat := (4 * (FVal.fin n m e).units u % d).toNat
      let quarter := d / 4
      let q := (v / quarter + adv) % 4
      let g := v % quarter
      if g = 0 then
        match q with
        | 0 => .fin false 0 0 | 1 => .fin false 1 0 | 2 => .fin false 0 0 | _ => .fin true 1 0
      else
        let gx := g * 2 ^ fracBits / quarter / 4
        match q with
        | 0 => ofFixed (sinFixed gx) | 1 => ofFixed (cosFixed gx)
        | 2 => ofFixed (-(sinFixed gx)) | _ => ofFixed (-(cosFixed gx))

/-- The integer that a value rounds to in a mode, as a sign and a magnitude (R95, R242). -/
def roundInt (rm : RMode) (n : Bool) (m : Nat) (e : Int) : Int :=
  if n then -(roundMag rm n m e : Int) else roundMag rm n m e

/-- VFRND: the integral value of the same format, with the sign of x (R242). -/
def frndE (x : FVal) (rm : RMode) : FVal :=
  match x with
  | .fin n m e => .fin n (roundMag rm n m e) 0
  | v => v

/-- A comparison of two values that are not NaN: below, equal or above (R90). -/
def fcmp (a b : FVal) : Ordering :=
  match a, b with
  | .inf x, .inf y => if x = y then .eq else if x then .lt else .gt
  | .inf x, _ => if x then .lt else .gt
  | _, .inf y => if y then .gt else .lt
  | .fin _ m e, .fin _ n k =>
    let q := min e k
    let u := if m = 0 then 0 else a.units q
    let v := if n = 0 then 0 else b.units q
    if u < v then .lt else if u = v then .eq else .gt
  | _, _ => .eq

/-- The float relations of R181 under R90. -/
def fcond (cc : Nat) (a b : FVal) : Bool :=
  let uno := a.isNan || b.isNan
  let o := fcmp a b
  match cc with
  | 0 => !uno && o == .eq
  | 1 => uno || o != .eq
  | 2 => !uno && o == .lt
  | 3 => !uno && o != .gt
  | 4 => !uno && o == .gt
  | 5 => !uno && o != .lt
  | 6 => !uno
  | _ => uno

/-- The lesser (`big` = false) or the greater of two encodings, -0 below +0, one NaN giving the other operand and two
the canonical NaN (R90). -/
def fminmax (big : Bool) (f : Fmt) (a b : Nat) : Nat :=
  let x := fval f a
  let y := fval f b
  if x.isNan && y.isNan then f.canon
  else if x.isNan then b
  else if y.isNan then a
  else
    let aLess := match fcmp x y with
      | .lt => true
      | .gt => false
      | .eq => x.neg
    if aLess != big then a else b

/-- The class of VFCLASS as a bit number (R244). -/
def fclass (f : Fmt) (a : Nat) : Nat :=
  match fval f a with
  | .nan => 8
  | .inf n => if n then 0 else 7
  | .fin n m _ =>
    if m = 0 then (if n then 3 else 4)
    else if a % f.signBit / 2 ^ f.mant = 0 then (if n then 2 else 5) else (if n then 1 else 6)

/-! ### Tags and elements -/

/-- The code of a tag (R78). -/
def tagCode : Tag → Nat
  | .raw => 0 | .i32 => 1 | .fp32 => 2 | .bf16x2 => 3 | .fp16x2 => 4 | .e4m3x4 => 5 | .e5m2x4 => 6 | .e2m1x8 => 7
  | .i8x4 => 8 | .i16x2 => 9 | .e8m0x4 => 10

/-- The tag of a code, none for 11 to 15 (R67). -/
def tagOf? : Nat → Option Tag
  | 0 => some .raw | 1 => some .i32 | 2 => some .fp32 | 3 => some .bf16x2 | 4 => some .fp16x2 | 5 => some .e4m3x4
  | 6 => some .e5m2x4 | 7 => some .e2m1x8 | 8 => some .i8x4 | 9 => some .i16x2 | 10 => some .e8m0x4 | _ => none

/-- Elements per lane (R78). -/
def elems : Tag → Nat
  | .raw => 1 | .i32 => 1 | .fp32 => 1 | .bf16x2 => 2 | .fp16x2 => 2 | .i16x2 => 2 | .e4m3x4 => 4 | .e5m2x4 => 4
  | .i8x4 => 4 | .e8m0x4 => 4 | .e2m1x8 => 8

/-- The float format of a tag's elements. -/
def fmtOf? : Tag → Option Fmt
  | .fp32 => some .fp32 | .bf16x2 => some .bf16 | .fp16x2 => some .fp16 | .e4m3x4 => some .e4m3
  | .e5m2x4 => some .e5m2 | .e2m1x8 => some .e2m1 | .e8m0x4 => some .e8m0 | _ => none

/-- Element `j` of a lane pattern of `n` elements (R79). -/
def elemOf (x : Word) (n j : Nat) : Nat := x.toNat / 2 ^ (32 / n * j) % 2 ^ (32 / n)

/-- The pattern with element `j` of `n` replaced (R79). -/
def setElem (x : Word) (n j v : Nat) : Word :=
  let w := 32 / n
  BitVec.ofNat 32 (x.toNat - elemOf x n j * 2 ^ (w * j) + v % 2 ^ w * 2 ^ (w * j))

/-- The pattern whose `n` elements a function gives (R79). -/
def ofElems (n : Nat) (f : Nat → Nat) : Word :=
  BitVec.ofNat 32 ((List.range n).foldl (fun a j => a + f j % 2 ^ (32 / n) * 2 ^ (32 / n * j)) 0)

/-- The signed value of a `w`-bit element. -/
def elemInt (w v : Nat) : Int := if Nat.ble (2 ^ (w - 1)) v then (v : Int) - (2 ^ w : Nat) else v

/-- Whether every value of the first format is exact in the second (R92). -/
def exactFmt : Fmt → Fmt → Bool
  | .fp16, .fp32 | .bf16, .fp32 | .e4m3, .fp32 | .e5m2, .fp32 | .e2m1, .fp32 | .e8m0, .fp32 => true
  | .e4m3, .bf16 | .e5m2, .bf16 | .e2m1, .bf16 | .e8m0, .bf16 => true
  | .e4m3, .fp16 | .e5m2, .fp16 | .e2m1, .fp16 => true
  | .e2m1, .e4m3 | .e2m1, .e5m2 => true
  | a, b => a == b

/-- VFCVT of one element: exact conversions ignore the mode and SAT (R92, R247). -/
def cvtFF (src dst : Fmt) (v : Nat) (rm : RMode) (sat : Bool) : Nat :=
  if exactFmt src dst then
    (if src = dst then (if (fval src v).isNan then src.canon else v) else narrow dst (fval src v) .near false)
  else narrow dst (fval src v) rm sat

/-- VFCVTI of one element to an integer of `w` bits (R95, R248). -/
def cvtFI (src : Fmt) (w : Nat) (v : Nat) (rm : RMode) : Nat :=
  let r : Int := match fval src v with
    | .nan => 0
    | .inf n => if n then -(2 ^ (w - 1) : Nat) else (2 ^ (w - 1) : Nat) - 1
    | .fin n m e =>
      if 64 < (Nat.log2 m : Int) + e then (if n then -(2 ^ (w - 1) : Nat) else (2 ^ (w - 1) : Nat) - 1)
      else satS (roundInt rm n m e) w
  (BitVec.ofInt w r).toNat

/-- VICVTF of one element from an integer of `w` bits (R96, R249). -/
def cvtIF (dst : Fmt) (w : Nat) (v : Nat) (rm : RMode) (sat : Bool) : Nat :=
  let i := elemInt w v
  narrow dst (.fin (decide (i < 0)) i.natAbs 0) rm sat

/-- FP32 encodings: the exact value and the rounding to nearest even (R84). -/
def f32 (x : Word) : FVal := fval .fp32 x.toNat
def r32 (v : FVal) : Word := BitVec.ofNat 32 (roundF .fp32 v .near)

/-- The sum of two FP32 patterns rounded to nearest even, and their difference (R84, R101). -/
def add32 (a b : Word) : Word := r32 (fsum [f32 a, f32 b] .near)
def sub32 (a b : Word) : Word := r32 (fsum [f32 a, (f32 b).negate] .near)

/-- Whether an FP32 pattern is finite. -/
def finite32 (a : Word) : Bool := match f32 a with | .fin _ _ _ => true | _ => false

/-- CADD on a compensated pair (R101): the new sum and error. -/
def caddPair (s e x : Word) : Word × Word :=
  let s1 := add32 s x
  if finite32 s && finite32 x && finite32 s1 then
    let bv := sub32 s1 s
    let av := sub32 s1 bv
    let d := add32 (sub32 s av) (sub32 x bv)
    (s1, add32 e d)
  else (s1, e)

/-- CRD's value (R102). -/
def crdValue (s e : Word) : Word := add32 s e

end Sys2Proof.Machine
end

