-- ==== Sys2Proof/Config.lean ====
section
/-! DEFINITION. What the spec leaves open: opaque constants that nothing can evaluate, and the constants of the part.
An opaque constant is applied to a counter of State (`ticket`) or to the data it depends on. -/

namespace Sys2Proof.Config

/-- Which of the steps that may come next comes next (R113, R115, R147; DESIGN CHOICE, log entry 3). -/
opaque schedule : Nat → Nat

/-- Whether a fetch is served by a line of an instruction cache that holds it (R328; log entry 6). -/
opaque icacheHit : Nat → Bool

/-- Whether a translation is served by a TLB entry that covers it (R411, R412; log entry 7). -/
opaque tlbHit : Nat → Bool

/-- The index of a line's set in its L2 slice, and the base-2 logarithm of the ways of a set; together the sets hold 2 MiB (R2, R112; log
entry 8). -/
opaque l2Set : Nat → Nat
opaque l2Assoc : Nat

/-- The slice that holds a peer's line, and the router at which the fabric port of a plane lies (R371, R376; log entry 10). -/
opaque peerSlice : Nat → Nat
opaque portRouter : Nat → Nat

/-- The 64 KiB frame that a peer reaches by an access key and a page of its device-virtual addresses (R106, R370; log entry 10). -/
opaque peerFrame : Nat → Nat → Nat → Nat

/-- Which of the routers that join two others a route passes, of partition, source and destination, and the router of a partition's front
end (R420, R422; log entry 9). -/
opaque routeVia : Nat → Nat → Nat → Nat
opaque frontRouter : Nat → Nat

/-- What a peer device answers: its acceptance of a key and the bytes it returns (R334, R370; log entry 10). -/
opaque peerAccepts : Nat → Bool
opaque peerByte : Nat → BitVec 8

/-- The host's address translation of an untranslated host page under a PASID, after a number of changes (R415; log
entry 11). -/
opaque hostPage : Nat → Nat → Nat → Option Nat

/-- Whether the host answers that translation with an error (R415; log entry 11). -/
opaque hostError : Nat → Nat → Nat → Bool

/-- The latency bound of a pre-emption that the front end asks for (R346; log entry 22). -/
opaque preemptBound : Nat → Nat

/-- Entry `i` of the segment list of a bundle as a launch reads it on one occasion: 64 bits of name, then KIND (R358; log entry 23). -/
opaque segEntry : Nat → Nat → Nat

/-- The device-physical place of a team's save image (R350; log entry 12). -/
opaque saveArea : Nat → Nat

/-- The device-physical place of a segment's mirror (R319; log entry 12). -/
opaque mirrorArea : Nat → Nat

/-- Whether mirror space is left for a new segment (R319; log entry 12). -/
opaque mirrorRoom : Nat → Bool

/-- The calibrated crossing latency of an entry, before it is held within 2 to 15 (R430; log entry 13). -/
opaque xlat : Nat → Nat

/-- The energy that a domain's current sensor integrated over an interval, in units of 2^-8 pJ (R160; entry 14). -/
opaque sensorEnergy : Nat → Nat → Nat

/-- The static energy of one tick of a domain at a point, and what a gated cluster, by 2 x cluster + RET, saves of it in one tick, in units of
2^-8 pJ (R160, R432; entry 14). -/
opaque staticEnergy : Nat → Nat → Nat
opaque gatedSaving : Nat → Nat

/-- What makes one signature: the device's ECDSA key, or one leaf of the LMS root key, of an epoch key, or of a meter key of an epoch (R459,
R461). -/
inductive SignKey where
  | device
  | root (leaf : Nat)
  | epoch (e leaf : Nat)
  | meter (e m leaf : Nat)
  deriving DecidableEq, Repr

/-- The byte `i` of the signature of a body by a key (R459, R461; log entry 15). -/
opaque sigByte : SignKey → List (BitVec 8) → Nat → BitVec 8

/-- The 56-byte LMS public key of a certified key, by level, EPOCH and MKEY (R461; log entry 15). -/
opaque publicKey : Nat → Nat → Nat → Nat → BitVec 8

/-- The header of an image (R435). -/
structure Header where
  kind     : Nat
  version  : Nat
  length   : Nat
  rollback : Nat
  ecdsa    : List (BitVec 8)
  lms      : List (BitVec 8)
  deriving DecidableEq, Repr, Inhabited

/-- An image, or the configuration store: the 4,096 bytes of its header and its payload (R435). -/
structure Image where
  header  : List (BitVec 8)
  payload : List (BitVec 8)
  deriving DecidableEq, Repr, Inhabited

/-- What the bytes of a header hold, and those of them that the signatures cover (R435; log entry 16). -/
opaque headerOf : List (BitVec 8) → Header
opaque headerBody : List (BitVec 8) → List (BitVec 8)

/-- Whether a signature of a body verifies against the public keys whose hashes the boot ROM holds (R435; log entry 16). -/
opaque ecdsaOk : List (BitVec 8) → List (BitVec 8) → Bool
opaque lmsOk : List (BitVec 8) → List (BitVec 8) → Bool

/-- The images that the board controller presents: the monitor, the configuration store, the safe monitor, and the policy image of a
virtual function, where it has one; the least rollback number that the store accepts (R434 to R436; log entry 16). -/
opaque monitorImage : Image
opaque storeImage : Image
opaque safeImage : Image
opaque policyImage : Nat → Option Image
opaque minRollback : Nat

/-- Whether the identity is recovered at a start (R438; log entry 16). -/
opaque identityOk : Nat → Bool

/-- What the checks of an image find, in this order: 0 accepted, 1 ECDSA, 2 LMS, 3 rollback (R435, R437; log entry 16). -/
def imageCheck (i : Image) : Nat :=
  let h := headerOf i.header
  let body := headerBody i.header ++ i.payload
  if !ecdsaOk body h.ecdsa then 1 else if !lmsOk body h.lms then 2 else if Nat.blt h.rollback minRollback then 3 else 0

/-- The image layouts in a monitor's compatibility table, whether it serves a policy-interface version, and that version of a policy
image (R350, R440; log entry 16). -/
opaque layouts : Nat → List Nat
opaque policyKnown : Nat → Nat → Bool
opaque policyInterface : Nat → Nat

/-- The device id and fabric id, the management plane and the package floor of the configuration store (R458, R464; log entry 17). -/
opaque deviceId : Nat
opaque fabricId : Nat
opaque managementPlane : Nat
opaque packageFloor : Nat

/-- The mean package power of a demand period, in watts, and the monitor's estimate of what is wanted (R464; log entry 18). -/
opaque measuredPower : Nat → Nat
opaque wantedPower : Nat → Nat

/-- SHA-384 of an image by its version, byte by byte (R463; log entry 15). -/
opaque imageHash : Nat → Nat → BitVec 8

/-- The static noise of a fill: the contents of a peer line on its first read (R371; log entry 10). -/
opaque peerFill : Nat → Nat → BitVec 8

/-- The nominal weights of the energy classes 0 to 17, in units of 2^-16 pJ (R140). -/
def weights : List Nat :=
  [262144, 65536, 19661, 58982, 52429, 163840, 196608, 983040, 1966080, 786432, 75366400, 104857600, 2621440,
   655360, 15073280000, 24903680000, 9175040000, 1310720]

/-- The nominal scale factors k_0 to k_15 (R141, R425). -/
def scale : List Nat :=
  [17183, 18011, 18858, 19725, 20612, 21517, 22443, 23388, 24352, 25336, 26339, 27362, 28404, 29466, 30547, 32768]

/-- Ticks in a budget period, between switch points, in a correction interval, and the retry of fetch (R6, R388). -/
def period : Nat := 4096
def switchGap : Nat := 65536
def correction : Nat := 1048576

end Sys2Proof.Config
end

