-- ==== Sys2Proof/Machine/Event.lean ====
section
/-! DEFINITION. The steps that may be in flight: one constructor for each step of the opcode table that has no encoding,
with the numbers that say what it acts on, and the kinds of memory word. The agenda of State holds these. -/

namespace Sys2Proof.Machine

/-- The operations of the atomic words (R264). -/
inductive AtomOp where
  | add | sub | and | or | xor | mins | maxs | minz | maxz | exch | cas
  deriving DecidableEq, Repr

/-- The operations of FATOM (R265). -/
inductive FAtomOp where
  | add | min | max
  deriving DecidableEq, Repr

/-- What a peer's request carries: its bytes, the value that a compare and swap compares with, and the LINGER of a pool word (R132, R264,
R370). -/
structure PeerWord where
  data : Nat
  cmp : Word
  linger : Nat := 0
  deriving DecidableEq, Repr

/-- A context in one facet of its partition (R150, R152). -/
structure CtxFacet where
  ctx : Nat
  facet : Nat
  deriving DecidableEq, Repr

/-- An event of a context that the counters may select, and whether a replay grid of it made the event (R441, R447). -/
structure CtxEvent where
  ctx : Nat
  ev : Nat
  replay : Bool
  deriving DecidableEq, Repr

/-- The kinds of memory word, the words whose answer comes back like a load's, and a peer's request to own a line (R62, R116,
R371). -/
inductive MemKind where
  | ld (bytes : Nat) (sext : Bool)
  | ldmc (merge : Bool)
  | st (bytes : Nat)
  | atom (o : AtomOp)
  | fatom (o : FAtomOp)
  | cadd
  | crd (rst : Bool)
  | qpush
  | qpop
  | waitc (cc : Nat)
  | lkl
  | ulkl
  | pref
  | lflush
  | segatt
  | meter (bucket : Bool)
  | xchg
  | fence
  | own
  deriving DecidableEq, Repr

end Sys2Proof.Machine

namespace Sys2Proof

/-- A step in flight, named as its constructor of `Instr` is. -/
inductive Ev where
  | pathReady (g : Nat)
  | teamEnd (t : Nat)
  | dispatch (p : Nat)
  | longLatencyCompletion (op : Nat)
  | storeAcknowledgement (op : Nat)
  | memoryWordClearance (op : Nat)
  | deferredFaultReport (g : Nat) (f : FaultInfo)
  | faultReport (t : Nat)
  | monitorResume (t : Nat)
  | monitorResumeNext (t : Nat)
  | monitorSave (t : Nat) (area : Nat)
  | endTeam (t : Nat)
  | endGrid (l : Nat)
  | endContext (c : Nat)
  | preemptionRequest (t : Nat) (cause : Nat) (bound : Nat) (area : Nat)
  | teamFlush (t : Nat)
  | teamSave (t : Nat) (area : Nat)
  | teamRestore (t : Nat)
  | attachMissReplay (t : Nat) (area : Nat)
  | pageFaultReplay (t : Nat)
  | pfholdExpiry (t : Nat) (area : Nat)
  | xchgHalvesMeet (g : Nat) (h : Nat)
  | exchangeTimeout (g : Nat)
  | barrierPhaseComplete (t : Nat) (bar : Nat)
  | peerArrival (t : Nat) (bar : Nat) (n : Word) (g : Nat) (pos : Pos)
  | copyLineTransfer (k : Nat)
  | copyCompletion (k : Nat)
  | tilePortService (cl : Nat)
  | matrixStep (cl : Nat)
  | batchComplete (t : Nat)
  | homeAtomicService (op : Nat) (lane : Nat)
  | poolWordAtHome (op : Nat) (lane : Nat)
  | reflectorEntry (op : Nat) (lane : Nat)
  | reflectorForward (op : Nat) (lane : Nat)
  | conditionMonitorTest (op : Nat) (lane : Nat)
  | waitcPoll (op : Nat) (lane : Nat)
  | sliceAccessService (op : Nat) (lane : Nat)
  | mergeRequestPass (op : Nat) (lane : Nat)
  | mergedResponseSplit (id : Nat)
  | peerAccess (peer : Nat) (net : Nat) (key : Nat) (addr : DWord) (who : Nat) (kind : Machine.MemKind) (word : Machine.PeerWord)
  | peerKeyAccept (c : Nat) (handle : Nat)
  | segcrtZeroingDone (seg : Nat)
  | segmentEvictionStart (seg : Nat) (cause : Nat)
  | segmentMirrored (seg : Nat)
  | segmentRestoreStart (seg : Nat) (cl : Nat)
  | segmentResident (seg : Nat)
  | budgetPeriodBoundary (p : Nat)
  | chargeArrival (c : Nat)
  | stopTakesEffect (x : Machine.CtxFacet)
  | resumeTakesEffect (x : Machine.CtxFacet)
  | energyRecordWrite (c : Nat) (fld : Nat) (value : Nat)
  | correctionInterval (dom : Nat)
  | switchPoint
  | decisionTick
  | exportBoundary
  | doorbellWrite (p : Nat) (q : Nat) (value : Word)
  | fetchRetryTimer (p : Nat) (q : Nat)
  | gridLaunch (p : Nat) (q : Nat)
  | graphLaunch (p : Nat) (q : Nat)
  | waitPacket (p : Nat) (q : Nat)
  | signalPacket (p : Nat) (q : Nat)
  | waitCompletion (p : Nat) (q : Nat)
  | waitTimeout (p : Nat) (q : Nat)
  | launchCompletion (l : Nat)
  | recordArrival (id : Nat)
  | spillRefill (l : Nat) (n : Nat)
  | coalesceTimerExpiry (l : Nat) (n : Nat)
  | queueMapWrite (p : Nat) (slot : Nat) (value : Nat)
  | teardownStart (c : Nat)
  | teardownComplete (c : Nat)
  | partitionControlWrite (p : Nat) (value : Nat)
  | partitionReset (p : Nat)
  | tlbInvalidatePasid (p : Nat) (pasid : Nat)
  | tlbInvalidateRange (p : Nat) (pasid : Nat) (pages : Nat)
  | tlbInvalidateVf (p : Nat) (vf : Nat)
  | tlbInvalidationComplete (p : Nat)
  | atsInvalidation (p : Nat) (pasid : Nat) (page : Nat) (pages : Nat)
  | pageRequestResponse (t : Nat) (granted : Bool)
  | keyLoad (slot : Nat)
  | keyErase (slot : Nat)
  | apertureWrite (target : Nat) (vf : Nat) (value : Nat)
  | clusterGate (cl : Nat) (ret : Bool)
  | clusterGated (cl : Nat)
  | clusterWake (cl : Nat)
  | clusterWakeComplete (cl : Nat)
  | resetRelease
  | bootWatchdogExpiry
  | cfglockWrite
  | bootokWrite
  | updateVerify
  | updateActivateRequest
  | pmcWrite (p : Nat) (n : Nat) (value : DWord)
  | pmselWrite (p : Nat) (n : Nat) (value : Word)
  | counterEvent (p : Nat) (x : Machine.CtxEvent) (amount : Nat)
  | replayArm (p : Nat) (value : Nat)
  | replayPassEnd (p : Nat)
  | pageCapture (p : Nat) (page : Nat)
  | pageCaptureComplete (p : Nat) (page : Nat)
  | demandSend
  | allocatorGrant
  | allocatorWaitExpiry
  | grantReceived (watts : Nat) (seq : Nat)
  | grantAbsence
  | attestationRequest (vf : Nat) (nonce : Nat)
  | planeenWrite (value : Word)
  | fabricPortFailure (port : Nat)
  | correctedError (unit : Nat) (kind : Nat) (addr : DWord)
  | uncorrectableUnconsumed (unit : Nat) (line : Nat)
  | linkCrcRetry (port : Nat)
  | configRegisterWrite (reg : Nat) (idx : Nat) (value : Nat)
  | illegalInstruction
  | hostAccess (write : Bool) (host : Bool) (addr : Nat) (data : List Nat)
  | peerInvalidation (line : Nat)
  | exchangeHalfArrival (g : Nat)
  | frrptrWrite (ring : Nat) (value : Word)
  | keyCommandComplete
  | updateVerifyComplete
  | partitionResetComplete (p : Nat)
  deriving DecidableEq, Repr

/-- After how many ticks a step that may come from a tick on does come, where the spec ties it to no tick (R113, R115, R147; DESIGN CHOICE,
log entry 3). -/
opaque Config.latency : Ev → Nat → Nat

end Sys2Proof
end

