-- ==== Sys2Proof/Machine/Map.lean ====
section
/-! DEFINITION. Finite maps by number and memory as sorted lists. A map lists its keys in rising order; memory lists
(address, byte) pairs in one canonical form: addresses strictly rising, and no byte equal to what an unlisted address
reads as, which is 0 (DESIGN CHOICE, log entry 1). -/

namespace Sys2Proof.Machine

/-- A finite map from numbers, its keys rising. -/
abbrev SMap (α : Type) := List (Nat × α)

/-- The value at a key. -/
def SMap.find {α : Type} : SMap α → Nat → Option α
  | [], _ => none
  | (k, v) :: r, i => if i = k then some v else SMap.find r i

/-- The value at a key, or `d`. -/
def SMap.getD {α : Type} (m : SMap α) (i : Nat) (d : α) : α := (SMap.find m i).getD d

/-- The map with the value at a key replaced or added. -/
def SMap.set {α : Type} : SMap α → Nat → α → SMap α
  | [], i, x => [(i, x)]
  | (k, v) :: r, i, x => if i < k then (i, x) :: (k, v) :: r else if i = k then (i, x) :: r else (k, v) :: SMap.set r i x

/-- The map without a key. -/
def SMap.erase {α : Type} : SMap α → Nat → SMap α
  | [], _ => []
  | (k, v) :: r, i => if i = k then SMap.erase r i else (k, v) :: SMap.erase r i

/-- The map with the value at a key changed, where there is one. -/
def SMap.modify {α : Type} (m : SMap α) (i : Nat) (f : α → α) : SMap α :=
  match SMap.find m i with
  | some v => SMap.set m i (f v)
  | none => m

/-- The values of a map whose key and value satisfy a test, with their keys. -/
def SMap.filter {α : Type} (m : SMap α) (p : Nat → α → Bool) : SMap α := List.filter (fun x => p x.1 x.2) m

/-- Memory: the bytes that are not 0. -/
abbrev Memory := List Host.Cell

/-- The byte at an address; an unlisted address reads as 0. -/
def Memory.read : Memory → Nat → Byte
  | [], _ => 0
  | (a, b) :: r, i => if i = a then b else Memory.read r i

/-- Memory without an address. -/
def Memory.drop : Memory → Nat → Memory
  | [], _ => []
  | (a, b) :: r, i => if i = a then Memory.drop r i else (a, b) :: Memory.drop r i

/-- Memory with a byte other than 0 put at an address. -/
def Memory.put : Memory → Nat → Byte → Memory
  | [], i, x => [(i, x)]
  | (a, b) :: r, i, x => if i < a then (i, x) :: (a, b) :: r else if i = a then (i, x) :: r else (a, b) :: Memory.put r i x

/-- Memory after a byte is written: writing 0 removes the entry. -/
def Memory.write (m : Memory) (i : Nat) (x : Byte) : Memory := if x = 0 then Memory.drop m i else Memory.put m i x

/-- The canonical form: every address above `lo`, rising, and no byte 0. -/
def Memory.wfFrom : Option Nat → Memory → Bool
  | _, [] => true
  | lo, (a, b) :: r => (match lo with | none => true | some l => Nat.blt l a) && b != 0 && Memory.wfFrom (some a) r

/-- The canonical form of memory. -/
def Memory.wf (m : Memory) : Bool := Memory.wfFrom none m

/-- `n` bytes from an address, as one little-endian number (R3). -/
def Memory.readN (m : Memory) (a : Nat) : Nat → Nat
  | 0 => 0
  | n + 1 => (Memory.read m a).toNat + 256 * Memory.readN m (a + 1) n

/-- `n` bytes of a number written from an address, little-endian (R3). -/
def Memory.writeN (m : Memory) (a x : Nat) : Nat → Memory
  | 0 => m
  | n + 1 => Memory.writeN (Memory.write m a (BitVec.ofNat 8 x)) (a + 1) (x / 256) n

/-- A list of bytes written from an address. -/
def Memory.writeBytes (m : Memory) (a : Nat) : List Byte → Memory
  | [] => m
  | b :: r => Memory.writeBytes (Memory.write m a b) (a + 1) r

/-- The bytes at an address. -/
def Memory.bytes (m : Memory) (a : Nat) : Nat → List Byte
  | 0 => []
  | n + 1 => Memory.read m a :: Memory.bytes m (a + 1) n

/-- Memory whose bytes from `lo` to `lo + n - 1` are 0: those entries are removed. -/
def Memory.clear (m : Memory) (lo n : Nat) : Memory := List.filter (fun c => Nat.blt c.1 lo || Nat.ble (lo + n) c.1) m

end Sys2Proof.Machine
end

