-- ==== Sys2Proof/Syntax.lean ====
section
/-! DEFINITION. The instructions and the indivisible steps of the Kyrraxa D9: one constructor per row of
spec/opcode_table.json. A word's constructor carries the raw fields of its encoding (R174 to R188): register
numbers, mode bits, immediates, the literal's fields. A step without an encoding carries the numbers that say
what it acts on. The chain bit C belongs to the set, so it stands beside the instruction (R168). -/

namespace Sys2Proof

inductive Instr where
  /-- SADD_S (R197). -/
  | saddS (d a b : Nat) (fa fb : Bool)
  /-- SADD_Z (R197). -/
  | saddZ (d a b : Nat) (fa fb : Bool)
  /-- SSUB_S (R197). -/
  | ssubS (d a b : Nat) (fa fb : Bool)
  /-- SSUB_Z (R197). -/
  | ssubZ (d a b : Nat) (fa fb : Bool)
  /-- SMUL_S (R197). -/
  | smulS (d a b : Nat) (fa fb : Bool)
  /-- SMUL_Z (R197). -/
  | smulZ (d a b : Nat) (fa fb : Bool)
  /-- SMULH_S (R197). -/
  | smulhS (d a b : Nat) (fa fb : Bool)
  /-- SMULH_Z (R197). -/
  | smulhZ (d a b : Nat) (fa fb : Bool)
  /-- SDIV_S (R197). -/
  | sdivS (d a b : Nat) (fa fb : Bool)
  /-- SDIV_Z (R197). -/
  | sdivZ (d a b : Nat) (fa fb : Bool)
  /-- SREM_S (R197). -/
  | sremS (d a b : Nat) (fa fb : Bool)
  /-- SREM_Z (R197). -/
  | sremZ (d a b : Nat) (fa fb : Bool)
  /-- SAND (R197). -/
  | sand (d a b : Nat) (fa fb : Bool)
  /-- SOR (R197). -/
  | sor (d a b : Nat) (fa fb : Bool)
  /-- SXOR (R197). -/
  | sxor (d a b : Nat) (fa fb : Bool)
  /-- SANDN (R197). -/
  | sandn (d a b : Nat) (fa fb : Bool)
  /-- SSHL (R197). -/
  | sshl (d a b : Nat) (fa fb : Bool)
  /-- SSHR (R197). -/
  | sshr (d a b : Nat) (fa fb : Bool)
  /-- SSRA (R197). -/
  | ssra (d a b : Nat) (fa fb : Bool)
  /-- SROT (R197). -/
  | srot (d a b : Nat) (fa fb : Bool)
  /-- SMIN_S (R197). -/
  | sminS (d a b : Nat) (fa fb : Bool)
  /-- SMIN_Z (R197). -/
  | sminZ (d a b : Nat) (fa fb : Bool)
  /-- SMAX_S (R197). -/
  | smaxS (d a b : Nat) (fa fb : Bool)
  /-- SMAX_Z (R197). -/
  | smaxZ (d a b : Nat) (fa fb : Bool)
  /-- SADD64 (R198). -/
  | sadd64 (d a b : Nat) (fa fb : Bool)
  /-- SSUB64 (R198). -/
  | ssub64 (d a b : Nat) (fa fb : Bool)
  /-- SPOPC (R197). -/
  | spopc (d a : Nat) (fa : Bool)
  /-- SCLZ (R197). -/
  | sclz (d a : Nat) (fa : Bool)
  /-- SCTZ (R197). -/
  | sctz (d a : Nat) (fa : Bool)
  /-- SBREV (R197). -/
  | sbrev (d a : Nat) (fa : Bool)
  /-- SMOV (R197). -/
  | smov (d a : Nat) (fa : Bool)
  /-- SSEL (R198). -/
  | ssel (d a b : Nat) (fa fb : Bool)
  /-- SCMP (R199). -/
  | scmp (cc d a b : Nat) (fa fb : Bool)
  /-- SADD_S_IMM (R200). -/
  | saddSImm (d a : Nat) (fa : Bool) (imm : Nat)
  /-- SSHL_IMM (R201). -/
  | sshlImm (d a : Nat) (fa : Bool) (n : Nat)
  /-- SSHR_IMM (R201). -/
  | sshrImm (d a : Nat) (fa : Bool) (n : Nat)
  /-- SSRA_IMM (R201). -/
  | ssraImm (d a : Nat) (fa : Bool) (n : Nat)
  /-- SROT_IMM (R201). -/
  | srotImm (d a : Nat) (fa : Bool) (n : Nat)
  /-- SBFE_S (R202). -/
  | sbfeS (d a : Nat) (fa : Bool) (w1 pos : Nat)
  /-- SBFE_Z (R202). -/
  | sbfeZ (d a : Nat) (fa : Bool) (w1 pos : Nat)
  /-- SBFI (R202). -/
  | sbfi (d a : Nat) (fa : Bool) (w1 pos : Nat)
  /-- SLI (R203). -/
  | sli (d imm : Nat)
  /-- SLIT (R203). -/
  | slit (d value : Nat)
  /-- JMP (R206). -/
  | jmp (cond off : Nat)
  /-- BRZ (R207). -/
  | brz (d off : Nat)
  /-- BRNZ (R207). -/
  | brnz (d off : Nat)
  /-- CALL (R208). -/
  | call (d off : Nat)
  /-- JMPR (R209). -/
  | jmpr (a : Nat) (fa : Bool)
  /-- CALLR (R209). -/
  | callr (d a : Nat) (fa : Bool)
  /-- RET (R209). -/
  | ret (a : Nat) (fa : Bool)
  /-- EMRD (R211). -/
  | emrd (d : Nat)
  /-- EMWR (R212). -/
  | emwr (a : Nat) (fa : Bool)
  /-- NOP (R173). -/
  | nop
  /-- EXIT (R41). -/
  | exit
  /-- JOIN (R40). -/
  | join
  /-- ITEMPUT (R219). -/
  | itemput (a : Nat) (fa : Bool)
  /-- DIV (R39). -/
  | div (d other joff : Nat)
  /-- ITEMHEAD (R48). -/
  | itemhead (d a : Nat) (fa : Bool) (imm : Nat)
  /-- LOOPB (R221). -/
  | loopb (d n : Nat)
  /-- VADD (R227). -/
  | vadd (d a b : Nat) (fa fb : Bool)
  /-- VSUB (R227). -/
  | vsub (d a b : Nat) (fa fb : Bool)
  /-- VADDC (R228). -/
  | vaddc (d a b : Nat) (fa fb : Bool)
  /-- VSUBB (R228). -/
  | vsubb (d a b : Nat) (fa fb : Bool)
  /-- VMUL (R227). -/
  | vmul (d a b : Nat) (fa fb : Bool)
  /-- VMULH_S (R227). -/
  | vmulhS (d a b : Nat) (fa fb : Bool)
  /-- VMULH_Z (R227). -/
  | vmulhZ (d a b : Nat) (fa fb : Bool)
  /-- VAND (R227). -/
  | vand (d a b : Nat) (fa fb : Bool)
  /-- VOR (R227). -/
  | vor (d a b : Nat) (fa fb : Bool)
  /-- VXOR (R227). -/
  | vxor (d a b : Nat) (fa fb : Bool)
  /-- VANDN (R227). -/
  | vandn (d a b : Nat) (fa fb : Bool)
  /-- VSHL (R227). -/
  | vshl (d a b : Nat) (fa fb : Bool)
  /-- VSHR (R227). -/
  | vshr (d a b : Nat) (fa fb : Bool)
  /-- VSRA (R227). -/
  | vsra (d a b : Nat) (fa fb : Bool)
  /-- VMIN_S (R227). -/
  | vminS (d a b : Nat) (fa fb : Bool)
  /-- VMIN_Z (R227). -/
  | vminZ (d a b : Nat) (fa fb : Bool)
  /-- VMAX_S (R227). -/
  | vmaxS (d a b : Nat) (fa fb : Bool)
  /-- VMAX_Z (R227). -/
  | vmaxZ (d a b : Nat) (fa fb : Bool)
  /-- VABS (R227). -/
  | vabs (d a : Nat) (fa : Bool)
  /-- VPOPC (R227). -/
  | vpopc (d a : Nat) (fa : Bool)
  /-- VCLZ (R227). -/
  | vclz (d a : Nat) (fa : Bool)
  /-- VBREV (R227). -/
  | vbrev (d a : Nat) (fa : Bool)
  /-- VMOV (R227). -/
  | vmov (d a : Nat) (fa : Bool)
  /-- VSEL (R229). -/
  | vsel (d a b : Nat) (fa fb : Bool)
  /-- VBCAST (R229). -/
  | vbcast (d a : Nat) (fa : Bool)
  /-- VLANE (R229). -/
  | vlane (d a b : Nat) (fa fb : Bool)
  /-- VCMP (R230). -/
  | vcmp (cc d a b : Nat) (fa fb : Bool)
  /-- VADD_IMM (R231). -/
  | vaddImm (d a : Nat) (fa : Bool) (imm : Nat)
  /-- VSHL_IMM (R232). -/
  | vshlImm (d a : Nat) (fa : Bool) (n : Nat)
  /-- VSHR_IMM (R232). -/
  | vshrImm (d a : Nat) (fa : Bool) (n : Nat)
  /-- VSRA_IMM (R232). -/
  | vsraImm (d a : Nat) (fa : Bool) (n : Nat)
  /-- VBFE_S (R233). -/
  | vbfeS (d a : Nat) (fa : Bool) (w1 pos : Nat)
  /-- VBFE_Z (R233). -/
  | vbfeZ (d a : Nat) (fa : Bool) (w1 pos : Nat)
  /-- VBFI (R233). -/
  | vbfi (d a : Nat) (fa : Bool) (w1 pos : Nat)
  /-- VSAT_S8 (R234). -/
  | vsatS8 (d a : Nat) (fa : Bool)
  /-- VSAT_Z8 (R234). -/
  | vsatZ8 (d a : Nat) (fa : Bool)
  /-- VSAT_S16 (R234). -/
  | vsatS16 (d a : Nat) (fa : Bool)
  /-- VSAT_Z16 (R234). -/
  | vsatZ16 (d a : Nat) (fa : Bool)
  /-- VPACK_B8 (R235). -/
  | vpackB8 (d a b : Nat) (fa fb : Bool)
  /-- VPACK_B16 (R235). -/
  | vpackB16 (d a b : Nat) (fa fb : Bool)
  /-- VUNPACK_S8 (R236). -/
  | vunpackS8 (d a b : Nat) (fa fb : Bool)
  /-- VUNPACK_Z8 (R236). -/
  | vunpackZ8 (d a b : Nat) (fa fb : Bool)
  /-- VUNPACK_S16 (R236). -/
  | vunpackS16 (d a b : Nat) (fa fb : Bool)
  /-- VUNPACK_Z16 (R236). -/
  | vunpackZ16 (d a b : Nat) (fa fb : Bool)
  /-- VPERMB (R237). -/
  | vpermb (d a b : Nat) (fa fb : Bool)
  /-- VMAD (R238). -/
  | vmad (d a b : Nat) (fa fb : Bool)
  /-- VFADD (R239). -/
  | vfadd (rm d a b : Nat) (fa fb : Bool)
  /-- VFSUB (R239). -/
  | vfsub (rm d a b : Nat) (fa fb : Bool)
  /-- VFMUL (R239). -/
  | vfmul (rm d a b : Nat) (fa fb : Bool)
  /-- VFMA (R239). -/
  | vfma (rm d a b : Nat) (fa fb : Bool)
  /-- VFDOT2 (R241). -/
  | vfdot2 (rm d a b : Nat) (fa fb : Bool)
  /-- VFMIN (R239). -/
  | vfmin (d a b : Nat) (fa fb : Bool)
  /-- VFMAX (R239). -/
  | vfmax (d a b : Nat) (fa fb : Bool)
  /-- VFSCALE (R240). -/
  | vfscale (rm d a b : Nat) (fa fb : Bool)
  /-- VFRCP (R242). -/
  | vfrcp (rm d a : Nat) (fa : Bool)
  /-- VFRSQ (R242). -/
  | vfrsq (rm d a : Nat) (fa : Bool)
  /-- VFSQRT (R242). -/
  | vfsqrt (rm d a : Nat) (fa : Bool)
  /-- VFEXP2 (R242). -/
  | vfexp2 (rm d a : Nat) (fa : Bool)
  /-- VFLOG2 (R242). -/
  | vflog2 (rm d a : Nat) (fa : Bool)
  /-- VFSIN (R242). -/
  | vfsin (rm d a : Nat) (fa : Bool)
  /-- VFCOS (R242). -/
  | vfcos (rm d a : Nat) (fa : Bool)
  /-- VFRND (R242). -/
  | vfrnd (rm d a : Nat) (fa : Bool)
  /-- VFABS (R243). -/
  | vfabs (d a : Nat) (fa : Bool)
  /-- VFNEG (R243). -/
  | vfneg (d a : Nat) (fa : Bool)
  /-- VFCLASS (R244). -/
  | vfclass (d a : Nat) (fa : Bool)
  /-- VFCMP (R245). -/
  | vfcmp (cc d a b : Nat) (fa fb : Bool)
  /-- VFCVT (R247). -/
  | vfcvt (d a : Nat) (fa : Bool) (part : Nat) (sat : Bool) (rm tag : Nat)
  /-- VFCVTI (R248). -/
  | vfcvti (d a : Nat) (fa : Bool) (part rm tag : Nat)
  /-- VICVTF (R249). -/
  | vicvtf (d a : Nat) (fa : Bool) (part : Nat) (sat : Bool) (rm tag : Nat)
  /-- VCLMUL_LO (R250). -/
  | vclmulLo (d a b : Nat) (fa fb : Bool)
  /-- VCLMUL_HI (R250). -/
  | vclmulHi (d a b : Nat) (fa fb : Bool)
  /-- VTAG (R251). -/
  | vtag (tag d a : Nat) (fa : Bool)
  /-- LD_B32 (R257). -/
  | ldB32 (d base idx pol : Nat) (fx : Bool)
  /-- LD_B64 (R257). -/
  | ldB64 (d base idx pol : Nat) (fx : Bool)
  /-- LD_Z8 (R257). -/
  | ldZ8 (d base idx pol : Nat) (fx : Bool)
  /-- LD_S8 (R257). -/
  | ldS8 (d base idx pol : Nat) (fx : Bool)
  /-- LD_Z16 (R257). -/
  | ldZ16 (d base idx pol : Nat) (fx : Bool)
  /-- LD_S16 (R257). -/
  | ldS16 (d base idx pol : Nat) (fx : Bool)
  /-- ST_B8 (R258). -/
  | stB8 (d base idx pol : Nat) (fx : Bool)
  /-- ST_B16 (R258). -/
  | stB16 (d base idx pol : Nat) (fx : Bool)
  /-- ST_B32 (R258). -/
  | stB32 (d base idx pol : Nat) (fx : Bool)
  /-- ST_B64 (R258). -/
  | stB64 (d base idx pol : Nat) (fx : Bool)
  /-- LDMC_B32 (R259). -/
  | ldmcB32 (d base idx pol : Nat) (fx : Bool)
  /-- LDS_B32 (R260). -/
  | ldsB32 (d base idx pol : Nat) (fx : Bool)
  /-- LDS_B64 (R260). -/
  | ldsB64 (d base idx pol : Nat) (fx : Bool)
  /-- STS_B32 (R260). -/
  | stsB32 (d base idx pol : Nat) (fx : Bool)
  /-- STS_B64 (R260). -/
  | stsB64 (d base idx pol : Nat) (fx : Bool)
  /-- PREF (R261). -/
  | pref (base idx pol : Nat) (fx : Bool)
  /-- LFLUSH (R262). -/
  | lflush (base idx pol : Nat) (fx : Bool)
  /-- ATOM_ADD (R264). -/
  | atomAdd (d base idx pol : Nat) (fx : Bool) (x : Nat) (fy u : Bool)
  /-- ATOM_SUB (R264). -/
  | atomSub (d base idx pol : Nat) (fx : Bool) (x : Nat) (fy u : Bool)
  /-- ATOM_AND (R264). -/
  | atomAnd (d base idx pol : Nat) (fx : Bool) (x : Nat) (fy u : Bool)
  /-- ATOM_OR (R264). -/
  | atomOr (d base idx pol : Nat) (fx : Bool) (x : Nat) (fy u : Bool)
  /-- ATOM_XOR (R264). -/
  | atomXor (d base idx pol : Nat) (fx : Bool) (x : Nat) (fy u : Bool)
  /-- ATOM_MINS (R264). -/
  | atomMins (d base idx pol : Nat) (fx : Bool) (x : Nat) (fy u : Bool)
  /-- ATOM_MAXS (R264). -/
  | atomMaxs (d base idx pol : Nat) (fx : Bool) (x : Nat) (fy u : Bool)
  /-- ATOM_MINZ (R264). -/
  | atomMinz (d base idx pol : Nat) (fx : Bool) (x : Nat) (fy u : Bool)
  /-- ATOM_MAXZ (R264). -/
  | atomMaxz (d base idx pol : Nat) (fx : Bool) (x : Nat) (fy u : Bool)
  /-- ATOM_EXCH (R264). -/
  | atomExch (d base idx pol : Nat) (fx : Bool) (x : Nat) (fy u : Bool)
  /-- ATOM_CAS (R264). -/
  | atomCas (d base idx pol : Nat) (fx : Bool) (x : Nat) (fy u : Bool)
  /-- FATOM_ADD (R265). -/
  | fatomAdd (d base idx pol : Nat) (fx : Bool) (x : Nat) (fy u : Bool)
  /-- FATOM_MIN (R265). -/
  | fatomMin (d base idx pol : Nat) (fx : Bool) (x : Nat) (fy u : Bool)
  /-- FATOM_MAX (R265). -/
  | fatomMax (d base idx pol : Nat) (fx : Bool) (x : Nat) (fy u : Bool)
  /-- CADD (R266). -/
  | cadd (base idx pol : Nat) (fx : Bool) (x : Nat) (fy u : Bool)
  /-- CRD (R267). -/
  | crd (d base idx pol : Nat) (fx u : Bool)
  /-- CRD_RST (R267). -/
  | crdRst (d base idx pol : Nat) (fx u : Bool)
  /-- QPUSH (R270). -/
  | qpush (d base idx pol : Nat) (fx : Bool) (x : Nat) (fy u : Bool)
  /-- QPOP (R270). -/
  | qpop (d base idx pol : Nat) (fx : Bool) (x : Nat) (u : Bool)
  /-- WAITC (R272). -/
  | waitc (cc d base idx pol : Nat) (fx : Bool) (x : Nat) (fy u : Bool)
  /-- LKL (R275). -/
  | lkl (d base idx pol : Nat) (fx : Bool)
  /-- ULKL (R276). -/
  | ulkl (base idx pol : Nat) (fx : Bool)
  /-- WINCHK (R279). -/
  | winchk (d base idx pol : Nat) (fx : Bool)
  /-- VOTE_ALL (R283). -/
  | voteAll (d a b : Nat) (fa : Bool)
  /-- VOTE_ANY (R283). -/
  | voteAny (d a b : Nat) (fa : Bool)
  /-- VOTE_BALLOT (R283). -/
  | voteBallot (d a b : Nat) (fa : Bool)
  /-- SHFL_IDX (R284). -/
  | shflIdx (d a b : Nat) (fa : Bool) (sel : Nat) (fy : Bool)
  /-- SHFL_UP (R284). -/
  | shflUp (d a b : Nat) (fa : Bool) (delta : Nat)
  /-- SHFL_DOWN (R284). -/
  | shflDown (d a b : Nat) (fa : Bool) (delta : Nat)
  /-- SHFL_XOR (R284). -/
  | shflXor (d a b : Nat) (fa : Bool) (delta : Nat)
  /-- GRED_ADD (R285). -/
  | gredAdd (d a b : Nat) (fa : Bool)
  /-- GRED_MINS (R285). -/
  | gredMins (d a b : Nat) (fa : Bool)
  /-- GRED_MAXS (R285). -/
  | gredMaxs (d a b : Nat) (fa : Bool)
  /-- GRED_MINZ (R285). -/
  | gredMinz (d a b : Nat) (fa : Bool)
  /-- GRED_MAXZ (R285). -/
  | gredMaxz (d a b : Nat) (fa : Bool)
  /-- GRED_AND (R285). -/
  | gredAnd (d a b : Nat) (fa : Bool)
  /-- GRED_OR (R285). -/
  | gredOr (d a b : Nat) (fa : Bool)
  /-- GRED_XOR (R285). -/
  | gredXor (d a b : Nat) (fa : Bool)
  /-- GRED_FADD (R285). -/
  | gredFadd (d a b : Nat) (fa : Bool)
  /-- GRED_FMIN (R285). -/
  | gredFmin (d a b : Nat) (fa : Bool)
  /-- GRED_FMAX (R285). -/
  | gredFmax (d a b : Nat) (fa : Bool)
  /-- GSCAN_ADD (R285). -/
  | gscanAdd (d a b : Nat) (fa : Bool)
  /-- GSCAN_MINS (R285). -/
  | gscanMins (d a b : Nat) (fa : Bool)
  /-- GSCAN_MAXS (R285). -/
  | gscanMaxs (d a b : Nat) (fa : Bool)
  /-- GSCAN_MINZ (R285). -/
  | gscanMinz (d a b : Nat) (fa : Bool)
  /-- GSCAN_MAXZ (R285). -/
  | gscanMaxz (d a b : Nat) (fa : Bool)
  /-- GSCAN_AND (R285). -/
  | gscanAnd (d a b : Nat) (fa : Bool)
  /-- GSCAN_OR (R285). -/
  | gscanOr (d a b : Nat) (fa : Bool)
  /-- GSCAN_XOR (R285). -/
  | gscanXor (d a b : Nat) (fa : Bool)
  /-- GSCAN_FADD (R285). -/
  | gscanFadd (d a b : Nat) (fa : Bool)
  /-- GSCAN_FMIN (R285). -/
  | gscanFmin (d a b : Nat) (fa : Bool)
  /-- GSCAN_FMAX (R285). -/
  | gscanFmax (d a b : Nat) (fa : Bool)
  /-- XCHG (R287). -/
  | xchg (d a b : Nat) (fa : Bool)
  /-- BINIT (R294). -/
  | binit (bar a : Nat) (fa : Bool)
  /-- BARR (R294). -/
  | barr (bar a : Nat) (fa : Bool)
  /-- BWAIT (R294). -/
  | bwait (bar a : Nat) (fa : Bool)
  /-- BARRW (R294). -/
  | barrw (bar a : Nat) (fa : Bool)
  /-- BEXP (R294). -/
  | bexp (bar a : Nat) (fa : Bool)
  /-- BQRY (R294). -/
  | bqry (bar d : Nat)
  /-- BARR_PEER (R294). -/
  | barrPeer (bar a : Nat) (fa : Bool)
  /-- ACP (R300). -/
  | acp (d base idx pol : Nat) (fx : Bool) (dbase didx : Nat) (fy : Bool) (size cmpl bar csc : Nat)
  /-- MZERO (R312). -/
  | mzero (tag d memb : Nat)
  /-- MLD (R310). -/
  | mld (d a b : Nat) (fa fb : Bool) (memb desc : Nat) (fy : Bool)
  /-- MST (R310). -/
  | mst (d a b : Nat) (fa fb : Bool) (memb desc : Nat) (fy : Bool)
  /-- MSCALE (R311). -/
  | mscale (a b : Nat) (fa fb : Bool) (memb desc : Nat) (fy : Bool)
  /-- MMA (R314). -/
  | mma (d a b memb desc : Nat) (fy : Bool)
  /-- MLOOP (R314). -/
  | mloop (d a b memb desc : Nat) (fy : Bool)
  /-- MFENCE (R315). -/
  | mfence (d : Nat)
  /-- MWAIT (R316). -/
  | mwait (a : Nat) (fa : Bool) (memb : Nat)
  /-- SEGCRT_CM (R319). -/
  | segcrtCm (d a b : Nat) (fa fb : Bool)
  /-- SEGCRT_CHIP (R319). -/
  | segcrtChip (d a b : Nat) (fa fb : Bool)
  /-- SEGATT (R320). -/
  | segatt (d a : Nat) (fa : Bool)
  /-- SEGDET (R321). -/
  | segdet (a : Nat) (fa : Bool)
  /-- SEGDEL (R321). -/
  | segdel (d a : Nat) (fa : Bool)
  /-- SEGQRY (R322). -/
  | segqry (d a : Nat) (fa : Bool)
  /-- EMIT_16 (R323). -/
  | emit16 (a b : Nat) (fa fb : Bool)
  /-- EMIT_32 (R323). -/
  | emit32 (a b : Nat) (fa fb : Bool)
  /-- EMIT_64 (R323). -/
  | emit64 (a b : Nat) (fa fb : Bool)
  /-- CSRR (R325). -/
  | csrr (d n : Nat)
  /-- CSRW (R325). -/
  | csrw (d n : Nat)
  /-- ICINV (R328). -/
  | icinv
  /-- ICINV_ALL (R328). -/
  | icinvAll
  /-- CLK (R326). -/
  | clk (d : Nat)
  /-- RDMETER (R164). -/
  | rdmeter (d : Nat)
  /-- RDBKT (R164). -/
  | rdbkt (d : Nat)
  /-- OPREQ (R327). -/
  | opreq (a : Nat) (fa : Bool)
  /-- YIELD (R329). -/
  | yieldW
  /-- TRAP (R330). -/
  | trap (n : Nat)
  /-- TRAPRET (R344). -/
  | trapret
  /-- PATH_READY (R43): A blocked path becomes ready when its awaited condition holds. -/
  | pathReady (g : Nat)
  /-- TEAM_END (R217): A team ends once its groups have retired and their stores and transfers are performed. -/
  | teamEnd (t : Nat)
  /-- DISPATCH (R400): Each tick the front end dispatches at most one team or pair onto a core with room. -/
  | dispatch (p : Nat)
  /-- LONG_LATENCY_COMPLETION (R62): The last active lane's value of a long-latency producer is written and its destination becomes full. -/
  | longLatencyCompletion (op : Nat)
  /-- STORE_ACKNOWLEDGEMENT (R120): A store's acknowledgement reaches the issuing core and its service charge is sent. -/
  | storeAcknowledgement (op : Nat)
  /-- MEMORY_WORD_CLEARANCE (R333): A memory word clears once every lane has passed its decoding, window, translation, barrier and range-lock checks. -/
  | memoryWordClearance (op : Nat)
  /-- DEFERRED_FAULT_REPORT (R337): A service fault of a word with no destination reaches the core and is held until the group's next boundary. -/
  | deferredFaultReport (g : Nat) (f : FaultInfo)
  /-- FAULT_REPORT (R338): Once outstanding work has completed, the fault record is written to the partition's fault ring. -/
  | faultReport (t : Nat)
  /-- MONITOR_RESUME (R345): The monitor resumes a stopped team at its boundary. -/
  | monitorResume (t : Nat)
  /-- MONITOR_RESUME_NEXT (R345): The monitor resumes a stopped team at the set after a trap or deferred fault. -/
  | monitorResumeNext (t : Nat)
  /-- MONITOR_SAVE (R345): The monitor has a stopped team saved. -/
  | monitorSave (t area : Nat)
  /-- END_TEAM (R345): The monitor ends a team, discarding its work and releasing its attachments. -/
  | endTeam (t : Nat)
  /-- END_GRID (R345): The monitor ends a grid, which then completes for its queue. -/
  | endGrid (l : Nat)
  /-- END_CONTEXT (R345): The monitor ends a context, tearing it down. -/
  | endContext (c : Nat)
  /-- PREEMPTION_REQUEST (R346): The front end pre-empts a team and chooses to drain, flush or save it. -/
  | preemptionRequest (t cause bound area : Nat)
  /-- TEAM_FLUSH (R347): After outstanding work completes, the team is discarded and queued again for dispatch. -/
  | teamFlush (t : Nat)
  /-- TEAM_SAVE (R75): After producers and queued work complete or are cancelled, the team's save image is written and its core freed. -/
  | teamSave (t area : Nat)
  /-- TEAM_RESTORE (R77): A saved team is restored from its image onto a core and continues. -/
  | teamRestore (t : Nat)
  /-- ATTACH_MISS_REPLAY (R348): An attach-miss saves the team, restores it with the segment and replays the SEGATT. -/
  | attachMissReplay (t area : Nat)
  /-- PAGE_FAULT_REPLAY (R349): A pageable translation fault stops the team until the page is resolved, then re-issues the word. -/
  | pageFaultReplay (t : Nat)
  /-- PFHOLD_EXPIRY (R349): A page resolution exceeding PFHOLD ticks causes the team to be saved. -/
  | pfholdExpiry (t area : Nat)
  /-- XCHG_HALVES_MEET (R288): Two matching exchange halves meet and both sides' destinations are written and marked full. -/
  | xchgHalvesMeet (g h : Nat)
  /-- EXCHANGE_TIMEOUT (R289): A half waiting longer than XTO ticks faults its group and marks its number dead. -/
  | exchangeTimeout (g : Nat)
  /-- BARRIER_PHASE_COMPLETE (R296): At the end of a cycle a barrier with all arrivals and no pending bytes completes its phase. -/
  | barrierPhaseComplete (t bar : Nat)
  /-- PEER_ARRIVAL (R298): A BARR.peer arrival reaches the partner's barrier word, or its save area. -/
  | peerArrival (t bar : Nat) (n : Word) (g : Nat) (pos : Pos)
  /-- COPY_LINE_TRANSFER (R380): The copy coalescer sends one line transfer per cycle. -/
  | copyLineTransfer (k : Nat)
  /-- COPY_COMPLETION (R304): After the last write and the release of its locks, the copy publishes its completion as a release. -/
  | copyCompletion (k : Nat)
  /-- TILE_PORT_SERVICE (R378): The tile port serves an MLD, MST, MSCALE or MZERO at the head of a team's queue. -/
  | tilePortService (cl : Nat)
  /-- MATRIX_STEP (R314): A step enters the step pipeline, is charged and updates the accumulator tile. -/
  | matrixStep (cl : Nat)
  /-- BATCH_COMPLETE (R315): When a batch has been served and performed, C advances and MFENCE's destination becomes full. -/
  | batchComplete (t : Nat)
  /-- HOME_ATOMIC_SERVICE (R263): An atomic is performed indivisibly at the home unit of its address. -/
  | homeAtomicService (op lane : Nat)
  /-- POOL_WORD_AT_HOME (R269): An unpaired pool word acts on the header and a slot at the home slice. -/
  | poolWordAtHome (op lane : Nat)
  /-- REFLECTOR_ENTRY (R376): A pool word enters a reflector window's slot set for its input port. -/
  | reflectorEntry (op lane : Nat)
  /-- REFLECTOR_FORWARD (R376): A held pool word's hold expires and it is forwarded to the next hop. -/
  | reflectorForward (op lane : Nat)
  /-- CONDITION_MONITOR_TEST (R273): A WAITC test reaches the home slice and answers or registers an entry. -/
  | conditionMonitorTest (op lane : Nat)
  /-- WAITC_POLL (R274): A core with no entry granted repeats the test every 512 router cycles. -/
  | waitcPoll (op lane : Nat)
  /-- SLICE_ACCESS_SERVICE (R143): A slice serves a read or write request, filling from HBM4 where needed. -/
  | sliceAccessService (op lane : Nat)
  /-- MERGE_REQUEST_PASS (R373): An eligible LDMC request passing a router or slice opens or joins a merge entry. -/
  | mergeRequestPass (op lane : Nat)
  /-- MERGED_RESPONSE_SPLIT (R374): A closing merge entry's prism splits the response to every tagged port. -/
  | mergedResponseSplit (id : Nat)
  /-- PEER_ACCESS (R370): The owning device checks a windowed access's key against its export tables. -/
  | peerAccess (peer net key : Nat) (addr : DWord) (who : Nat) (kind : Machine.MemKind) (word : Machine.PeerWord)
  /-- PEER_KEY_ACCEPT (R334): The peer's acceptance returns and the window entry becomes verified. -/
  | peerKeyAccept (c handle : Nat)
  /-- SEGCRT_ZEROING_DONE (R382): Once every line is zeroed, the segment unit writes a SEGCRT status of 1. -/
  | segcrtZeroingDone (seg : Nat)
  /-- SEGMENT_EVICTION_START (R364): A Resident segment begins eviction to its mirror. -/
  | segmentEvictionStart (seg cause : Nat)
  /-- SEGMENT_MIRRORED (R363): The last line is written to the mirror and the segment becomes Mirrored. -/
  | segmentMirrored (seg : Nat)
  /-- SEGMENT_RESTORE_START (R363): A Mirrored segment begins restoring on chip. -/
  | segmentRestoreStart (seg cl : Nat)
  /-- SEGMENT_RESIDENT (R363): The last line is written back on chip and the segment becomes Resident. -/
  | segmentResident (seg : Nat)
  /-- BUDGET_PERIOD_BOUNDARY (R149): At a budget period boundary the home unit refills buckets and tests resume. -/
  | budgetPeriodBoundary (p : Nat)
  /-- CHARGE_ARRIVAL (R149): Charges landing at the home unit lower the level and may stop the context. -/
  | chargeArrival (c : Nat)
  /-- STOP_TAKES_EFFECT (R150): 24 cycles after Stop, no set of the context issues in the facet. -/
  | stopTakesEffect (x : Machine.CtxFacet)
  /-- RESUME_TAKES_EFFECT (R152): 24 cycles after Resume, groups issue again from their stopped sets. -/
  | resumeTakesEffect (x : Machine.CtxFacet)
  /-- ENERGY_RECORD_WRITE (R165): The monitor writes a context's energy record, with bucket fields pending to the next boundary. -/
  | energyRecordWrite (c fld value : Nat)
  /-- CORRECTION_INTERVAL (R160): Each energy unit charges static shares and true-ups from the measured energy. -/
  | correctionInterval (dom : Nat)
  /-- SWITCH_POINT (R427): Every 65,536 ticks the chosen operating point takes effect and clocks realign. -/
  | switchPoint
  /-- DECISION_TICK (R428): 4,096 ticks before a switch point, the next point is chosen from requests and grants. -/
  | decisionTick
  /-- EXPORT_BOUNDARY (R456): At each export boundary the monitor reads the accounts and produces signed meter records. -/
  | exportBoundary
  /-- DOORBELL_WRITE (R388): Software writes a queue's new WPTR, or marks an unmapped queue pending. -/
  | doorbellWrite (p q : Nat) (value : Word)
  /-- FETCH_RETRY_TIMER (R388): Every 65,536 ticks fetch re-reads a packet still of TYPE 0. -/
  | fetchRetryTimer (p q : Nat)
  /-- GRID_LAUNCH (R390): A grid launch packet reads its arguments and enters its teams for dispatch. -/
  | gridLaunch (p q : Nat)
  /-- GRAPH_LAUNCH (R393): A graph launch packet seeds a node's gather buffer and starts the graph. -/
  | graphLaunch (p q : Nat)
  /-- WAIT_PACKET (R392): A wait packet registers a condition on a signal and blocks its queue. -/
  | waitPacket (p q : Nat)
  /-- SIGNAL_PACKET (R392): A signal packet sets or adds to a signal as a system-scope release. -/
  | signalPacket (p q : Nat)
  /-- WAIT_COMPLETION (R392): The signal satisfies the wait and the queue continues. -/
  | waitCompletion (p q : Nat)
  /-- WAIT_TIMEOUT (R392): A wait lasting TIMEOUT ticks puts its queue in error. -/
  | waitTimeout (p q : Nat)
  /-- LAUNCH_COMPLETION (R389): A completed launch or graph decrements its completion signal and sends its IRQ. -/
  | launchCompletion (l : Nat)
  /-- RECORD_ARRIVAL (R397): An EMIT's records reach the front end and enter the gather buffer or the spill ring. -/
  | recordArrival (id : Nat)
  /-- SPILL_REFILL (R399): Each tick the overflow engine moves records from the ring head into the buffer. -/
  | spillRefill (l n : Nat)
  /-- COALESCE_TIMER_EXPIRY (R399): A buffer's coalescing timer lapses and a partial team is formed. -/
  | coalesceTimerExpiry (l n : Nat)
  /-- QUEUE_MAP_WRITE (R401): Firmware maps or unmaps a queue into a processor slot. -/
  | queueMapWrite (p slot value : Nat)
  /-- TEARDOWN_START (R404): Writing TDOWN makes the context's queues dying and ends its work. -/
  | teardownStart (c : Nat)
  /-- TEARDOWN_COMPLETE (R404): Once the old generation's requests drain and teams end, TDOWN clears. -/
  | teardownComplete (c : Nat)
  /-- PARTITION_CONTROL_WRITE (R407): The monitor writes a partition control register, with refusals reported. -/
  | partitionControlWrite (p value : Nat)
  /-- PARTITION_RESET (R424): Writing RST = 1 discards, purges, zeroes and invalidates the partition in order. -/
  | partitionReset (p : Nat)
  /-- TLB_INVALIDATE_PASID (R413): Starts invalidating every translation of one PASID. -/
  | tlbInvalidatePasid (p pasid : Nat)
  /-- TLB_INVALIDATE_RANGE (R413): Starts invalidating a range of pages of one PASID. -/
  | tlbInvalidateRange (p pasid pages : Nat)
  /-- TLB_INVALIDATE_VF (R413): Starts invalidating every PASID of a virtual function. -/
  | tlbInvalidateVf (p vf : Nat)
  /-- TLB_INVALIDATION_COMPLETE (R413): BUSY clears once no covered entry, walk or access remains. -/
  | tlbInvalidationComplete (p : Nat)
  /-- ATS_INVALIDATION (R415): A host ATS invalidation removes covered host translations. -/
  | atsInvalidation (p pasid page pages : Nat)
  /-- PAGE_REQUEST_RESPONSE (R415): A PRI page response arrives, resolving or refusing the page. -/
  | pageRequestResponse (t : Nat) (granted : Bool)
  /-- KEY_LOAD (R419): Loads the key pair from KDATA into an empty slot. -/
  | keyLoad (slot : Nat)
  /-- KEY_ERASE (R419): Erases an ungranted key slot after writing back and dropping its lines. -/
  | keyErase (slot : Nat)
  /-- APERTURE_WRITE (R423): Writes a virtual function's aperture and lock quota, refusing oversubscription. -/
  | apertureWrite (target vf value : Nat)
  /-- CLUSTER_GATE (R432): Writing GATE starts quiescing a cluster, or is refused. -/
  | clusterGate (cl : Nat) (ret : Bool)
  /-- CLUSTER_GATED (R432): After quiesce and drain, the cluster saves retention state and gates clock and rail. -/
  | clusterGated (cl : Nat)
  /-- CLUSTER_WAKE (R433): Writing WAKE starts raising the rail and clock of a gated cluster. -/
  | clusterWake (cl : Nat)
  /-- CLUSTER_WAKE_COMPLETE (R433): Retention state is restored and STATE returns to on. -/
  | clusterWakeComplete (cl : Nat)
  /-- RESET_RELEASE (R472): Release from reset starts the tick counter at 0 and the boot ROM. -/
  | resetRelease
  /-- BOOT_WATCHDOG_EXPIRY (R436): BOOTOK not written within 2^30 ticks fails the start. -/
  | bootWatchdogExpiry
  /-- CFGLOCK_WRITE (R434): Sets the lock of every RWL register on the device. -/
  | cfglockWrite
  /-- BOOTOK_WRITE (R434): Ends the start, clears the failure count and advances BOOTNO. -/
  | bootokWrite
  /-- UPDATE_VERIFY (R439): Writing VER verifies the staged monitor image under R435. -/
  | updateVerify
  /-- UPDATE_ACTIVATE_REQUEST (R439): Writing ACT requests activation of the staged monitor at the next switch point. -/
  | updateActivateRequest
  /-- PMC_WRITE (R443): A monitor write to a counter takes the written value plus that cycle's increments. -/
  | pmcWrite (p n : Nat) (value : DWord)
  /-- PMSEL_WRITE (R443): A selector write takes effect from the next router cycle. -/
  | pmselWrite (p n : Nat) (value : Word)
  /-- COUNTER_EVENT (R443): A selected event arrives at the counter block and is added, setting OV on wrap. -/
  | counterEvent (p : Nat) (x : Machine.CtxEvent) (amount : Nat)
  /-- REPLAY_ARM (R444): Writing ARM = 1 arms the replay unit for the next launch of a queue. -/
  | replayArm (p value : Nat)
  /-- REPLAY_PASS_END (R447): A pass ends, its counts and signature are recorded, and the next pass begins or the replay finishes. -/
  | replayPassEnd (p : Nat)
  /-- PAGE_CAPTURE (R448): A first write to an uncaptured page is held while the page is copied to the capture area. -/
  | pageCapture (p page : Nat)
  /-- PAGE_CAPTURE_COMPLETE (R448): The page copy completes and held writes proceed. -/
  | pageCaptureComplete (p page : Nat)
  /-- DEMAND_SEND (R465): Every 1,000,000 ticks the package sends a DEMAND flit to its cap allocator. -/
  | demandSend
  /-- ALLOCATOR_GRANT (R465): With every package's DEMAND received, the allocator computes and sends grants. -/
  | allocatorGrant
  /-- ALLOCATOR_WAIT_EXPIRY (R465): After 100 µs the allocator answers using previous demands for missing packages. -/
  | allocatorWaitExpiry
  /-- GRANT_RECEIVED (R466): A GRANT arrives and is held for the next decision tick. -/
  | grantReceived (watts seq : Nat)
  /-- GRANT_ABSENCE (R466): After three periods without a grant the package applies its floor. -/
  | grantAbsence
  /-- ATTESTATION_REQUEST (R463): A nonce request returns a signed attestation report. -/
  | attestationRequest (vf nonce : Nat)
  /-- PLANEEN_WRITE (R468): A write of enabled planes takes effect at the next switch point. -/
  | planeenWrite (value : Word)
  /-- FABRIC_PORT_FAILURE (R468): A plane's port fails and its outstanding accesses end with data errors. -/
  | fabricPortFailure (port : Nat)
  /-- CORRECTED_ERROR (R469): A correctable error is corrected, written back and logged. -/
  | correctedError (unit kind : Nat) (addr : DWord)
  /-- UNCORRECTABLE_UNCONSUMED (R470): An uncorrectable error with no consumer drops the data and enters a bad line. -/
  | uncorrectableUnconsumed (unit line : Nat)
  /-- LINK_CRC_RETRY (R469): A flit whose CRC fails is retried. -/
  | linkCrcRetry (port : Nat)
  /-- CONFIG_REGISTER_WRITE (R7): A write to a register with no behaviour of its own updates its writable fields. -/
  | configRegisterWrite (reg idx value : Nat)
  /-- ILLEGAL_INSTRUCTION (R179): A word whose major or minor is not assigned raises a precise illegal-instruction fault at issue. -/
  | illegalInstruction
  /-- HOST_ACCESS (R113): The host reads or writes device memory through the host interface as an agent at system scope. -/
  | hostAccess (write host : Bool) (addr : Nat) (data : List Nat)
  /-- PEER_INVALIDATION (R371): An invalidation or take-back from the owning device's directory drops, or writes back, this device's peer copy of a line. -/
  | peerInvalidation (line : Nat)
  /-- EXCHANGE_HALF_ARRIVAL (R289): An XCHG half reaches the exchange unit, where it waits for its partner or faults because its number is dead. -/
  | exchangeHalfArrival (g : Nat)
  /-- FRRPTR_WRITE (R402): Firmware advances a ring's read pointer, freeing slots so that a held fault report or meter record can be written. -/
  | frrptrWrite (ring : Nat) (value : Word)
  /-- KEY_COMMAND_COMPLETE (R419): A key-slot load or erase finishes, clearing KSTAT.BUSY and setting RESULT and LOADED. -/
  | keyCommandComplete
  /-- UPDATE_VERIFY_COMPLETE (R439): Verification of the staged monitor image ends, clearing UPDCTL.BUSY and setting RESULT. -/
  | updateVerifyComplete
  /-- PARTITION_RESET_COMPLETE (R424): The purging and scrubbing stages of a partition reset finish, its contexts become invalid and RST reads 0. -/
  | partitionResetComplete (p : Nat)
  deriving DecidableEq, Repr

end Sys2Proof
end

