-- ==== Sys2Proof/Machine/State.lean ====
section
/-! DEFINITION. The state of the device as plain data: groups, teams, launches, the units beside the cores, contexts
and their energy, partitions and queues, isolation, boot, counters, the fleet interface and memory. The machine right
after reset stands at the end. -/

namespace Sys2Proof.Machine

/-- No meaning answers with a fault: a fault of the device is an exception that the model takes as a next state
(R332, R338). The constructor is kept for a machine that has nothing to stop for (safe: nothing raises it). -/
inductive Fault where
  | unreachable
  deriving DecidableEq, Repr

/-- An instruction whose meaning is not written, named by its mnemonic (safe: the run stops). -/
inductive Refusal where
  /-- Raised by the dispatcher alone. -/
  | notModelled (mnemonic : String)
  deriving DecidableEq, Repr

/-! ### Time -/

/-- The clock domains: the facets of a partition, which all run at one point, and the uncore (R425, R426). -/
inductive Clock where
  | facets (p : Nat)
  | uncore
  deriving DecidableEq, Repr

/-- When a step in flight may be taken: from a tick on, and, where the spec counts a clock's cycles, not before one of them
(R6, R427, R429). -/
structure When where
  tick : Nat
  cyc  : Option (Clock × Nat)
  deriving DecidableEq, Repr

/-! ### Groups -/

/-- A vector register: a 32-bit value per lane, the format tag, the full bit, and the fault of an errored register
(R54, R62, R67, R336). -/
structure VReg where
  lanes : List Word
  tag   : Tag
  full  : Bool
  err   : Option FaultInfo
  deriving DecidableEq, Repr

/-- A scalar register: its value, the full bit, whether an answer is still to come (R318, R382), and the fault of an
errored register (R54, R62, R336). -/
structure SReg where
  val  : Word
  full : Bool
  pend : Bool
  err  : Option FaultInfo
  deriving DecidableEq, Repr

/-- What a blocked path awaits (R42): the members of an instance, a barrier's phase, a condition or a batch. -/
inductive BlockOn where
  | member (pos : Pos)
  | barWait (bar n : Nat)
  | barArr (bar phase : Nat)
  | waitc (op : Nat)
  | batch (n : Nat)
  deriving DecidableEq, Repr

/-- A blocked path: what it awaits and the position after its blocking set (R42, R43). -/
structure Block where
  on    : BlockOn
  after : Pos
  deriving DecidableEq, Repr

/-- The kinds of stack entry (R38). -/
inductive EntryKind where
  | join | path
  deriving DecidableEq, Repr

/-- An entry of the reconvergence stack (R38). `path` names the branches that lead to its path, the outermost first (the
model's own; R115). -/
structure StackEntry where
  kind  : EntryKind
  mask  : Word
  pos   : Pos
  block : Option Block
  path  : List Nat
  deriving DecidableEq, Repr

/-- A held instance of a member-masked word: its word, member mask, the lanes that have arrived, their count, their
source values and index values as read at their arrival (R44 to R46). -/
structure HeldInst where
  pos     : Pos
  mask    : Word
  arrived : Word
  count   : Nat
  vals    : List Word
  aux     : List Word
  deriving DecidableEq, Repr

/-- The per-group control registers 0x008 to 0x010, with HACT beside SYNC (R72, R340). -/
structure Csrs where
  hndLo : Word
  hndHi : Word
  hnden : Word
  sync  : Word
  hact  : Bool
  synaLo : Word
  synaHi : Word
  epcLo : Word
  epcHi : Word
  eword : Nat
  deriving DecidableEq, Repr

/-- A deferred fault held at the core, and whether another of its class was dropped (R337). -/
structure Deferred where
  info : FaultInfo
  ovf  : Bool
  deriving DecidableEq, Repr

/-- A loop buffer that a group holds: its body, the packets kept so far, and whether it is flushed at its next packet
boundary (R222, R328). -/
structure LoopBuf where
  first : DWord
  len   : Nat
  kept  : List (Nat × List Nat)
  flush : Bool
  deriving DecidableEq, Repr

/-- A group: 32 lanes with one program counter (R12, R38, R44, R58, R72, R73). `sigs` holds the folds of a signature that await the group's next
set, each with the em that is folded after it (R451). `path` names the running path as a stack entry does, `drain` the paths that JOINs
reconverged, each with the number of the first later operation, `yielded` the cycle in which the group counts as unable to issue, and `wake` the
first in which its handler may (R115, R117, R329, R342). -/
structure Group where
  team    : Nat
  gnum    : Nat
  facet   : Nat
  cluster : Nat
  core    : Nat
  subc    : Nat
  role    : Nat
  slot    : Nat
  dispTick : Nat
  base    : DWord
  v       : List VReg
  s       : List SReg
  em      : Word
  x       : Word
  pos     : Pos
  stack   : List StackEntry
  icount  : List Nat
  held    : List HeldInst
  xnum    : Nat
  xchg    : Bool
  csr     : Csrs
  deferred : List Deferred
  loopBuf : Option LoopBuf
  block   : Option Block
  clear   : Option Nat
  drain   : List (List Nat × Nat)
  retired : Bool
  stopped : Bool
  yielded : Option Nat
  wake    : Nat
  path    : List Nat
  sig     : Word
  pend    : List Pos
  sigs    : List (Option Word) := []
  deriving DecidableEq, Repr

/-- Words of a set that take effect once the set's memory word has cleared, with the group as it stood before the
set (R32, R332, R333). -/
structure SetRest where
  gid   : Nat
  words : List (Nat × Instr)
  snap  : Group
  start : Pos
  next  : Pos
  deriving DecidableEq, Repr

/-! ### Matrix words -/

/-- The kinds of queued matrix word (R307 to R316). -/
inductive MxKind where
  | zero (td : Nat) (tag : Tag)
  | load (td : Nat) (base : DWord) (pitch : Nat) (tag : Tag)
  | store (ts : Nat) (base : DWord) (pitch : Nat)
  | scale (base : DWord) (mode : Nat)
  | steps (td ta tb ksl aring bring done total : Nat)
  | fence (sd : Nat)
  deriving DecidableEq, Repr

/-- A queued matrix word, the rows it has moved, what it has read, the path that issued it, and whether it awaits a page (R130, R309, R311,
R349). -/
structure MxWord where
  row  : Nat
  buf  : List Word
  id   : Nat
  team : Nat
  gid  : Nat
  pos  : Pos
  pol  : Word
  kind : MxKind
  path : List Nat
  halt : Bool
  deriving DecidableEq, Repr

/-! ### Teams and launches -/

/-- A context record as the front end reads it at dispatch (R408). -/
structure CtxRec where
  ptroot  : Nat
  winbase : Nat
  winlen  : Nat
  pasid   : Nat
  gen     : Nat
  vf      : Nat
  rb      : Nat
  pgpol   : Nat
  valid   : Bool
  lpbase  : Nat
  lpsize  : Nat
  deriving DecidableEq, Repr

/-- The fields of a kernel descriptor (R356). -/
structure Kernel where
  desc     : Nat
  dur      : Nat
  codebase : DWord
  priv     : Nat
  scratch  : Nat
  nodes    : Nat
  segs     : Nat
  args     : Nat
  record   : Nat
  barriers : Nat
  tiles    : Nat
  restart  : Bool
  pair     : Bool
  pgrp     : Nat
  cgrp     : Nat
  pvreg    : Nat
  psreg    : Nat
  cvreg    : Nat
  csreg    : Nat
  chip     : Nat
  cmem     : Nat
  segNames : List (Nat × Bool)
  deriving DecidableEq, Repr

/-- A tile register: the cells that are not 0, by 128 x row + cell, and the tag (R59). -/
structure Tile where
  cells : List (Nat × Word)
  tag   : Tag
  deriving DecidableEq, Repr

/-- Where a team stands in its life (R15, R75, R338, R345 to R348). -/
inductive TeamState where
  | running | faulted | saving | flushing | draining | saved | missed | ended
  deriving DecidableEq, Repr

/-- A team's report to the monitor: the fault, its tick, its boundary, the handler state, its group (R341). -/
structure Report where
  info  : FaultInfo
  bound : Pos
  tick  : Nat
  hact  : Bool
  ovf   : Bool
  gnum  : Nat
  sent  : Bool
  deriving DecidableEq, Repr

/-- What a team's save leaves: where its image lies, what the image's bytes do not hold of the groups in it, and the matrix words that
wait for a page (R76, R349, R350; log entry 33). -/
structure SavedTeam where
  area   : Nat
  groups : List (Nat × Group)
  queue  : List MxWord
  deriving DecidableEq, Repr

/-- A team on a core, or saved, with its context's record as it stands for it; `barWas` holds its barrier words as they were at the end of the
previous cycle (R12, R13, R60, R71, R286, R308, R315, R320,
R294, R346, R408). -/
structure Team where
  ctx     : Nat
  crec    : CtxRec
  part    : Nat
  launch  : Nat
  teamid  : Nat
  cluster : Nat
  core    : Nat
  groups  : List Nat
  kernel  : Kernel
  st      : TeamState
  stopAt  : Option Nat
  reports : List Report
  barOwed : List (Nat × Nat)
  barWas  : List DWord := []
  tiles   : List Tile
  track   : List Tag
  trackMode : Nat
  mode    : Nat
  ascale  : List Byte
  bscale  : List Byte
  tslot   : Nat
  batch   : Nat
  mdead   : Bool
  mstSys  : Bool
  mxFree  : Nat
  attach  : List Nat
  dirty   : Bool
  elapsed : Nat
  since   : Nat
  cmofs   : Option Nat
  chofs   : Option Nat
  lpOff   : Nat
  items   : List Word
  recs    : List (List Word)
  saved   : Option SavedTeam
  node    : Nat
  missSeg : Option Nat
  deriving DecidableEq, Repr

/-- A node of a work graph with its buffer and ring (R394, R397 to R399). A record stands with the context that
emitted it. -/
structure Node where
  kernel  : Kernel
  args    : List Word
  ring    : Nat
  ringCap : Nat
  gcap    : Nat
  timer   : Nat
  active  : Bool
  buf     : List (List Word)
  spill   : List (Nat × List Word)
  head    : Nat
  since   : Option Nat
  formed  : List (List (List Word))
  deriving DecidableEq, Repr

/-- A launch: an accepted grid or graph; `line` names the nodes of its formed teams in the order of formation (R389, R390, R393, R400,
R446, R473). -/
structure Launch where
  part    : Nat
  queue   : Nat
  ctx     : Nat
  prio    : Nat
  order   : Nat
  graph   : Bool
  kernel  : Kernel
  args    : List Word
  teams   : Nat
  next    : Nat
  again   : List Nat
  itemBase : Nat
  itemCnt : Nat
  itemPer : Nat
  compl   : Nat
  irq     : Bool
  nodes   : List Node
  line    : List Nat
  chipSeg : Option Nat
  cmSegs  : List (Nat × Nat)
  replay  : Bool
  ended   : Nat
  pasid   : Nat := 0
  deriving DecidableEq, Repr

/-- Records on their way to the front end, the word that sent them, and the earlier accesses that its release waits for
(R323, R397). -/
structure Emission where
  launch : Nat
  node   : Nat
  ctx    : Nat
  gid    : Nat
  pos    : Pos
  owed   : List Nat
  recs   : List (List Word)
  deriving DecidableEq, Repr

/-! ### Memory words and units -/

/-- Where one lane of a memory word stands. -/
inductive LaneState where
  | formed | cleared | moving | waiting | done | failed
  deriving DecidableEq, Repr

/-- The home unit of an address (R125, R406). -/
inductive Home where
  | scratch (team : Nat)
  | cluster (cl : Nat)
  | slice (n : Nat)
  | host
  | peer (handle : Nat)
  deriving DecidableEq, Repr

/-- One lane of a memory word: its address as formed, its data, its physical place after clearance and its answer. `place`
counts the routers it has passed or the ties it has lost, `since` is the router cycle in which it comes to the next, and `cost`
holds the classes and counts of its service until they are charged (R126, R143, R373, R376). -/
structure LaneReq where
  lane  : Nat
  addr  : DWord
  data  : DWord
  cmp   : Word
  st    : LaneState
  key   : Nat
  home  : Home
  slot  : Option Nat
  res   : DWord
  stat  : Word
  place : Nat
  since : Nat
  cost  : List (Nat × Nat)
  paid  : Bool
  deriving DecidableEq, Repr

/-- The peer whose access an operation is, the partition on whose network it comes, and the virtual function that exported the
place (R370). -/
structure Origin where
  peer : Nat
  part : Nat
  vf   : Nat
  deriving DecidableEq, Repr

/-- An issued memory word (R254, R333). `path` names the path that issued it (R115), `behind` the operations whose invalidations must be
acknowledged before its answer is taken (R135). A peer's access at this device's homes is an
operation of no group (R370). -/
structure MemOp where
  gid   : Nat
  path  : List Nat
  origin : Option Origin
  team  : Nat
  ctx   : Nat
  kind  : MemKind
  unif  : Bool
  dst   : List (RegFile × Nat)
  stat  : Option (RegFile × Nat)
  mask  : Word
  pol   : Word
  pos   : Pos
  start : Pos
  next  : Pos
  lanes : List LaneReq
  cleared : Bool
  undo  : List (RegFile × Nat × Tag)
  fail  : Option FaultInfo
  behind : List Nat := []
  deriving DecidableEq, Repr

/-- A registered range of a core (R128). A region is a space code, or 8 + window handle. -/
structure RangeLock where
  owner  : Nat
  team   : Nat
  region : Nat
  lo     : Nat
  hi     : Nat
  dst    : Bool
  deriving DecidableEq, Repr

/-- A line transfer of a copy: its lowest lane, the lanes whose bytes it carries, and for lanes of 64 bytes and more
which 64 bytes (R380). -/
structure Xfer where
  lane  : Nat
  lanes : List Nat
  chunk : Nat
  deriving DecidableEq, Repr

/-- How a copy publishes its completion (R304). -/
inductive CopyDone where
  | token (v : Nat) (mask : Word)
  | bar (b : Nat)
  | ctr (addr : DWord)
  deriving DecidableEq, Repr

/-- A copy in flight; `path` names the path that issued it, one that is halted awaits a page, and `late` counts the bytes whose landing
awaits acknowledgements (R122, R130, R300 to R305, R349). -/
structure Copy where
  gid   : Nat
  team  : Nat
  ctx   : Nat
  core  : Nat
  pol   : Word
  pos   : Pos
  size  : Nat
  scope : Nat
  ends  : List (Nat × DWord × DWord)
  xfers : List Xfer
  done  : CopyDone
  path  : List Nat
  halt  : Bool
  late  : Nat
  deriving DecidableEq, Repr

/-- An engine word that waits for entries of the range-lock table or a copy slot: its group, and what it needs (R128, R303). -/
structure Waiter where
  gid     : Nat
  entries : Nat
  slot    : Bool
  deriving DecidableEq, Repr

/-- A core: its range-lock table, the engine words that wait, the first cycle in which its copy coalescer is free, the item queue, and the
group of each sub-core that issued last (R34, R47, R128, R303, R380). -/
structure CoreSt where
  last    : List (Nat × Nat)
  ranges : List RangeLock
  waiters : List Waiter
  xferAt : Nat
  items  : List (Nat × Word)
  deriving DecidableEq, Repr

/-- The power states of CPWR (R431). -/
inductive PowerState where
  | on | quiescing | draining | savingRetention | clockGated | railGated | waking
  deriving DecidableEq, Repr

/-- A cluster: the matrix queue, the last team slots served, its power register, and for how long it has been gated in this correction
interval (R307, R379, R431, R432). -/
structure ClusterSt where
  queue    : List MxWord
  lastStep : Nat
  lastPort : Nat
  stepFree : Nat
  power    : PowerState
  busy     : Bool
  ret      : Bool
  gate     : Bool
  wake     : Bool
  offTicks : Nat
  offSince : Option Nat
  deriving DecidableEq, Repr

/-- The states of a segment that exists; a deleted one has no entry (R363). -/
inductive SegState where
  | resident | evicting | mirrored | restoring
  deriving DecidableEq, Repr

/-- A segment entry, named or of a launch (R319 to R322, R363 to R365, R473). -/
structure Seg where
  part    : Nat
  vf      : Nat
  ctx     : Nat
  name    : Option Nat
  launch  : Option Nat
  chip    : Bool
  units   : Nat
  st      : SegState
  cluster : Nat
  off     : Nat
  mirror  : Nat
  attached : List Nat
  reserved : Bool
  detach  : Nat
  waiters : List Nat
  zeroing : Option (Nat × Nat)
  cause   : Nat
  deriving DecidableEq, Repr

/-- The words of the segment unit besides SEGATT (R318). -/
inductive SegOp where
  | del | det
  | crt (chip : Bool)
  | qry
  deriving DecidableEq, Repr

/-- A request to the segment unit: its group and team, the word, the name, size and scalar that it names, and the router cycle in which it
arrives (R318, R363). -/
structure SegReq where
  gid   : Nat
  team  : Nat
  op    : SegOp
  name  : Nat
  units : Nat
  dst   : Nat
  pos   : Pos
  at'   : Nat
  deriving DecidableEq, Repr

/-- The eviction classes of a line (R111). -/
inductive EvClass where
  | stream | normal | keep
  deriving DecidableEq, Repr

/-- Whose a line of the L2 is: this device's, or a peer's in state S or M (R371). -/
inductive LineOf where
  | home | shared | owned
  deriving DecidableEq, Repr

/-- A line present in an L2 slice: its class, the context that dirtied it, the key slot of its fill, the number of its last use,
whose it is, and the 64 bytes that HBM4 holds below it (R112, R144, R371, R418, R424). -/
structure Line where
  cls   : EvClass
  dirty : Option Nat
  slot  : Option Nat
  used  : Nat
  whose : LineOf
  below : Nat
  deriving DecidableEq, Repr

/-- The states of a directory entry; no entry is state I (R371). -/
inductive DirState where
  | shared | broadcast | modified
  deriving DecidableEq, Repr

/-- The directory entry of a line: its state, the peers recorded, the virtual function that exported it, the peers that have
presented a key of that function since the entry was made, and the key slot under which they reach it (R371, R417). -/
structure DirEntry where
  st   : DirState
  ids  : List Nat
  vf   : Nat
  seen : List Nat
  slot : Option Nat := none
  deriving DecidableEq, Repr

/-- A condition-monitor entry: of a lane of a WAITC, or of a queue's wait packet (R273, R392). -/
structure MonEntry where
  key  : Nat
  op   : Nat
  lane : Nat
  queue : Option Nat
  deriving DecidableEq, Repr

/-- A word held in a reflector slot, from its arrival cycle through another (R376). -/
structure RefEntry where
  place : Nat
  port  : Nat
  op    : Nat
  lane  : Nat
  cyc   : Nat
  until' : Nat
  deriving DecidableEq, Repr

/-- What a slice answers to a line request: the line's 64 bytes, the key slot that the line records, and whether the line is bad (R374, R418,
R470). -/
structure LineAns where
  val  : Nat
  slot : Option Nat
  bad  : Bool
  deriving DecidableEq, Repr

/-- A merge entry of a router, or of a slice's pending-read table (places from 128): its line, network, opener first among
its tags, each an operation and lane, and the slice's answer once it has served them (R373, R374). -/
structure MergeEntry where
  id    : Nat
  place : Nat
  line  : Nat
  net   : Nat
  tags  : List (Nat × Nat)
  val   : Option LineAns
  deriving DecidableEq, Repr

/-- A half waiting at an exchange unit: its group and that group's seat, its number, the ticks it has waited, and since when they
count (R287 to R289). -/
structure Half where
  gid  : Nat
  seat : Nat
  num  : Nat
  mask : Word
  vals : List Word
  tick : Nat
  since : Option Nat
  deriving DecidableEq, Repr

/-- A line lock (R275). -/
structure Lock where
  ctx   : Nat
  vf    : Nat
  slice : Nat
  deriving DecidableEq, Repr

/-! ### Contexts, partitions and queues -/

/-- A charge on its way to the home unit: the home cycle in which it lands, its units, whether it is a correction, and, where it counts as
energy, whether a team of a replay grid made it: corrections, write-backs and capture traffic count as nothing (R149, R161, R441, R442,
R447). -/
structure Landing where
  cyc   : Nat
  units : Int
  corr  : Bool
  ev    : Option Bool
  deriving DecidableEq, Repr

/-- A hardware context: its record, joule account, energy bucket and fairness (R138, R148, R154, R165, R402). All
energies are in units of 2^-8 pJ but CAP, REFILL and RESUME, which are in pJ. `flushed` names its flushed teams, the latest first, by
launch and team or node (R347). `held` lists the facets in which a Stop
has taken effect, with the cycle in which it did (R150), and `asks` the requests on their way to the home unit, each with the home cycle
that serves it and what then stands (R327, R428). -/
structure Ctx where
  part    : Nat
  vf      : Nat
  live    : Bool
  crec    : CtxRec
  acct    : Nat
  level   : Int
  cap     : Nat
  refill  : Nat
  resume  : Int
  enf     : Bool
  stopd   : Bool
  held    : List (Nat × Nat)
  oprt    : Bool
  opmin   : Nat
  opmax   : Nat
  share   : Nat
  hold    : Nat
  fair    : Nat
  passed  : Nat
  writes  : List (Nat × Nat)
  passes  : Nat
  arriving : List Landing
  request : Option Nat
  asks    : List (Nat × Option Nat)
  charged : List (Nat × Nat)
  gticks  : List (Nat × Nat)
  corr    : Int
  seen    : Nat
  seenCorr : Int
  ready   : Bool
  sent    : Bool
  spcnt   : Nat
  spq     : Nat
  tdown   : Bool
  verified : List Nat
  flushed : List (Nat × Nat)
  deriving DecidableEq, Repr

/-- A ring of records in memory (R402, R460, R471). -/
structure Ring where
  base : Nat
  log2 : Nat
  wptr : Nat
  rptr : Nat
  deriving DecidableEq, Repr

/-- The replay unit (R444 to R455); `next` is the pass that a reset leads to. -/
structure Replay where
  arm     : Bool
  npass   : Nat
  retry   : Nat
  queue   : Nat
  areapg  : Nat
  area    : Nat
  sel     : List Nat
  cnt     : List (Nat × Nat)
  sig     : List (Nat × Nat)
  state   : Nat
  pass    : Nat
  result  : Nat
  unsafeW : Bool
  preempt : Nat
  mismatch : Nat
  pages   : List Nat
  copying : List Nat
  full    : Bool
  grid    : Nat
  runs    : Nat
  launch  : Nat
  next    : Nat := 0
  deriving DecidableEq, Repr

/-- A TLB entry: of the L1 TLB of cluster `place`, or from 128 on of a facet's L2 TLB; `host` numbers the state of the host's translations in
which ATS answered for it (R411, R415). -/
structure TlbEntry where
  part  : Nat
  pasid : Nat
  gen   : Nat
  page  : Nat
  size  : Nat
  pte   : Nat
  place : Nat := 0
  host  : Nat := 0
  deriving DecidableEq, Repr

/-- A partition: its control register and the registers of its units (R156, R346, R387, R401, R402, R407, R413,
R441). `cyc` counts its cycles up to the latest switch point (R427). -/
structure Part where
  keygrant : Nat
  ctxtab  : Nat
  vfs     : Nat
  xto     : Nat
  facets  : Nat
  opdef   : Nat
  rst     : Nat
  qtab    : Nat
  fb      : Nat
  point   : Nat
  cyc     : Nat
  next    : Option Nat
  slots   : List Nat
  pending : List Nat
  ring    : Ring
  pfhold  : Nat
  dispatched : List Nat
  pmc     : List DWord
  pmsel   : List Word
  /-- What each counter has added in a router cycle, and the selectors in effect through the cycle of a write (R443). -/
  landed  : Option (Nat × List Nat)
  selWas  : Option (Nat × List Word)
  replay  : Replay
  invBusy : Bool
  invOp   : Nat
  invPasid : Nat
  invVf   : Nat
  invPages : Nat
  invVa   : Nat
  invFrom : Nat
  idle    : Int
  seenIdle : Int
  opSince : Nat
  points  : List Nat
  lowered : Bool
  optime  : List Nat
  capped  : Bool
  replayed : Bool
  drift   : Bool
  /-- The first tick in which the overflow engine may move its next line (R399). -/
  refilled : Nat := 0
  /-- The thread of the firmware processor that issued last (R401). -/
  thread  : Nat := 31
  deriving DecidableEq, Repr

/-- A wait packet that has been registered (R392). -/
structure Wait where
  sig     : Nat
  value   : Nat
  cc      : Nat
  irq     : Bool
  expires : Option Nat
  met     : Bool
  deriving DecidableEq, Repr

/-- A queue descriptor (R387). -/
structure Queue where
  ring    : Nat
  rptr    : Nat
  wptr    : Nat
  pasid   : Nat
  gen     : Nat
  ctx     : Nat
  vf      : Nat
  log2    : Nat
  prio    : Nat
  st      : Nat
  err     : Nat
  wait    : Option Wait
  deriving DecidableEq, Repr

/-! ### Isolation, boot and the fleet -/

/-- An access-table entry (R416). -/
structure AccEntry where
  lim : Nat
  base : Nat
  a : Bool
  w : Bool
  r : Bool
  v : Bool
  deriving DecidableEq, Repr

/-- A request that an aperture defers, by operation and lane, or a write-back, with the units that it still needs (R158). -/
structure Deferral where
  req  : Option (Nat × Nat)
  need : Nat
  deriving DecidableEq, Repr

/-- An aperture register, the value written for the next period, its counter and what is deferred (R158, R423). -/
structure Aperture where
  lkq  : Nat
  aper : Nat
  next : Option (Nat × Nat)
  left : Nat
  deferred : List Deferral
  deriving DecidableEq, Repr

/-- An export-table entry (R370). -/
structure Export where
  valid : Bool
  key : Nat
  lo  : Nat
  hi  : Nat
  at' : Bool
  wr  : Bool
  rd  : Bool
  deriving DecidableEq, Repr

/-- The key-slot interface (R417, R419). A loaded slot holds its 64 bytes. -/
structure Keys where
  slots  : List (Nat × List Nat)
  kdata  : List Nat
  busy   : Bool
  slot   : Nat
  op     : Nat
  loaded : Bool
  result : Nat
  deriving DecidableEq, Repr

/-- Boot and update registers, and the image layouts in the running monitor's compatibility table (R350, R430, R434 to R440). -/
structure Boot where
  released : Bool
  locked   : Bool
  minimal  : Bool
  failcnt  : Nat
  reason   : Nat
  stage    : Nat
  monver   : Nat
  layouts  : List Nat
  bootok   : Bool
  bootno   : Nat
  xlat     : List Nat
  updStage : Nat
  updBusy  : Bool
  updResult : Nat
  updBlocker : Nat
  updAct   : Bool
  updVer   : Bool
  switchTo : Option Nat
  pins : List (Nat × Nat)
  savesHeld : Bool
  deriving DecidableEq, Repr

/-- A meter record that waits for a slot of its ring (R458, R460). -/
structure MeterRec where
  vf : Nat
  part : Nat
  seq : Nat
  tstart : Nat
  ticks : Nat
  charged : Nat
  corr : Int
  total : Int
  peer : Nat
  optime : List Nat
  flags : Nat
  merged : Bool
  deriving DecidableEq, Repr

/-- Metering, signing, caps, planes and the error log: a held record stands with its ring, 64 for the physical function's, and `leaving`
are the virtual functions that have left their partition since the last export (R456 to R471). `gone` and `goneTicks` are the units and
group-ticks of this correction interval, by domain, of contexts that exist no more (R160, R161). -/
structure Fleet where
  expt     : Nat
  exptNext : Option Nat
  lastExport : Nat
  seq      : Nat
  meter    : Ring
  vfMeters : List (Nat × Ring)
  held     : List (Nat × MeterRec)
  totals   : List (Nat × Int)
  finals   : List (Nat × Nat × Int)
  leaving  : List (Nat × Nat)
  epoch    : Nat
  mkey     : Nat
  leaf     : Nat
  certs    : List (Nat × Nat × Nat)
  rootLeaf : Nat
  epochLeaf : Nat
  demandSeq : Nat
  demands  : List (Nat × Nat)
  prev     : List (Nat × Nat)
  floors   : List (Nat × Nat)
  capC     : Nat
  grants   : List (Nat × Nat)
  grant    : Option Nat
  missed   : Nat
  floorFlag : Bool
  refillScale : Option Nat
  planeen  : Nat
  planeNext : Option Nat
  down     : List Nat
  retries  : List (Nat × Nat)
  errors   : Ring
  errHeld  : List Nat
  badLines : List (Nat × Nat)
  idle     : Int
  seenIdle : Int
  peerAcct : List (Nat × Nat)
  seenPeer : List (Nat × Nat)
  reports  : List (List Byte)
  flits    : List (Nat × Nat)
  gone     : List (Nat × Nat)
  goneTicks : List (Nat × Nat)
  deriving DecidableEq, Repr

/-- What is reported to the monitor besides records in rings: a kind and a number. -/
inductive MonKind where
  | configError | sensorDrift | noRoom | imageRefused | saveLate | tornDown | gatedBinding | partitionBad | launchRefused
  deriving DecidableEq, Repr

/-- What became of the last word or step (the model's own; R30, R31): `late` is a fault that is judged only when every word of
the set can issue (R64, R178). -/
inductive Verdict where
  | issued | transferred | blocked | held | trapped | late
  deriving DecidableEq, Repr

/-- What the execution of a word is to do: all of it, the checks alone, the checks and the charges, or the effect alone
(R30, R31, R333). -/
inductive Phase where
  | whole | probe | charge | effect
  deriving DecidableEq, Repr

/-- The set being issued: the group before it, its start, the word's index, the fall-through and the phase (R32, R171). The
snapshot stands only while a set's words take effect. -/
structure IssueCtx where
  snap  : Option Group
  w     : Nat
  next  : Pos
  phase : Phase
  deriving DecidableEq, Repr

/-- The whole device. -/
structure State where
  /-- The global tick counter (R472). -/
  now     : Nat
  /-- How many cycles of a clock that starts two in this tick are past, and the first sub-core whose turn in this cycle is still to
  come (the model's own; R34, R427). -/
  round   : Nat
  turn    : Nat
  /-- The steps in flight: from when each may be taken, and the step (the model's own). -/
  agenda  : List (When × Ev)
  /-- A counter that numbers operations and free values (the model's own). -/
  ticket  : Nat
  /-- A counter of the changes that the host makes to its translations (the model's own). -/
  hosted  : Nat
  /-- The group whose word executes (the model's own). -/
  cur     : Nat
  verdict : Verdict
  issue   : IssueCtx
  /-- The operation whose set's other words take effect next (the model's own; R31, R333). -/
  rest    : Option Nat
  groups  : List (Nat × Group)
  /-- The other words of the sets whose memory words await clearance, by operation (the model's own). -/
  snaps   : List (Nat × SetRest)
  teams   : List (Nat × Team)
  launches : List (Nat × Launch)
  emissions : List (Nat × Emission)
  ops     : List (Nat × MemOp)
  copies  : List (Nat × Copy)
  cores   : List (Nat × CoreSt)
  clusters : List (Nat × ClusterSt)
  segs    : List (Nat × Seg)
  /-- The requests on their way to the segment unit (R363), and the save bandwidths of facets that have been written (R346). -/
  segReqs : List (Nat × SegReq)
  savebws : List (Nat × Nat)
  l2      : List (Nat × Line)
  /-- The key pair that a line of HBM4 is stored under, where it is encrypted (R417). -/
  crypt   : List (Nat × List Nat)
  dir     : List (Nat × DirEntry)
  /-- The stores whose invalidations of peer copies are not yet acknowledged, with their groups (R122). -/
  invals  : List (Nat × Nat)
  mons    : List MonEntry
  refl    : List RefEntry
  merges  : List MergeEntry
  /-- The network that each router's output arbiter served last (R421). -/
  arb     : List (Nat × Nat)
  halves  : List Half
  deadNums : List (Nat × Nat)
  locks   : List (Nat × Lock)
  ctxs    : List (Nat × Ctx)
  parts   : List (Nat × Part)
  queues  : List (Nat × Queue)
  tlb     : List TlbEntry
  icache  : List (Nat × List Nat)
  gens    : List (Nat × Nat)
  access  : List (Nat × AccEntry)
  apers   : List (Nat × Aperture)
  exports : List (Nat × List Export)
  keys    : Keys
  boot    : Boot
  fleet   : Fleet
  weights : List Nat
  scale   : List Nat
  msix    : List (Nat × Nat)
  monlog  : List (MonKind × Nat)
  mem     : Memory
  deriving DecidableEq, Repr

/-! ### Reset -/

/-- A vector register that nothing has written (R57). -/
def VReg.zero : VReg := { lanes := [], tag := .raw, full := true, err := none }

/-- A scalar register that nothing has written (R57). -/
def SReg.zero : SReg := { val := 0, full := true, pend := false, err := none }

/-- The control registers at dispatch (R58). -/
def Csrs.zero : Csrs :=
  { hndLo := 0, hndHi := 0, hnden := 0, sync := 0, hact := false, synaLo := 0, synaHi := 0, epcLo := 0, epcHi := 0,
    eword := 0 }

/-- A group before any dispatch, the answer for a group that is not resident: it holds no register. -/
def Group.zero : Group :=
  { team := 0, gnum := 0, facet := 0, cluster := 0, core := 0, subc := 0, role := 0, slot := 0, dispTick := 0,
    base := 0, v := [], s := [], em := 0, x := 0, pos := { pa := 0, w := 0 }, stack := [], icount := [], held := [],
    xnum := 0, xchg := false, csr := Csrs.zero, deferred := [], loopBuf := Option.none, block := Option.none,
    clear := Option.none, drain := [], retired := true, stopped := false, yielded := Option.none, wake := 0,
    path := [], sig := 0, pend := [] }

/-- A descriptor of zeros (R356). -/
def Kernel.zero : Kernel :=
  { desc := 0, dur := 0, codebase := 0, priv := 0, scratch := 0, nodes := 0, segs := 0, args := 0, record := 0,
    barriers := 0, tiles := 0, restart := false, pair := false, pgrp := 0, cgrp := 0, pvreg := 0, psreg := 0,
    cvreg := 0, csreg := 0, chip := 0, cmem := 0, segNames := [] }

/-- A context record of zeros (R408). -/
def CtxRec.zero : CtxRec :=
  { ptroot := 0, winbase := 0, winlen := 0, pasid := 0, gen := 0, vf := 0, rb := 0, pgpol := 0, valid := false,
    lpbase := 0, lpsize := 0 }

/-- The answer for a team that does not exist. -/
def Team.zero : Team :=
  { ctx := 0, crec := CtxRec.zero, part := 0, launch := 0, teamid := 0, cluster := 0, core := 0, groups := [], kernel := Kernel.zero,
    st := .ended, stopAt := Option.none, reports := [], barOwed := [], tiles := [], track := [],
    trackMode := 0, mode := 0, ascale := [], bscale := [], tslot := 0, batch := 0, mdead := false, mstSys := false, mxFree := 0, attach := [],
    dirty := false, elapsed := 0, since := 0, cmofs := Option.none, chofs := Option.none,
    lpOff := 0, items := [], recs := [], saved := Option.none, node := 0,
    missSeg := Option.none }

/-- A context as it is created: an unprogrammed bucket and the reset values of its energy record (R138, R148,
R165). -/
def Ctx.zero : Ctx :=
  { part := 0, vf := 0, live := false, crec := CtxRec.zero, acct := 0, level := 0, cap := 0, refill := 0, resume := 0,
    enf := true, stopd := false, held := [], oprt := false, opmin := 0, opmax := 15, share := 256, hold := 8,
    fair := 0, passed := 0, writes := [], passes := 0, arriving := [], request := Option.none, asks := [], charged := [],
    gticks := [], corr := 0, seen := 0, seenCorr := 0, ready := false, sent := false, spcnt := 0, spq := 0,
    tdown := false, verified := [], flushed := [] }

def Ring.zero : Ring := { base := 0, log2 := 0, wptr := 0, rptr := 0 }

/-- The replay unit at reset (R444, R445, R455). -/
def Replay.zero : Replay :=
  { arm := false, npass := 0, retry := 0, queue := 0, areapg := 0, area := 0, sel := [], cnt := [], sig := [],
    state := 0, pass := 0, result := 0, unsafeW := false, preempt := 0, mismatch := 0, pages := [], copying := [], full := false,
    grid := 0, runs := 0, launch := 0 }

/-- A partition at reset: XTO 1,048,576, FB 16, PFHOLD 262,144, the rest 0 (R156, R289, R346, R349,
R407). -/
def Part.zero : Part :=
  { keygrant := 0, ctxtab := 0, vfs := 0, xto := 1048576, facets := 0, opdef := 0, rst := 0, qtab := 0, fb := 16,
    point := 0, cyc := 0, next := Option.none, slots := [], pending := [], ring := Ring.zero, pfhold := 262144,
    dispatched := [], pmc := [], pmsel := [], landed := Option.none, selWas := Option.none, replay := Replay.zero, invBusy := false, invOp := 0, invPasid := 0,
    invVf := 0, invPages := 0, invVa := 0, invFrom := 0, idle := 0, seenIdle := 0, opSince := 0, points := [], lowered := false, optime := [], capped := false,
    replayed := false, drift := false }

/-- A queue descriptor at reset (R387). -/
def Queue.zero : Queue :=
  { ring := 0, rptr := 0, wptr := 0, pasid := 0, gen := 0, ctx := 0, vf := 0, log2 := 0, prio := 0, st := 0,
    err := 0, wait := Option.none }

/-- An empty core and a cluster that is on (R431). -/
def CoreSt.zero : CoreSt := { last := [], ranges := [], waiters := [], xferAt := 0, items := [] }

def ClusterSt.zero : ClusterSt :=
  { queue := [], lastStep := 15, lastPort := 15, stepFree := 0, power := .on, busy := false, ret := false, gate := false,
    wake := false, offTicks := 0, offSince := Option.none }

/-- An aperture register at reset (R423) and an access-table entry at reset (R416). -/
def Aperture.zero : Aperture := { lkq := 0, aper := 0, next := Option.none, left := 0, deferred := [] }

def AccEntry.zero : AccEntry := { lim := 0, base := 0, a := false, w := false, r := false, v := false }

/-- The key interface at reset (R419). -/
def Keys.zero : Keys := { slots := [], kdata := [], busy := false, slot := 0, op := 0, loaded := false, result := 0 }

/-- The boot registers at reset (R437, R439). -/
def Boot.zero : Boot :=
  { released := false, locked := false, minimal := false, failcnt := 0, reason := 0, stage := 0, monver := 0, layouts := [],
    bootok := false, bootno := 0, xlat := [], updStage := 0, updBusy := false, updResult := 0, updBlocker := 0,
    updAct := false, updVer := false, switchTo := Option.none, pins := [], savesHeld := false }

/-- The fleet registers at reset (R456, R468; DESIGN CHOICE for PLANEEN, log entry 2). -/
def Fleet.zero : Fleet :=
  { expt := 10000000, exptNext := Option.none, lastExport := 0, seq := 0, meter := Ring.zero, vfMeters := [], held := [], totals := [], finals := [], leaving := [],
    epoch := 0, mkey := 0, leaf := 0, certs := [], rootLeaf := 0, epochLeaf := 0, demandSeq := 0,
    demands := [], prev := [], floors := [], capC := 0, grants := [], grant := Option.none, missed := 0,
    floorFlag := false, refillScale := Option.none, planeen := 4294967295, planeNext := Option.none, down := [],
    retries := [], errors := Ring.zero, errHeld := [], badLines := [], idle := 0, seenIdle := 0, peerAcct := [], seenPeer := [],
    reports := [], flits := [], gone := [], goneTicks := [] }

/-- The machine in the tick of the release from reset (R472): nothing is partitioned, mapped or resident, and the
first step in flight is the boot ROM's (R434). -/
def State.reset : State :=
  { now := 0, round := 0, turn := 0, agenda := [({ tick := 0, cyc := Option.none }, .resetRelease)], ticket := 0, hosted := 0, cur := 0, verdict := .issued,
    issue := { snap := Option.none, w := 0, next := { pa := 0, w := 0 }, phase := .whole }, rest := Option.none,
    groups := [], snaps := [], teams := [], launches := [], emissions := [], ops := [], copies := [], cores := [],
    clusters := [], segs := [], segReqs := [], savebws := [], l2 := [], crypt := [], dir := [], invals := [], mons := [], refl := [], merges := [], arb := [], halves := [],
    deadNums := [], locks := [], ctxs := [], parts := [], queues := [], tlb := [], icache := [], gens := [],
    access := [], apers := [], exports := [], keys := Keys.zero, boot := Boot.zero, fleet := Fleet.zero,
    weights := Config.weights, scale := Config.scale, msix := [], monlog := [], mem := [] }

end Sys2Proof.Machine
end

