-- ==== Sys2Proof/Machine/Ops.lean ====
section
/-! DEFINITION. The operations every step is built from: reading and writing groups, teams and registers; charging and
counting; taking an exception, entering a handler and returning from it; and the issue of one word with its checks
(R30 to R32, R35, R141, R178, R332 to R344). -/

namespace Sys2Proof.Machine

/-! ### Groups, teams, contexts, partitions -/

def State.grp (s : State) (i : Nat) : Group := SMap.getD s.groups i Group.zero
def State.setGrp (s : State) (i : Nat) (g : Group) : State := { s with groups := SMap.set s.groups i g }
def State.modGrp (s : State) (i : Nat) (f : Group → Group) : State := { s with groups := SMap.modify s.groups i f }

/-- The group whose word executes. -/
def State.g (s : State) : Group := s.grp s.cur
def State.setG (s : State) (g : Group) : State := s.setGrp s.cur g
def State.modG (s : State) (f : Group → Group) : State := s.setG (f s.g)

/-- The group as it stood before the set: what every word of the set reads (R32). -/
def State.src (s : State) : Group := s.issue.snap.getD s.g

def State.team (s : State) (t : Nat) : Team := SMap.getD s.teams t Team.zero
def State.setTeam (s : State) (t : Nat) (x : Team) : State := { s with teams := SMap.set s.teams t x }
def State.modTeam (s : State) (t : Nat) (f : Team → Team) : State := { s with teams := SMap.modify s.teams t f }
def State.myTeam (s : State) : Team := s.team s.g.team
def State.ctx (s : State) (c : Nat) : Ctx := SMap.getD s.ctxs c Ctx.zero
def State.modCtx (s : State) (c : Nat) (f : Ctx → Ctx) : State := { s with ctxs := SMap.modify s.ctxs c f }
def State.part (s : State) (p : Nat) : Part := SMap.getD s.parts p Part.zero
def State.modPart (s : State) (p : Nat) (f : Part → Part) : State := { s with parts := SMap.modify s.parts p f }
def State.launch (s : State) (l : Nat) : Option Launch := SMap.find s.launches l
def State.modLaunch (s : State) (l : Nat) (f : Launch → Launch) : State :=
  { s with launches := SMap.modify s.launches l f }
def State.core (s : State) (k : Nat) : CoreSt := SMap.getD s.cores k CoreSt.zero
def State.setCore (s : State) (k : Nat) (c : CoreSt) : State := { s with cores := SMap.set s.cores k c }
def State.cluster (s : State) (k : Nat) : ClusterSt := SMap.getD s.clusters k ClusterSt.zero
def State.setCluster (s : State) (k : Nat) (c : ClusterSt) : State := { s with clusters := SMap.set s.clusters k c }

/-- The state with a verdict on the step (R30, R31). -/
def State.verd (s : State) (v : Verdict) : State := { s with verdict := v }

/-- A step posted `dt` ticks from now. -/
def State.post (s : State) (dt : Nat) (i : Ev) : State :=
  { s with agenda := s.agenda ++ [({ tick := s.now + dt, cyc := none }, i)] }

/-- The agenda without the steps that a test names. -/
def State.unpost (p : Ev → Bool) (s : State) : State := { s with agenda := s.agenda.filter (fun x => !p x.2) }

/-- Whether a step stands in the agenda. -/
def State.awaits (s : State) (i : Ev) : Bool := s.agenda.any (fun x => x.2 == i)

/-- A fresh number for an operation or a free value. -/
def State.tick (s : State) : State := { s with ticket := s.ticket + 1 }

/-- The core of a group, numbered over the device: 12 cores to a cluster (R73). -/
def Group.coreId (g : Group) : Nat := 12 * g.cluster + g.core
def Team.coreId (t : Team) : Nat := 12 * t.cluster + t.core

/-! ### Clocks (R6, R425 to R429) -/

/-- The frequency of a point, in units of 10 MHz (R425). -/
def freqOf (p : Nat) : Nat := 60 + 9 * p

/-- The frequency of a clock, in units of 10 MHz (R425, R426). -/
def State.freq (s : State) : Clock → Nat
  | .facets p => freqOf (s.part p).point
  | .uncore => 160

/-- The cycles at a frequency that start in the first `d` ticks from a switch point on (R427). -/
def startsIn (f d : Nat) : Nat := (d * f + 99) / 100

/-- The ticks since the latest switch point (R427). -/
def State.sinceSwitch (s : State) : Nat := s.now % Config.switchGap

/-- The cycles of a clock up to the latest switch point (R427). -/
def State.cyc0 (s : State) : Clock → Nat
  | .facets p => (match SMap.find s.parts p with
    | some x => x.cyc
    | none => s.now / Config.switchGap * startsIn (freqOf 0) Config.switchGap)
  | .uncore => s.now / Config.switchGap * startsIn 160 Config.switchGap

/-- How many cycles of a clock start in this tick: none, one or two (R427). -/
def State.starts (s : State) (k : Clock) : Nat :=
  startsIn (s.freq k) (s.sinceSwitch + 1) - startsIn (s.freq k) s.sinceSwitch

/-- The cycle that a clock is in (R427). -/
def State.cycle (s : State) (k : Clock) : Nat :=
  s.cyc0 k + min (startsIn (s.freq k) s.sinceSwitch + s.round) (startsIn (s.freq k) (s.sinceSwitch + 1) - 1)

/-- The tick in which a cycle starts at the frequency in force (R427). -/
def State.tickOf (s : State) (k : Clock) (n : Nat) : Nat := s.now - s.sinceSwitch + (n - s.cyc0 k) * 100 / s.freq k

/-- The first cycle at or after the tick `dt` ticks on, which is no later than the next switch point (R427). -/
def State.cycleFrom (s : State) (k : Clock) (dt : Nat) : Nat := s.cyc0 k + startsIn (s.freq k) (s.sinceSwitch + dt)

/-- A step posted for a cycle of a clock. -/
def State.postAt (s : State) (k : Clock) (n : Nat) (i : Ev) : State :=
  { s with agenda := s.agenda ++ [({ tick := s.tickOf k n, cyc := some (k, n) }, i)] }

/-- The home facet of a partition: its lowest (R148). -/
def Part.home (p : Part) : Nat := ((List.range 16).find? p.facets.testBit).getD 0

/-- The entry of a crossing class at a point in XLAT: 0 facet to facet, 1 facet to uncore, 2 uncore to facet (R429, R430). -/
def State.xlatOf (s : State) (cls point : Nat) : Nat := s.boot.xlat.getD (16 * cls + point) 0

/-- The crossing latency X between a facet of a partition and its home facet (R149, R429). -/
def State.cross (s : State) (p f : Nat) : Nat := if f = (s.part p).home then 0 else s.xlatOf 0 (s.part p).point

/-- The home cycle in which what a facet makes in its present cycle arrives at the home unit (R149). -/
def State.homeCycle (s : State) (p f : Nat) : Nat := s.cycle (.facets p) + s.cross p f + 6

/-- The base key of a team's scratchpad, of a cluster's memory and of a facet's chip scratchpad (R105, R368). -/
def scratchKey (t : Nat) : Nat := 73786976294838206464 + t * 1048576
def clusterKey (cl : Nat) : Nat := 36893488147419103232 + cl * 8388608
def chipKey (f : Nat) : Nat := 18446744073709551616 + f * 16777216
def hostKey : Nat := 147573952589676412928
def peerKey : Nat := 295147905179352825856

/-! ### Registers -/

def Group.vReg (g : Group) (n : Nat) : VReg := g.v.getD n VReg.zero
def Group.sReg (g : Group) (n : Nat) : SReg := g.s.getD n SReg.zero

/-- Lane `i` of a vector register, and of a pair (R54, R56). -/
def Group.vLane (g : Group) (n i : Nat) : Word := (g.vReg n).lanes.getD i 0
def Group.vPair (g : Group) (n i : Nat) : DWord := pair64 (g.vLane n i) (g.vLane (n + 1) i)

/-- A scalar register, and a pair (R54, R56). -/
def Group.sVal (g : Group) (n : Nat) : Word := (g.sReg n).val
def Group.sPair (g : Group) (n : Nat) : DWord := pair64 (g.sVal n) (g.sVal (n + 1))

/-- A lane is active when em holds its bit (R12). -/
def Group.active (g : Group) (i : Nat) : Bool := bitOf g.em i

def Group.setVReg (g : Group) (n : Nat) (r : VReg) : Group := { g with v := g.v.set n r }
def Group.setSReg (g : Group) (n : Nat) (r : SReg) : Group := { g with s := g.s.set n r }

/-- A scalar register holding a value, full (R62). -/
def SReg.of (x : Word) : SReg := { val := x, full := true, pend := false, err := none }

/-- The group after a scalar register, or a pair, is written (R54, R56, R62). -/
def Group.wrS (g : Group) (d : Nat) (x : Word) : Group := g.setSReg d (SReg.of x)
def Group.wrSPair (g : Group) (d : Nat) (x : DWord) : Group := (g.wrS d (lo32 x)).wrS (d + 1) (hi32 x)

/-- The lanes of a register after the lanes of a mask are written (R55). -/
def mergeLanes (m : Word) (f : Nat → Word) (old : List Word) : List Word :=
  laneIds.map (fun i => if bitOf m i then f i else old.getD i 0)

/-- The group after the lanes of a mask are written in a vector register, with its tag and full bit (R55, R62, R67). -/
def Group.wrV (g : Group) (d : Nat) (t : Tag) (m : Word) (f : Nat → Word) : Group :=
  g.setVReg d { lanes := mergeLanes m f (g.vReg d).lanes, tag := t, full := true, err := none }

/-- The group after a vector register is marked empty with the tag it will hold (R62, R68). -/
def Group.emptyV (g : Group) (d : Nat) (t : Tag) : Group :=
  g.setVReg d { (g.vReg d) with tag := t, full := false }

/-- The group after a scalar register is marked empty (R62). -/
def Group.emptyS (g : Group) (d : Nat) : Group := g.setSReg d { (g.sReg d) with full := false }

/-- The group after registers `d` to `d + n - 1` of a file are marked empty (R56, R62). -/
def Group.emptyN (g : Group) (file : RegFile) (d : Nat) (t : Tag) : Nat → Group
  | 0 => g
  | n + 1 => match file with
    | .v => Group.emptyN (g.emptyV d t) file (d + 1) t n
    | .s => Group.emptyN (g.emptyS d) file (d + 1) t n

/-- The group after a register is marked errored: it stays empty and keeps the fault beside it (R336). -/
def Group.errReg (g : Group) (file : RegFile) (d : Nat) (f : FaultInfo) : Group :=
  match file with
  | .v => g.setVReg d { (g.vReg d) with full := false, err := some f }
  | .s => g.setSReg d { (g.sReg d) with full := false, err := some f }

/-- Writes of scalars and of vectors by the word that executes. -/
def State.wrS (d : Nat) (x : Word) (s : State) : State := s.modG (fun g => g.wrS d x)
def State.wrSPair (d : Nat) (x : DWord) (s : State) : State := s.modG (fun g => g.wrSPair d x)
def State.wrV (d : Nat) (t : Tag) (m : Word) (f : Nat → Word) (s : State) : State := s.modG (fun g => g.wrV d t m f)

/-! ### Charges and counters -/

/-- A list of counts by number with `u` more at `k`. -/
def addTo (m : List (Nat × Nat)) (k u : Nat) : List (Nat × Nat) := SMap.set m k (SMap.getD m k 0 + u)

/-- The amount of a charge event in units of 2^-16 pJ (R141). -/
def amountOf (w : List Nat) (l : List (Nat × Nat)) : Nat := l.foldl (fun a x => a + w.getD x.1 0 * x.2) 0

/-- The scaling of a facet-domain event and the one rounding to units of 2^-8 pJ (R141). -/
def scaledBy (k a : Nat) : Nat := (a * k + 16384) / 32768
def unitsOf (a : Nat) : Nat := (a + 128) / 256

/-- A landing joins those on their way to a context, and the home unit is called for its cycle (R149). -/
def State.landAt (s : State) (c : Nat) (l : Landing) : State :=
  let s1 := s.modCtx c (fun x => { x with arriving := x.arriving ++ [l] })
  if (s.ctx c).arriving.any (fun x => x.cyc == l.cyc) then s1
  else s1.postAt (.facets (s.ctx c).part) l.cyc (.chargeArrival c)

/-- Whether a team belongs to a replay grid (R447). -/
def State.inReplay (s : State) (t : Nat) : Bool :=
  match s.launch (s.team t).launch with | some l => l.replay | none => false

/-- A partition with a change, whether or not anything of it has been written before (R7, R407). -/
def State.putPart (s : State) (p : Nat) (f : Part → Part) : State :=
  let x := match SMap.find s.parts p with | some x => x | none => { Part.zero with opSince := s.fleet.lastExport, cyc := s.cyc0 (.facets p) }
  { s with parts := SMap.set s.parts p (f x) }

/-- Units charged in a domain on their way from facet `f` to the home unit of a context. They count in the interval of the event's cycle,
not of the landing (R149, R160, R385; DESIGN CHOICE, log entry 46). `ev` is the event that they are, if any. -/
def State.arrive (s : State) (c f dom u : Nat) (ev : Option Bool) : State :=
  match SMap.find s.ctxs c with
  | none => s
  | some k =>
    (s.modCtx c (fun x => { x with charged := addTo x.charged dom u })).landAt c
      { cyc := s.homeCycle k.part f, units := u, corr := false, ev := ev }

/-- The units of a charge event in a facet, scaled at the partition's operating point (R141, R163). -/
def State.facetUnits (s : State) (p : Nat) (l : List (Nat × Nat)) : Nat :=
  unitsOf (scaledBy (s.scale.getD (s.part p).point 0) (amountOf s.weights l))

/-- A charge event of a context in a facet; `ev` says whether it counts, and for a replay grid (R141, R163, R441). -/
def State.charge (s : State) (c facet : Nat) (l : List (Nat × Nat)) (ev : Option Bool) : State :=
  s.arrive c facet facet (s.facetUnits (s.ctx c).part l) ev

/-- Whether a selector counts an event of a context, or of the replay grid (R441). -/
def pmSelects (sel : Word) (ctx : Nat) (replay : Bool) (ev : Nat) : Bool :=
  let n := sel.toNat
  n / 2147483648 == 1 && n % 256 == ev &&
    (match n / 536870912 % 4 with | 0 => n / 1024 % 1024 == ctx % 1024 | 1 => true | 2 => replay | _ => false)

/-- The router cycle in which what a partition's facets make in their present cycle is taken (R429). -/
def State.toUncore (s : State) (p : Nat) : Nat :=
  let k := s.cycle (.facets p) - s.cyc0 (.facets p) + 1
  let f := s.freq (.facets p)
  s.cyc0 .uncore + (if Nat.ble (Config.switchGap * f) (k * 100) then startsIn 160 Config.switchGap else k * 160 / f)
    + s.xlatOf 1 (s.part p).point

/-- The facet cycle in which what the uncore makes in its present cycle is taken by a partition's facets (R429). -/
def State.toFacets (s : State) (p : Nat) : Nat :=
  let k := s.cycle .uncore - s.cyc0 .uncore + 1
  let f := s.freq (.facets p)
  s.cyc0 (.facets p) + (if Nat.ble (Config.switchGap * 160) (k * 100) then startsIn f Config.switchGap else k * f / 160)
    + s.xlatOf 2 (s.part p).point

/-- The ticks from now to the start of a cycle, at the frequency in force (R427, R429; log entry 13). -/
def State.ticksTo (s : State) (k : Clock) (n : Nat) : Nat := s.tickOf k n - s.now

/-- Whether a home lies beyond the facets' clock, in the uncore (R426). -/
def Home.crosses : Home → Bool
  | .slice _ => true
  | .host => true
  | .peer _ => true
  | .scratch _ => false
  | .cluster _ => false

/-- The ticks that a request to a home, and an answer from one, take at the least, since they cross between the clocks; those of a peer do not
(R429). -/
def State.upTicks (s : State) (p : Nat) (h : Home) : Nat := if h.crosses then s.ticksTo .uncore (s.toUncore p) else 0
def State.downTicks (s : State) (p : Nat) (h : Home) : Nat := if h.crosses then s.ticksTo (.facets p) (s.toFacets p) else 0

/-- `n` events of a context on their way to the counters of its partition (R441 to R443). Nothing is sent where no selector has
been written. -/
def State.countCtx (s : State) (c ev n : Nat) (rp : Bool) : State :=
  let p := (s.ctx c).part
  if n = 0 || (s.part p).pmsel.isEmpty then s else s.postAt .uncore (s.toUncore p) (.counterEvent p { ctx := c, ev := ev, replay := rp } n)

/-- A charge event of the uncore (16), HBM4 (17) or fabric (18) domain, which is not scaled and accrues in facet `f`; class 9 counts
as hops (R141, R385, R442). -/
def State.chargeShared (s : State) (c f dom : Nat) (l : List (Nat × Nat)) (ev : Option Bool) : State :=
  let hops := (l.filter (fun x => x.1 == 9)).foldl (fun a x => a + x.2) 0
  let s1 := s.arrive c f dom (unitsOf (amountOf s.weights l)) ev
  match ev with | some rp => s1.countCtx c 0x0F hops rp | none => s1

/-- An event of a team on its way to the counters that select it (R441 to R443). -/
def State.count (s : State) (t ev n : Nat) : State := s.countCtx (s.team t).ctx ev n (s.inReplay t)

/-- Several events of the current group's team. -/
def State.counts (s : State) (l : List (Nat × Nat)) : State := l.foldl (fun s x => s.count s.g.team x.1 x.2) s

/-! ### Positions -/

/-- The packet after a position's (R170). -/
def nextPacket (p : Pos) : Pos := { pa := p.pa + 12, w := 0 }

/-- The target of a signed count of packets (R177). -/
def targetOf (pa : DWord) (off : Int) : DWord := BitVec.ofInt 64 ((pa.toNat : Int) + 12 * off)

/-- Whether a packet address lies in the body of a loop buffer. -/
def LoopBuf.covers (b : LoopBuf) (pa : DWord) : Bool := Nat.blt (pa - b.first).toNat (12 * b.len)

/-- Whether a group that goes from one position to another keeps its loop buffer: it stays in the body, and a buffer that
is flushed lasts no further than its packet (R222, R328). -/
def LoopBuf.keeps (b : LoopBuf) (p q : Pos) : Bool := b.covers q.pa && (!b.flush || (q.pa == p.pa && Nat.blt p.w q.w))

/-- The group with its running path at a position; it loses a loop buffer whose body it leaves (R222). -/
def Group.moveTo (g : Group) (p : Pos) : Group :=
  { g with pos := p, loopBuf := match g.loopBuf with | some b => if b.keeps g.pos p then some b else none | none => none }

/-- The check of an indirect target: a packet of the kernel (R210). -/
def Group.codeOk (g : Group) (t : DWord) : Bool :=
  Nat.ble g.base.toNat t.toNat && (t.toNat - g.base.toNat) % 12 == 0

/-- The group's next set stands at a position, and the set ends here (R171). -/
def State.transfer (p : Pos) (s : State) : State := (s.modG (fun g => g.moveTo p)).verd .transferred

/-- A transfer of control, which counts as taken (R204, R442). -/
def State.jump (p : Pos) (s : State) : State := (s.transfer p).counts [(0x05, 1)]

/-- A transfer to word 0 of a packet (R170). -/
def State.goto (pa : DWord) (s : State) : State := s.jump { pa := pa, w := 0 }

/-! ### Exceptions -/

/-- The fault of the word that executes, at its lane and address. -/
def State.faultAt (s : State) (c : FaultClass) (cause lane : Nat) (addr : Option DWord) : FaultInfo :=
  { cls := c, cause := cause, lane := lane, addr := addr, src := { pa := s.g.pos.pa, w := s.issue.w }, cons := false,
    defer := false, tcode := 0 }

/-- A fault of the word that executes without lane or address. -/
def State.faultOf (s : State) (c : FaultClass) : FaultInfo := s.faultAt c 0 0 none

/-- The syndrome word with its HACT bit (R340). -/
def syndromeOf (f : FaultInfo) (hact : Bool) : Word :=
  BitVec.ofNat 32 (hact.toNat * 2147483648 + f.defer.toNat * 134217728 + f.cons.toNat * 67108864
    + f.src.w % 4 * 16777216 + f.cause % 8 * 2097152 + f.lane % 32 * 65536 + f.addr.isSome.toNat * 32768 + f.cls.code)

/-- Whether a fault goes to the group's handler: its class is handled and enabled and HACT is 0 (R342). -/
def Group.handles (g : Group) (f : FaultInfo) : Bool :=
  match f.cls.hndBit with
  | some b => bitOf g.csr.hnden b && !g.csr.hact
  | none => false

/-- The control registers after the entry to a handler (R342). -/
def Csrs.enter (c : Csrs) (f : FaultInfo) (bound : Pos) : Csrs :=
  { c with epcLo := lo32 bound.pa, epcHi := hi32 bound.pa, eword := bound.w, sync := syndromeOf f false, hact := true,
           synaLo := lo32 (f.addr.getD 0), synaHi := hi32 (f.addr.getD 0) }

/-- The address of the handler (R342). -/
def Csrs.handler (c : Csrs) : DWord := pair64 c.hndLo c.hndHi

/-- The return address held in EPCLO and EPCHI (R331). -/
def Csrs.epc (c : Csrs) : DWord := pair64 c.epcLo c.epcHi

/-- A translation fault of a page that may be resolved: one that is not mapped where the policy makes device pages pageable, or that
awaits a page request (R349). -/
def pageable (f : FaultInfo) (pgpol : Nat) : Bool :=
  f.cls == .translation && !f.cons && ((f.cause == 0 && pgpol % 2 == 1) || f.cause == 1)

/-- Whether a fault of a group is replayed: it was met at clearance, or its engine word has halted to be made again (R349). -/
def State.replayable (s : State) (gid : Nat) (f : FaultInfo) : Bool :=
  let g := s.grp gid
  pageable f (s.team g.team).crec.pgpol &&
    (!f.defer || s.copies.any (fun k => k.2.halt && k.2.gid == gid && k.2.pos == f.src) ||
      (s.cluster g.cluster).queue.any (fun w => w.halt && w.gid == gid && w.pos == f.src))

/-- Whether a team is stopped: for energy, or for a fault (R289, R346). -/
def State.teamStopped (s : State) (t : Team) : Bool := t.st == .faulted || (s.ctx t.ctx).stopd

/-- The number of a team's partner within their grid: it differs in bit 0 (R286). -/
def mateId (teamid : Nat) : Nat := teamid ^^^ 1

/-- The partner team of a team, while it stands on a core or is saved (R286). -/
def State.mateOf (s : State) (t : Nat) : Option Nat :=
  let tm := s.team t
  if tm.kernel.pair then
    (s.teams.find? (fun x => x.2.launch == tm.launch && x.2.teamid == mateId tm.teamid && x.2.st != .ended)).map Prod.fst
  else none

/-- The cluster of a team's partner, its own while the partner stands nowhere. -/
def State.mateCluster (s : State) (t : Nat) : Nat := match s.mateOf t with | some m => (s.team m).cluster | none => (s.team t).cluster

/-- The seat of a group: its launch, its team's number and its own, which a restore or a new dispatch of its team keeps; and the seat of
its partner group (R286, R288). -/
def seatOf (launch teamid gnum : Nat) : Nat := (launch * 4294967296 + teamid) * 32 + gnum
def State.seat (s : State) (gid : Nat) : Nat :=
  let g := s.grp gid
  seatOf (s.team g.team).launch (s.team g.team).teamid g.gnum
def State.mateSeat (s : State) (gid : Nat) : Nat :=
  let g := s.grp gid
  seatOf (s.team g.team).launch (mateId (s.team g.team).teamid) g.gnum

/-- Whether a team is resident and not stopped: it is not from the beginning of its save to the end of its restore (R289). -/
def State.teamCounts (s : State) (t : Nat) : Bool :=
  match SMap.find s.teams t with
  | some x => !s.teamStopped x && (x.st == .running || x.st == .draining || x.st == .missed || x.st == .flushing)
  | none => false

/-- Whether a half of a group counts its ticks: both teams of the pair are resident and neither is stopped (R289). -/
def State.counting (s : State) (gid : Nat) : Bool :=
  s.teamCounts (s.grp gid).team && (match s.mateOf (s.grp gid).team with | some m => s.teamCounts m | none => false)

/-- A half whose wait starts or ceases to count. -/
def Half.tune (now : Nat) (on : Bool) (h : Half) : Half :=
  match h.since, on with
  | none, true => { h with since := some now }
  | some x, false => { h with since := none, tick := h.tick + (now - x) }
  | _, _ => h

/-- The ticks that a half has waited. -/
def Half.waited (now : Nat) (h : Half) : Nat := h.tick + (match h.since with | some x => now - x | none => 0)

/-- A half is looked at when its time may be over (R289). -/
def State.watchHalf (s : State) (h : Half) : State :=
  s.post ((s.part (s.team (s.grp h.gid).team).part).xto + 1 - h.waited s.now) (.exchangeTimeout h.gid)

/-- The waiting halves after a team has stopped or goes on (R289). -/
def State.tuneHalves (s : State) : State :=
  let f := fun (h : Half) => h.tune s.now (s.counting h.gid)
  s.halves.foldl (fun s h => if s.counting h.gid && h.since.isNone then s.watchHalf h else s) { s with halves := s.halves.map f }

/-- The count of E halts, and goes on (R346). -/
def Team.halt (now : Nat) (t : Team) : Team := { t with elapsed := t.elapsed + (now - t.since), since := now }
def Team.resumeAt (now : Nat) (t : Team) : Team := { t with since := now }

/-- The facets of a partition. -/
def Part.facetList (p : Part) : List Nat := (List.range 16).filter p.facets.testBit

/-- The partition that owns a facet (R407). -/
def State.partOfFacet (s : State) (f : Nat) : Option Nat := (s.parts.find? (fun x => x.2.facets.testBit f)).map Prod.fst

/-- The clock of a cluster (R425). -/
def State.clockOf (s : State) (cl : Nat) : Clock := .facets ((s.partOfFacet (cl / 8)).getD 0)

/-- A team that stops for a fault, its other groups from a cycle on, with its report; E halts unless it already stood still (R338,
R346). -/
def Team.fault (now stop : Nat) (still : Bool) (r : Report) (t : Team) : Team :=
  { (if still || t.st = .faulted then t else t.halt now) with
    st := .faulted
    stopAt := some (t.stopAt.getD stop)
    reports := t.reports ++ [r] }

/-- The cycle in which the other groups of a team that takes a fault now stop (R338). -/
def State.stopCycle (s : State) (t : Nat) : Nat :=
  (s.team t).stopAt.getD (s.cycle (.facets (s.team t).part) + 24)

/-- The report of a team that has stopped follows when its groups have (R338). -/
def State.postReport (t : Nat) (s : State) : State := s.postAt (.facets (s.team t).part) (s.stopCycle t) (.faultReport t)

/-- The team of a group stops for a fault: the group at its boundary, the others 24 cycles on, and the report follows
once its outstanding work has ended. A fault of a page that may be resolved is held for its replay instead, no longer than the
hold limit (R338, R341, R349, R352). -/
def State.stopTeam (s : State) (gid : Nat) (f : FaultInfo) (bound : Pos) (hact : Bool) : State :=
  let g := s.grp gid
  let c := (s.team g.team).ctx
  let r : Report := { info := f, bound := bound, tick := s.now, hact := hact, ovf := false, gnum := g.gnum, sent := false }
  let s := s.setGrp gid { g.moveTo bound with stopped := true }
  let s := (s.modTeam g.team (Team.fault s.now (s.stopCycle g.team) (s.ctx c).stopd r)).tuneHalves
  if s.replayable gid f then
    ((s.post 0 (.pageFaultReplay g.team)).post (s.part (s.team g.team).part).pfhold
      (.pfholdExpiry g.team (Config.saveArea s.ticket))).tick
  else s.postReport g.team

/-- A team of which a fault is taken is neither saved nor flushed then; one whose attach missed is saved later (R348, R352). -/
def Team.unsave (t : Team) : Team :=
  { t with st := if t.st = .saving then (if t.missSeg.isSome then .missed else .running) else if t.st = .flushing then .running else t.st }

/-- A fault is taken at a boundary of a group: the handler of R342 is entered, or the team stops (R332, R338, R342,
R343). A handler address that fails R210 stops the team for a misalignment. -/
def State.takeFault (s : State) (gid : Nat) (f : FaultInfo) (bound : Pos) : State :=
  let g := s.grp gid
  let s := ((s.count g.team 0x16 1).modTeam g.team Team.unsave).verd .trapped
  if g.handles f then
    let h := { g with csr := g.csr.enter f bound, loopBuf := none, wake := s.cycle (.facets (s.team g.team).part) + 4 }
    if g.codeOk g.csr.handler then (s.setGrp gid { h with pos := { pa := g.csr.handler, w := 0 } }).tuneHalves
    else (s.setGrp gid h).stopTeam gid
      { cls := .misalignment, cause := 0, lane := 0, addr := some g.csr.handler, src := bound, cons := false,
        defer := false, tcode := 0 } bound true
  else s.stopTeam gid f bound g.csr.hact

/-- A fault found at the issue of the current word: the set is charged class 0 once and has no effect (R31, R142). -/
def State.issueFault (s : State) (f : FaultInfo) : State :=
  (s.charge s.myTeam.ctx s.g.facet [(0, 1)] (some (s.inReplay s.g.team))).takeFault s.cur f s.g.pos

/-- The return from a handler: HACT is cleared and the path enters the saved word (R331, R344). -/
def Group.trapReturn (g : Group) : Group :=
  { g with csr := { g.csr with hact := false } }.moveTo { pa := g.csr.epc, w := g.csr.eword }

/-! ### The issue of one word -/

/-- A register operand: `cnt` consecutive registers from an aligned `n`, read or written or both, in its mode. -/
structure Use where
  file : RegFile
  n    : Nat
  cnt  : Nat
  rd   : Bool
  wr   : Bool
  trap : Bool

/-- The budget of a file (R16, R17). -/
def Group.budget (g : Group) : RegFile → Nat
  | .v => g.v.length
  | .s => g.s.length

def Group.isFull (g : Group) (f : RegFile) (n : Nat) : Bool :=
  match f with
  | .v => (g.vReg n).full
  | .s => (g.sReg n).full && !(g.sReg n).pend

def Group.isPend (g : Group) (f : RegFile) (n : Nat) : Bool :=
  match f with
  | .v => false
  | .s => (g.sReg n).pend

def Group.regErr (g : Group) (f : RegFile) (n : Nat) : Option FaultInfo :=
  match f with
  | .v => (g.vReg n).err
  | .s => (g.sReg n).err

def Use.regs (u : Use) : List Nat := (List.range u.cnt).map (u.n + ·)

/-- An operand that R17 or R56 refuses. -/
def Use.bad (g : Group) (u : Use) : Bool := u.n % u.cnt != 0 || Nat.blt (g.budget u.file) (u.n + u.cnt)

/-- The fault of an errored register that the operand names (R336). -/
def Use.err (g : Group) (u : Use) : Option FaultInfo :=
  u.regs.foldl (fun r n => match r with | some f => some f | none => g.regErr u.file n) none

/-- An operand that holds the set back: an empty block-mode source or destination, or a late scalar answer (R30, R65,
R318). -/
def Use.holds (g : Group) (u : Use) : Bool :=
  u.regs.any (fun n => if u.wr || !u.trap then !g.isFull u.file n else g.isPend u.file n)

/-- A trap-mode source that is empty (R64). -/
def Use.traps (g : Group) (u : Use) : Bool := u.rd && u.trap && u.regs.any (fun n => !g.isFull u.file n)

/-- What a word is checked for, charged and counted at issue: whether it is no instruction; the operands; privilege; operand faults of the encoding
and of the team's counts; matrix-descriptor faults; the cause of a format fault; faults of values; waits; the classes
besides class 0; the counter events; whether it marks its team dirty; and what its waiting leaves (R128) (R30, R31, R142, R178, R347). -/
structure WordSpec where
  uses   : List Use
  illegal : Bool := false
  priv   : State → Bool := fun _ => false
  opnd   : State → Bool := fun _ => false
  matrix : State → Bool := fun _ => false
  fmt    : Group → Option Nat := fun _ => none
  value  : State → Option FaultInfo := fun _ => none
  wait   : State → Bool := fun _ => false
  cls    : State → List (Nat × Nat) := fun _ => []
  evs    : State → List (Nat × Nat) := fun _ => []
  dirty  : State → Bool := fun _ => false
  onWait : State → State := id

/-- What the checks of a word find: a late fault is judged only when every word of its set can issue (R30, R64, R178). -/
inductive Check where
  | ok
  | held
  | waits
  | fault (f : FaultInfo)
  | late (f : FaultInfo)

/-- The fault of an errored register as its consumer takes it (R336, R340). -/
def consumed (f : FaultInfo) : FaultInfo := { f with cons := true }

/-- The first errored register that a word names (R336). -/
def errOf (g : Group) (us : List Use) : Option FaultInfo :=
  us.foldl (fun r u => match r with | some f => some f | none => u.err g) none

/-- The checks of a word at issue, in the order of R178. -/
def check (sp : WordSpec) (s : State) : Check :=
  if sp.illegal then .fault (s.faultOf .illegalInstruction)
  else if sp.priv s then .fault (s.faultOf .privilege)
  else if sp.uses.any (Use.bad s.src) || sp.opnd s then .fault (s.faultOf .illegalOperand)
  else if sp.matrix s then .fault (s.faultOf .matrixDescriptor)
  else match sp.fmt s.src with
  | some c => .fault (s.faultAt .format c 0 none)
  | none => match errOf s.src sp.uses with
    | some f => .fault (consumed f)
    | none =>
      if sp.uses.any (Use.holds s.src) then .held
      else if sp.uses.any (Use.traps s.src) then .late (s.faultOf .fullEmpty)
      else match sp.value s with
      | some f => .late f
      | none => if sp.wait s then .waits else .ok

/-- Whether a register's full bit is 0; a late scalar's may be 1 (R62, R318). -/
def Group.isEmpty (g : Group) : RegFile → Nat → Bool
  | .v, n => !(g.vReg n).full
  | .s, n => !(g.sReg n).full

/-- Whether an empty block-mode source holds a word back (R442). -/
def WordSpec.starves (sp : WordSpec) (g : Group) : Bool :=
  sp.uses.any (fun u => u.rd && !u.trap && u.regs.any (g.isEmpty u.file))

/-- The classes a word is charged at issue: class 0 alone when em is 0 (R35, R142). -/
def WordSpec.classes (sp : WordSpec) (s : State) : List (Nat × Nat) := (0, 1) :: if s.src.em = 0 then [] else sp.cls s

/-- The state in which a word that passed its checks takes effect: charged, counted and marked. -/
def State.begin (s : State) (sp : WordSpec) : State :=
  let s1 := ((s.charge s.myTeam.ctx s.g.facet (sp.classes s) (some (s.inReplay s.g.team))).counts (sp.evs s)).verd .issued
  if sp.dirty s then s1.modTeam s.g.team (fun t => { t with dirty := true }) else s1

/-- A held word counts the cycle where an empty source holds it back (R442). -/
def State.hold (s : State) (sp : WordSpec) : State :=
  (if sp.starves s.src then s.count s.g.team 0x18 1 else s).verd .held

/-- The issue of a word: it takes effect, or it is held back by a register or waits for a unit, or its fault is taken (R30,
R31, R64, R178). In the other phases it is only checked, or checked and charged, or only takes the effect of a word that has issued
(R31, R333). A group that has retired issues nothing. -/
def issueWord (sp : WordSpec) (eff : State → State) (s : State) : Host.Outcome State Fault Refusal :=
  if s.g.retired then .next (s.verd .held)
  else if s.issue.phase = .effect then .next (eff (s.verd .issued))
  else match check sp s with
  | .ok => .next (match s.issue.phase with | .probe => s.verd .issued | .charge => s.begin sp | _ => eff (s.begin sp))
  | .held => .next (s.hold sp)
  | .waits => .next ((sp.onWait s).verd .held)
  | .fault f => .next (s.issueFault f)
  | .late f => .next (if s.issue.phase = .probe then s.verd .late else s.issueFault f)

/-- Whether a word of the queue of a cluster, of a core's copies or of its items is in a set that has issued and awaits the clearance of its
memory word: its place is kept for it (R30, R333). -/
def Instr.queues : Instr → Bool
  | .acp .. => true
  | .mzero .. => true
  | .mld .. => true
  | .mst .. => true
  | .mscale .. => true
  | .mma .. => true
  | .mloop .. => true
  | .mfence .. => true
  | .itemput .. => true
  | _ => false
def State.kept30 (s : State) : Bool :=
  s.snaps.any (fun x => x.2.gid != s.cur && (s.grp x.2.gid).cluster == s.src.cluster && x.2.words.any (fun w => Instr.queues w.2))

/-! ### Signatures of a replay -/

/-- One fold of a signature (R451). -/
def sigFold (sig z : Word) : Word := sig.rotateLeft 5 ^^^ z

/-- The signature of the group after a control word: one that retires the group folds at once, any other once the group's next set issues, `em`
folded as well for the words that R451 names. -/
def State.sign (withEm : Bool) (s : State) : State :=
  if s.inReplay s.g.team then
    s.modG (fun g =>
      if g.retired then { g with sig := sigFold g.sig (BitVec.allOnes 32) }
      else { g with sigs := g.sigs ++ [if withEm then some g.em else none] })
  else s

/-- The folds that awaited the group's next set, which issues now, after any pop or path switch (R451). -/
def Group.resign (g : Group) : Group :=
  let z : Word := BitVec.ofNat 32 (4 * ((g.pos.pa - g.base).toNat / 12) + g.pos.w)
  { g with sig := g.sigs.foldl (fun a e => match e with | some m => sigFold (sigFold a z) m | none => sigFold a z) g.sig, sigs := [] }
def State.resign (s : State) : State := if s.g.sigs.isEmpty then s else s.modG Group.resign

end Sys2Proof.Machine
end

