-- ==== Sys2Proof/Machine/Crypt.lean ====
section
/-! DEFINITION. Memory encryption: AES-256 in XTS mode over a 64-byte burst (R417). Memory holds a line's plaintext beside the
key pair it is stored under; a line that another key pair reads is what that key makes of the stored bytes. -/

namespace Sys2Proof.Machine

/-- Multiplication by x, and by a byte, in the field of AES. -/
def xtime (a : Nat) : Nat := if Nat.ble 128 a then (2 * a) % 256 ^^^ 27 else 2 * a
def gmul (a b : Nat) : Nat :=
  ((List.range 8).foldl (fun (r : Nat × Nat) k => (if b.testBit k then r.1 ^^^ r.2 else r.1, xtime r.2)) (0, a)).1

/-- The inverse in the field: the 254th power. -/
def ginv (a : Nat) : Nat :=
  let a2 := gmul a a
  let a4 := gmul a2 a2
  let a8 := gmul a4 a4
  let a16 := gmul a8 a8
  let a32 := gmul a16 a16
  let a64 := gmul a32 a32
  let a128 := gmul a64 a64
  gmul a128 (gmul a64 (gmul a32 (gmul a16 (gmul a8 (gmul a4 a2)))))

/-- A byte rotated left. -/
def rotB (a k : Nat) : Nat := (a * 2 ^ k + a / 2 ^ (8 - k)) % 256

/-- The substitution of AES and its inverse. -/
def subByte (a : Nat) : Nat :=
  let b := ginv a
  b ^^^ rotB b 1 ^^^ rotB b 2 ^^^ rotB b 3 ^^^ rotB b 4 ^^^ 99
def unsubByte (a : Nat) : Nat := ginv (rotB a 1 ^^^ rotB a 3 ^^^ rotB a 6 ^^^ 5)

def xorList (a b : List Nat) : List Nat := List.zipWith (· ^^^ ·) a b

/-- The expanded key of AES-256: 60 words of four bytes. -/
def expandKey (key : List Nat) : List (List Nat) :=
  let w0 := (List.range 8).map (fun k => (key.drop (4 * k)).take 4)
  ((List.range 52).foldl (fun (st : List (List Nat) × Nat) k =>
    let i := k + 8
    let prev := st.1.getD (i - 1) []
    let t := if i % 8 = 0 then
        let r := (prev.drop 1 ++ prev.take 1).map subByte
        xorList r [st.2, 0, 0, 0]
      else if i % 8 = 4 then prev.map subByte else prev
    (st.1 ++ [xorList (st.1.getD (i - 8) []) t], if i % 8 = 0 then xtime st.2 else st.2)) (w0, 1)).1

/-- The sixteen bytes of a round's key. -/
def roundKey (w : List (List Nat)) (r : Nat) : List Nat := ((w.drop (4 * r)).take 4).flatten

/-- The rows of a block shifted, and shifted back. -/
def shiftRows (b : List Nat) : List Nat := (List.range 16).map (fun i => b.getD ((i / 4 + i % 4) % 4 * 4 + i % 4) 0)
def unshiftRows (b : List Nat) : List Nat := (List.range 16).map (fun i => b.getD ((i / 4 + 4 - i % 4) % 4 * 4 + i % 4) 0)

/-- A block's columns multiplied by the circulant of four bytes. -/
def mixWith (c : List Nat) (b : List Nat) : List Nat :=
  (List.range 16).map (fun i =>
    (List.range 4).foldl (fun r k => r ^^^ gmul (b.getD (i / 4 * 4 + k) 0) (c.getD ((k + 4 - i % 4) % 4) 0)) 0)

/-- AES-256 on one block. -/
def aesEnc (key blk : List Nat) : List Nat :=
  let w := expandKey key
  let mid := (List.range 13).foldl (fun b k =>
    xorList (mixWith [2, 3, 1, 1] (shiftRows (b.map subByte))) (roundKey w (k + 1))) (xorList blk (roundKey w 0))
  xorList (shiftRows (mid.map subByte)) (roundKey w 14)

def aesDec (key blk : List Nat) : List Nat :=
  let w := expandKey key
  let mid := (List.range 13).foldl (fun b k =>
    mixWith [14, 11, 13, 9] (xorList ((unshiftRows b).map unsubByte) (roundKey w (13 - k)))) (xorList blk (roundKey w 14))
  xorList ((unshiftRows mid).map unsubByte) (roundKey w 0)

/-- The tweak of the next block: the multiplication by x in the field of 2^128, little-endian. -/
def nextTweak (t : List Nat) : List Nat :=
  let n := t.foldr (fun b r => b + 256 * r) 0
  let m := if Nat.ble (2 ^ 127) n then (2 * n) % 2 ^ 128 ^^^ 135 else 2 * n
  (List.range 16).map (fun k => m / 256 ^ k % 256)

/-- The four blocks of a burst under a key pair; the tweak is the line's number (R417). -/
def xts (f : List Nat → List Nat → List Nat) (keys : List Nat) (line : Nat) (data : List Nat) : List Nat :=
  let t0 := aesEnc (keys.drop 32) ((List.range 16).map (fun k => line / 256 ^ k % 256))
  ((List.range 4).foldl (fun (st : List Nat × List Nat) j =>
    (st.1 ++ xorList (f (keys.take 32) (xorList ((data.drop (16 * j)).take 16) st.2)) st.2, nextTweak st.2)) ([], t0)).1

/-- What a key pair reads of a line that another, or none, wrote. -/
def recode (old new : List Nat) (line : Nat) (data : List Nat) : List Nat :=
  let stored := if old.isEmpty then data else xts aesEnc old line data
  if new.isEmpty then stored else xts aesDec new line stored

/-- The key pair of a slot, empty for an access in clear. -/
def State.keyPair (s : State) (slot : Option Nat) : List Nat :=
  match slot with
  | some k => SMap.getD s.keys.slots k []
  | none => []

/-- The line's key pair in HBM4 becomes that of a slot, whatever its bytes were. -/
def State.putKey (line : Nat) (slot : Option Nat) (s : State) : State :=
  let k := s.keyPair slot
  { s with crypt := if k.isEmpty then SMap.erase s.crypt line else SMap.set s.crypt line k }

/-- A line is filled under a slot: its bytes are what that key reads (R417). -/
def State.fillLine (line : Nat) (slot : Option Nat) (s : State) : State :=
  let old := SMap.getD s.crypt line []
  let new := s.keyPair slot
  if old == new then s
  else
    let bytes := (Memory.bytes s.mem (64 * line) 64).map BitVec.toNat
    { s with mem := Memory.writeBytes s.mem (64 * line) ((recode old new line bytes).map (BitVec.ofNat 8)) }.putKey line slot

/-- Whether memory holds a line as an access under a slot reads it: the line is resident, or stored under the same keys (R417). -/
def State.inClear (s : State) (line : Nat) (slot : Option Nat) : Bool :=
  (SMap.find s.l2 line).isSome || SMap.getD s.crypt line [] == s.keyPair slot

/-- The 64 bytes that a fill of a line under a slot would give (R417). -/
def State.viewLine (s : State) (line : Nat) (slot : Option Nat) : List Nat :=
  let bytes := (Memory.bytes s.mem (64 * line) 64).map BitVec.toNat
  if s.inClear line slot then bytes else recode (SMap.getD s.crypt line []) (s.keyPair slot) line bytes

/-- `n` bytes as a read under a slot finds them, whether or not their lines are resident (R417). -/
def State.viewN (s : State) (key n : Nat) (slot : Option Nat) : Nat :=
  if (List.range ((key + n + 63) / 64 - key / 64)).all (fun k => s.inClear (key / 64 + k) slot) then Memory.readN s.mem key n
  else (List.range n).foldl (fun x i => x + (s.viewLine ((key + i) / 64) slot).getD ((key + i) % 64) 0 * 256 ^ i) 0

/-- Whether a line of HBM4 is resident under another key slot (R418). -/
def State.otherSlot (s : State) (key : Nat) (slot : Option Nat) : Bool :=
  Nat.blt key 549755813888 && (match SMap.find s.l2 (key / 64) with | some l => l.slot != slot | none => false)

end Sys2Proof.Machine
end

