-- ==== Sys2Proof/Machine/Flags.lean ====
section
/-! DEFINITION. The conditions of the part: the integer relations, the tests of the execution mask, and the windows in
which counts and phases are compared (R44, R181, R294, R316). The part has no arithmetic flags (R83, R85). -/

namespace Sys2Proof.Machine

/-- The integer relation of a condition code (R181, R199). -/
def intCond (cc : Nat) (a b : Word) : Bool :=
  match cc with
  | 0 => a == b
  | 1 => a != b
  | 2 => a.slt b
  | 3 => a.sle b
  | 4 => b.slt a
  | 5 => b.sle a
  | 6 => a.ult b
  | 7 => a.ule b
  | 8 => b.ult a
  | _ => b.ule a

/-- The test of the execution mask of a COND field (R181). -/
def maskCond (cond : Nat) (em x : Word) : Bool :=
  match cond with
  | 0 => true
  | 1 => em == 0
  | 2 => em != 0
  | 3 => em == ~~~x
  | _ => em != ~~~x

/-- Whether count `a` is ahead of count `b` (R44). -/
def aheadOf (a b : Nat) : Bool :=
  let d := (a + 65536 - b % 65536) % 65536
  Nat.ble 1 d && Nat.ble d 32767

/-- Whether a phase has passed the phase `n` (R294). -/
def phasePassed (phase n : Nat) : Bool :=
  let d := (phase + 256 - n % 256) % 256
  Nat.ble 1 d && Nat.ble d 127

/-- Whether the completed-batch count has reached `n` (R316). -/
def batchDone (c n : Nat) : Bool := Nat.ble ((c + 65536 - n % 65536) % 65536) 32767

end Sys2Proof.Machine
end

