-- ==== Sys2Proof/Machine/Operands.lean ====
section
/-! DEFINITION. The operand forms: register operands in their modes, the format checks of vector sources, the policy
operand, and the 64-bit address (R64, R69, R104 to R111, R175, R176, R225, R226, R252). -/

namespace Sys2Proof.Machine

/-! ### Register operands -/

/-- A scalar source, a scalar pair source, a scalar destination, a destination pair, and a scalar read and written. -/
def srcS (n : Nat) (t : Bool) : Use := { file := .s, n := n, cnt := 1, rd := true, wr := false, trap := t }
def srcSP (n : Nat) (t : Bool) : Use := { file := .s, n := n, cnt := 2, rd := true, wr := false, trap := t }
def dstS (n : Nat) : Use := { file := .s, n := n, cnt := 1, rd := false, wr := true, trap := false }
def dstSP (n : Nat) : Use := { file := .s, n := n, cnt := 2, rd := false, wr := true, trap := false }
def updS (n : Nat) : Use := { file := .s, n := n, cnt := 1, rd := true, wr := true, trap := false }

/-- The same of vectors, and `k` consecutive vectors (R180, R323). -/
def srcV (n : Nat) (t : Bool) : Use := { file := .v, n := n, cnt := 1, rd := true, wr := false, trap := t }
def srcVP (n : Nat) (t : Bool) : Use := { file := .v, n := n, cnt := 2, rd := true, wr := false, trap := t }
def dstV (n : Nat) : Use := { file := .v, n := n, cnt := 1, rd := false, wr := true, trap := false }
def dstVP (n : Nat) : Use := { file := .v, n := n, cnt := 2, rd := false, wr := true, trap := false }
def updV (n : Nat) : Use := { file := .v, n := n, cnt := 1, rd := true, wr := true, trap := false }
def updVP (n : Nat) : Use := { file := .v, n := n, cnt := 2, rd := true, wr := true, trap := false }
def srcVN (n k : Nat) (t : Bool) : Use := { file := .v, n := n, cnt := k, rd := true, wr := false, trap := t }

/-- An operand of the file that `u` selects: scalars with U = 1 (R184). -/
def srcU (u : Bool) (n : Nat) (t : Bool) : Use := if u then srcS n t else srcV n t
def srcUP (u : Bool) (n : Nat) (t : Bool) : Use := if u then srcSP n t else srcVP n t
def dstU (u : Bool) (n : Nat) : Use := if u then dstS n else dstV n
def dstUP (u : Bool) (n : Nat) : Use := if u then dstSP n else dstVP n

/-- The tag of a vector register. -/
def Group.tag (g : Group) (n : Nat) : Tag := (g.vReg n).tag

/-- A tag an integer word accepts (R69, R225). -/
def intTag (t : Tag) : Bool := t == .raw || t == .i32

/-- The cause of a format fault where one of the named vectors carries a tag that an integer word refuses (R225,
R340). -/
def fmtInt (ns : List Nat) (g : Group) : Option Nat := if ns.all (fun n => intTag (g.tag n)) then none else some 0

/-- The formats of float arithmetic (R226). -/
def floatTag (t : Tag) : Bool := t == .fp32 || t == .bf16x2 || t == .fp16x2

/-- The cause of a format fault where the named vectors do not carry one same float format (R226). -/
def fmtFloat (a : Nat) (ns : List Nat) (g : Group) : Option Nat :=
  if floatTag (g.tag a) && ns.all (fun n => g.tag n == g.tag a) then none else some 0

/-- The cause of a format fault where a vector does not carry a tag of a list. -/
def fmtIn (n : Nat) (l : List Tag) (g : Group) : Option Nat := if l.contains (g.tag n) then none else some 0

/-- The first of two causes. -/
def fmtBoth (p q : Group → Option Nat) (g : Group) : Option Nat :=
  match p g with
  | some c => some c
  | none => q g

/-! ### The policy operand (R109) -/

def polT2 (p : Word) : Nat := p.toNat / 16777216
def polT1 (p : Word) : Nat := p.toNat / 65536 % 256
def polFmt (p : Word) : Nat := p.toNat / 4096 % 16
def polScope (p : Word) : Nat := p.toNat / 1024 % 4
def polOrd (p : Word) : Nat := p.toNat / 256 % 4
def polMrg (p : Word) : Bool := bitOf p 7
def polLinger (p : Word) : Nat := p.toNat % 64

/-- What R110 accepts of a policy operand: `ords` are the ORD values of the word's kind (R116), `mrg` whether MRG may
be 1. -/
def polOk (ords : List Nat) (mrg : Bool) (p : Word) : Bool :=
  !bitOf p 6 && Nat.blt (polFmt p) 11 && (mrg || !polMrg p) && ords.contains (polOrd p)

/-- The tag that a load writes (R67). -/
def polTag (p : Word) : Tag := (tagOf? (polFmt p)).getD .raw

/-- Whether an ORD value holds an acquire, and a release (R109). -/
def isAcq (o : Nat) : Bool := o % 2 == 1
def isRel (o : Nat) : Bool := o / 2 % 2 == 1

/-! ### Addresses (R104, R252) -/

def adWin (a : DWord) : Bool := a.getLsbD 63
def adHandle (a : DWord) : Nat := a.toNat / 140737488355328 % 65536
def adWofs (a : DWord) : Nat := a.toNat % 140737488355328
def adSpace (a : DWord) : Nat := a.toNat / 1152921504606846976 % 8
def adRsvd (a : DWord) : Bool := a.toNat / 144115188075855872 % 8 != 0
def adOfs (a : DWord) : Nat := a.toNat % 144115188075855872

/-- The region a range is held in: a local space, or 8 and a window's handle (R128). -/
def adRegion (a : DWord) : Nat := if adWin a then 8 + adHandle a else adSpace a

/-- The offset within the region. -/
def adPlace (a : DWord) : Nat := if adWin a then adWofs a else adOfs a

/-- The address of a lane, and the single uniform address (R252). -/
def laneAddr (g : Group) (base idx i : Nat) : DWord := g.sPair base + (g.vLane idx i).setWidth 64
def uniAddr (g : Group) (base idx : Nat) : DWord := g.sPair base + (g.sVal idx).setWidth 64

/-- The hash of an address that sets its eviction class (R111). -/
def adHash (a : DWord) : Nat :=
  let o := if adWin a then adWofs a else adOfs a
  let b := fun k => o / 2 ^ k % 256
  b 6 ^^^ b 14 ^^^ b 22 ^^^ b 30 ^^^ b 38 ^^^ b 46 ^^^ (o / 2 ^ 54 % 8)

/-- The eviction class of an access (R111). -/
def evClassOf (p : Word) (a : DWord) : EvClass :=
  if Nat.blt (adHash a) (min (polT1 p) (polT2 p)) then .keep
  else if Nat.blt (adHash a) (polT2 p) then .normal
  else .stream

/-- The home level of an address, 0 team to 3 system, and the effective scope (R105, R119). -/
def homeLevel (a : DWord) : Nat :=
  if adWin a then 3 else match adSpace a with | 0 => 2 | 2 => 1 | 3 => 2 | _ => 0
def effScope (scope : Nat) (a : DWord) : Nat := max scope (homeLevel a)

/-- Steps 1 and 2 of the decoding checks: a reserved space or a nonzero [59:57], then the alignment (R106). -/
def decodeFault (a : DWord) (n : Nat) : Option FaultClass :=
  if !adWin a && (Nat.blt 4 (adSpace a) || adRsvd a) then some .illegalOperand
  else if a.toNat % n != 0 then some .misalignment
  else none

end Sys2Proof.Machine
end

