-- ==== Sys2Proof/Machine/Translate.lean ====
section
/-! DEFINITION. Where an address leads: page tables, access tables, homes and routes, window entries, reachable regions and
range locks (R105, R127 to R129, R368, R369, R406 to R418, R422, R474). -/

namespace Sys2Proof.Machine

/-- What an access asks of a page and of an access table (R410, R416). -/
inductive AccKind where
  | load | store | rmw | fetch | hint
  deriving DecidableEq, Repr

/-- The facets of a mask, ascending. -/
def facetsOf (m : Nat) : List Nat := (List.range 16).filter (fun f => m.testBit f)

/-- The home slice of a device-physical address, numbered 16 to a facet (R406). -/
def sliceOf (pa : Nat) : Nat := pa / 34359738368 % 16 * 16 + ((pa / 64 % 16) ^^^ (pa / 16384 % 16))

/-- The router of a slice (R406). -/
def routerOf (slice : Nat) : Nat := slice / 2

/-- An address of HBM4 (R406). -/
def paOk (pa : Nat) : Bool := Nat.blt pa 549755813888 && Nat.blt (pa % 34359738368) 27000000000

/-- The facet and bank of a chip-scratchpad offset of a partition (R368). -/
def chipPlace (p : Part) (o : Nat) : Nat × Nat := ((facetsOf p.facets).getD (o / 16777216) 0, o / 4096 % 16)

/-! ### The network (R422) -/

/-- Multiplication in the field of order 8. -/
def mul8 (a b : Nat) : Nat :=
  let m := ((List.range 3).filter b.testBit).foldl (fun r i => r ^^^ (a * 2 ^ i)) 0
  let n := if m.testBit 4 then m ^^^ 22 else m
  if n.testBit 3 then n ^^^ 11 else n

/-- Whether two routers are joined: the graph of degree 12 and diameter two over the field of order 8, whose 16 subgraphs of 8 are the facets'
(R422; PRESUMED, log entry 9). -/
def joined (a b : Nat) : Bool :=
  let x := a / 8
  let y := b / 8
  if x = y then (if Nat.blt x 8 then [1, 4, 6, 5] else [2, 3, 7, 1]).contains (a % 8 ^^^ b % 8)
  else if Nat.blt x 8 && Nat.ble 8 y then a % 8 ^^^ b % 8 == mul8 (y - 8) x
  else if Nat.blt y 8 && Nat.ble 8 x then a % 8 ^^^ b % 8 == mul8 (x - 8) y
  else false

/-- The routers of the route that a partition's table fixes between two: both, and where they are not joined one that joins them (R422; log
entry 9). -/
def routeOf (part a b : Nat) : List Nat :=
  if a = b then [a]
  else if joined a b then [a, b]
  else match (List.range 128).filter (fun v => joined a v && joined v b) with
  | [] => [a, b]
  | v :: r => [a, (v :: r).getD (Config.routeVia part a b % (r.length + 1)) v, b]

/-- The hops of a message on its network between two routers (R422). -/
def hopsOf (_part a b : Nat) : Nat := if a = b then 0 else if joined a b then 1 else 2

/-! ### Page tables (R409, R410) -/

def pteNext (e : Nat) : Nat := e / 256 % 281474976710656 * 256
def pteFrame (e : Nat) : Nat := e / 65536 % 1099511627776 * 65536
def pteKey (e : Nat) : Nat := e / 256 % 256
def pteEnc (e : Nat) : Bool := e.testBit 7
def pteHost (e : Nat) : Bool := e.testBit 6

/-- Whether a table's entry may be read: it lies in HBM4, and its line is not resident under a key (R406, R418). -/
def State.tableOk (s : State) (a : Nat) : Bool := paOk a && !s.otherSlot a none

/-- The walk over the levels left: (index shift, index bits, bytes of the next table). It gives the leaf and its shift. -/
def State.walkLv (s : State) (va : Nat) : List (Nat × Nat × Nat) → Nat → Option (Nat × Nat)
  | [], _ => none
  | (sh, bits, nsz) :: r, tbl =>
    let e := s.viewN (tbl + va / 2 ^ sh % 2 ^ bits * 8) 8 none
    if !s.tableOk (tbl + va / 2 ^ sh % 2 ^ bits * 8) || !e.testBit 0 || e / 72057594037927936 != 0 || e.testBit 5 then none
    else if e.testBit 1 then
      if sh = 39 || (pteHost e && pteEnc e) || pteFrame e % 2 ^ sh != 0 then none else some (e, sh)
    else if r.isEmpty || e / 4 % 64 != 0 || pteNext e % nsz != 0 then none
    else State.walkLv s va r (pteNext e)

/-- The levels of a context's tables (R409). -/
def CtxRec.levels (c : CtxRec) : List (Nat × Nat × Nat) := [(39, c.rb, 4096), (30, 9, 4096), (21, 9, 256), (16, 5, 0)]

/-- The walk of an address from a context's root (R409). -/
def State.walk (s : State) (c : CtxRec) (va : Nat) : Option (Nat × Nat) :=
  if va / 2 ^ (39 + c.rb) != 0 then none else s.walkLv va c.levels c.ptroot

/-- The addresses of the entries that a walk reads (R409, R411). -/
def State.walkReads (s : State) (va : Nat) : List (Nat × Nat × Nat) → Nat → List Nat
  | [], _ => []
  | (sh, bits, _) :: r, tbl =>
    let a := tbl + va / 2 ^ sh % 2 ^ bits * 8
    let e := s.viewN a 8 none
    a :: (if s.tableOk a && e.testBit 0 && !e.testBit 1 then State.walkReads s va r (pteNext e) else [])

/-- The entries that a walk of an address reads in a context's tables. -/
def State.walkOf (s : State) (c : CtxRec) (va : Nat) : List Nat :=
  if va / 2 ^ (39 + c.rb) != 0 then [] else s.walkReads va c.levels c.ptroot

/-- Whether a walk meets an entry that it may not read (R406, R418). -/
def State.walkBad (s : State) (c : CtxRec) (va : Nat) : Bool := (s.walkOf c va).any (fun a => !s.tableOk a)

/-- A TLB entry that covers an address of a context (R411). -/
def TlbEntry.covers (e : TlbEntry) (part : Nat) (c : CtxRec) (va : Nat) : Bool :=
  e.part == part && e.pasid == c.pasid && e.gen == c.gen && e.page == va / 2 ^ e.size

/-- The TLB entry that serves an address for cluster `cl`: of its L1 TLB, else of its facet's L2 TLB, where one does (R411, R412). -/
def State.tlbFor (s : State) (cl part : Nat) (c : CtxRec) (va : Nat) : Option TlbEntry :=
  match s.tlb.find? (fun e => e.place == cl && e.covers part c va) with
  | some e => if Config.tlbHit s.ticket then some e else none
  | none => match s.tlb.find? (fun e => e.place == 128 + cl / 8 && e.covers part c va) with
    | some e => if Config.tlbHit s.ticket then some e else none
    | none => none

/-- The leaf a translation uses, its shift, whether a TLB gave it, and the host's translations that stand with it: of a TLB entry, else of a
walk (R411, R412, R415). -/
def State.leafOf (s : State) (cl part : Nat) (c : CtxRec) (va : Nat) : Option (Nat × Nat × Bool × Nat) :=
  match s.tlbFor cl part c va with
  | some e => some (e.pte, e.size, true, e.host)
  | none => (s.walk c va).map (fun x => (x.1, x.2, false, s.hosted))

/-- Where a translated access goes. -/
inductive XRes where
  | fault (c : FaultClass) (cause : Nat)
  | ok (key : Nat) (home : Home) (slot : Option Nat) (pte shift : Nat) (hit : Bool)

/-- Whether a leaf permits an access (R410). -/
def ptePermits (e : Nat) : AccKind → Bool
  | .load => e.testBit 2
  | .store => e.testBit 3
  | .rmw => e.testBit 2 && e.testBit 3
  | .fetch => e.testBit 4
  | .hint => true

/-- The master of a context's requests (R416). -/
def masterOf (part vf : Nat) : Nat := 64 * part + vf

/-- The entry of a master at a target (R416). -/
def State.accEntry (s : State) (target master : Nat) : AccEntry := SMap.getD s.access (target * 1024 + master) AccEntry.zero

/-- Whether an access-table entry admits an access to a 64 KiB unit (R416). -/
def AccEntry.admits (e : AccEntry) (k : AccKind) (unit : Nat) : Bool :=
  e.v && Nat.ble e.base unit && Nat.ble unit e.lim &&
    (match k with | .load => e.r | .fetch => e.r | .store => e.w | .rmw => e.a | .hint => true)

/-- A leaf's key slot when it is usable: granted and loaded (R410, R419). -/
def State.slotOk (s : State) (p : Part) (e : Nat) : Bool :=
  !pteEnc e || (p.keygrant.testBit (pteKey e) && (SMap.find s.keys.slots (pteKey e)).isSome)

/-- The checks of a device-virtual access: translation, permissions, key, host page and access table (R409 to R419).
A walk that meets an entry outside HBM4 is an access fault (R406). Where the policy marks host pages pageable a host translation that is
missing awaits a page request, cause 1; one in error has cause 2 (R415). -/
def State.mapVa (s : State) (cl part : Nat) (c : CtxRec) (va : Nat) (k : AccKind) : XRes :=
  match s.leafOf cl part c va with
  | none => if s.walkBad c va then .fault .access 0 else .fault .translation 0
  | some (e, sh, hit, host) =>
    if !ptePermits e k then .fault .access (if k = .fetch then 1 else 0)
    else if !s.slotOk (s.part part) e then .fault .access 0
    else
      let a := pteFrame e + va % 2 ^ sh
      if pteHost e then
        if Config.hostError host c.pasid (a / 65536) then .fault .translation 2
        else match Config.hostPage host c.pasid (a / 65536) with
        | none => .fault .translation (if c.pgpol / 2 % 2 = 1 then 1 else 2)
        | some h => .ok (hostKey + h * 65536 + a % 65536) .host none e sh hit
      else if !paOk a then .fault .access 0
      else if !(s.accEntry (sliceOf a) (masterOf part c.vf)).admits k (a / 65536) then .fault .access 0
      else .ok a (.slice (sliceOf a)) (if pteEnc e then some (pteKey e) else none) e sh hit

/-- Bytes at a device-virtual address as the device itself reads them: its own reads are not checked against access
tables (R416), but pass the L2's keys as any do (R417, R418). -/
def State.readVa (s : State) (c : CtxRec) (va n : Nat) : Option Nat :=
  match s.walk c va with
  | none => none
  | some (e, sh) =>
    let a := pteFrame e + va % 2 ^ sh
    let slot := if pteEnc e then some (pteKey e) else none
    if pteHost e || !paOk a || s.otherSlot a slot then none else some (s.viewN a n slot)

/-! ### Windows (R278, R369) -/

/-- A window-table entry. -/
structure WinEntry where
  base : Nat
  limit : Nat
  key  : Nat
  peer : Nat
  at'  : Bool
  wr   : Bool
  rd   : Bool

/-- The valid entry of a handle; one with nonzero reserved bits or a misaligned base counts as invalid (R369). -/
def State.winEntry (s : State) (c : CtxRec) (h : Nat) : Option WinEntry :=
  if Nat.ble c.winlen h then none
  else match s.readVa c (c.winbase + 32 * h) 32 with
  | none => none
  | some e =>
    let base := e / 2 ^ 192
    if e % 2 ^ 96 != 0 || e.testBit 191 || !e.testBit 96 || base % 64 != 0 then none
    else some { base := base, limit := e / 2 ^ 144 % 2 ^ 47, key := e / 2 ^ 112 % 2 ^ 32, peer := e / 2 ^ 100 % 4096,
                at' := e.testBit 99, wr := e.testBit 98, rd := e.testBit 97 }

/-- Whether a window's permissions allow an access: read-modify-writes, pool words and line locks need AT (R275, R278,
R369). -/
def WinEntry.permits (w : WinEntry) : AccKind → Bool
  | .load => w.rd
  | .store => w.wr
  | .rmw => w.at'
  | .fetch => false
  | .hint => true

/-- Where a window offset leads: the frame that the peer reaches by the entry's key at base + WOFS (R106, R370; log entry 10). -/
def WinEntry.place (w : WinEntry) (wofs : Nat) : Nat :=
  let va := (w.base + wofs) % 2 ^ 64
  peerKey + (w.peer * 2 ^ 41 + Config.peerFrame w.peer w.key (va / 65536) % 2 ^ 41) * 65536 + va % 65536

/-! ### Fabric ports (R468) -/

/-- The enabled planes in order, and the plane of a windowed address, none where its port is down (R468). -/
def planesOf (m : Nat) : List Nat := (List.range 32).filter (fun n => m.testBit n)
def State.planeOf (s : State) (a : DWord) : Option Nat :=
  let l := planesOf s.fleet.planeen
  match l[adHash a % l.length]? with
  | some n => if s.fleet.down.contains n then none else some n
  | none => none

/-- The router at which the port of a windowed address lies (R376; log entry 10). -/
def State.portOf (s : State) (a : DWord) : Nat := Config.portRouter ((s.planeOf a).getD (adHash a % 32)) % 128

/-! ### Regions (R105, R106) -/

/-- Whether `n` bytes at an offset lie in a team's cluster-memory regions: its launch's allocation and its attached
segments on its cluster (R105). -/
def State.inCluster (s : State) (t : Team) (o n : Nat) : Bool :=
  let inside := fun (b u : Nat) => Nat.ble b o && Nat.ble (o + n) (b + u * 65536)
  Nat.ble (o + n) 6291456 &&
    ((match t.cmofs with | some b => inside b t.kernel.cmem | none => false) ||
     t.attach.any (fun i => match SMap.find s.segs i with
       | some g => !g.chip && g.cluster == t.cluster && inside g.off g.units
       | none => false))

/-- The same of the chip scratchpad (R105). -/
def State.inChip (s : State) (t : Team) (o n : Nat) : Bool :=
  let inside := fun (b u : Nat) => Nat.ble b o && Nat.ble (o + n) (b + u * 65536)
  Nat.ble (o + n) (16777216 * (facetsOf (s.part t.part).facets).length) &&
    ((match t.chofs with | some b => inside b t.kernel.chip | none => false) ||
     t.attach.any (fun i => match SMap.find s.segs i with
       | some g => g.chip && inside g.off g.units
       | none => false))

/-- The 64 KiB unit of its bank that a chip-scratchpad offset lies in: a bank holds 4 KiB of each unit of its facet, 1 MiB in all (R368, R416). -/
def bankUnit (o : Nat) : Nat := o % 16777216 / 65536 / 16

/-- The lane-private area of a lane in its context's pool (R474). -/
def laneArea (t : Team) (c : CtxRec) (gnum lane : Nat) : Nat :=
  c.lpbase * 65536 + t.lpOff * 65536 + (32 * gnum + lane) * 4 * t.kernel.priv

/-- Where an access ends up, or its fault; a windowed access through an entry that is not verified waits for the peer
(R334). A windowed place stands with its handle. -/
inductive Place where
  | fault (c : FaultClass) (cause : Nat)
  | at' (key : Nat) (home : Home) (slot : Option Nat) (page : Option (Nat × Nat × Bool))
  | peer (handle : Nat) (key : Nat)

/-- A translation as a place. -/
def XRes.place : XRes → Place
  | .fault c k => .fault c k
  | .ok key home slot pte sh hit => .at' key home slot (some (pte, sh, hit))

/-- Steps 3 to 5 of the checks of a cleared lane: range and reach, the window checks, translation and access table (R106,
R278, R333). `gnum` and `lane` place a lane-private access. -/
def State.placeOf (s : State) (tid gnum lane : Nat) (a : DWord) (n : Nat) (k : AccKind) : Place :=
  let t := s.team tid
  let o := adOfs a
  if adWin a then
    match s.winEntry t.crec (adHandle a) with
    | none => .fault .window 0
    | some w =>
      if Nat.blt w.limit (adWofs a + n - 1) then .fault .window 1
      else if !w.permits k then .fault .access 0
      else .peer (adHandle a) (w.place (adWofs a))
  else match adSpace a with
  | 0 => (s.mapVa t.cluster t.part t.crec o k).place
  | 1 => if Nat.blt (t.kernel.scratch * 256) (o + n) then .fault .access 0
         else .at' (scratchKey tid + o) (.scratch tid) none none
  | 2 => if !s.inCluster t o n then .fault .access 0 else .at' (clusterKey t.cluster + o) (.cluster t.cluster) none none
  | 3 =>
    if !s.inChip t o n then .fault .access 0
    else
      let (f, b) := chipPlace (s.part t.part) o
      if !(s.accEntry (256 + 16 * f + b) (masterOf t.part t.crec.vf)).admits k (bankUnit o) then .fault .access 0
      else .at' (chipKey f + o % 16777216) (.slice (16 * f + b)) none none
  | _ =>
    if Nat.blt (4 * t.kernel.priv) (o + n) then .fault .access 0
    else (s.mapVa t.cluster t.part t.crec (laneArea t t.crec gnum lane + o) k).place

/-! ### Range locks (R128, R129) -/

/-- Whether a registered range and the addresses of a team are of one view: a scratchpad and lane-private memory belong to their team,
device virtual addresses and windows to a context; the lanes of a team are not told apart, since a range is held in the addresses as
they are formed (DEDUCED, log entry 20). -/
def State.sameView (s : State) (r : RangeLock) (t : Nat) (region : Nat) : Bool :=
  r.region == region &&
    (if region == 1 || region == 4 then r.team == t
     else if region == 0 || Nat.ble 8 region then (s.team r.team).ctx == (s.team t).ctx
     else true)

/-- The cause of a range-lock fault of an access by a group (R129, R340). -/
def State.rangeCause (s : State) (core t : Nat) (a : DWord) (n : Nat) (writes : Bool) : Option Nat :=
  let hits := fun (dst : Bool) => (s.core core).ranges.any (fun r =>
    r.dst == dst && s.sameView r t (adRegion a) && Nat.blt r.lo (adPlace a + n) && Nat.blt (adPlace a) r.hi)
  if hits true then some 0 else if writes && hits false then some 1 else none

/-- A barrier word of a team, whether it is live, and whether bytes of its scratchpad touch a live one (R127, R291). -/
def State.barWord (s : State) (t bar : Nat) : DWord := BitVec.ofNat 64 (Memory.readN s.mem (scratchKey t + 8 * bar) 8)
def barLive (w : DWord) : Bool := w.toNat % 128 != 0
def State.hitsLive (s : State) (t : Nat) (lo hi : Nat) : Bool :=
  (List.range (s.team t).kernel.barriers).any (fun b =>
    Nat.blt (8 * b) hi && Nat.blt lo (8 * b + 8) && barLive (s.barWord t b))

end Sys2Proof.Machine
end

