-- ==== Sys2Proof/Machine/Vector.lean ====
section
/-! DEFINITION. Vector integer words, packing, permutation, carry-less multiply and retagging (R223 to R238, R250, R251). -/

namespace Sys2Proof.Machine

/-- A lane-class word: class `k` for each active lane, LANEOPS, and SFLANES for class 5 (R142, R223, R442). -/
def laneSpec (us : List Use) (fmt : Group → Option Nat) (k : Group → Nat) : WordSpec :=
  { uses := us, fmt := fmt, cls := fun s => [(k s.src, countOf s.src.em)],
    evs := fun s => (0x06, countOf s.src.em) :: if k s.src = 5 then [(0x07, countOf s.src.em)] else [] }

/-- The write of a vector destination in the active lanes; with em = 0 nothing changes (R35, R55, R223). -/
def State.laneWr (d : Nat) (t : Tag) (em : Word) (f : Nat → Word) (s : State) : State :=
  if em = 0 then s else s.wrV d t em f

/-- The write of a scalar by a lane word; with em = 0 nothing changes (R35, R224). -/
def State.laneWrS (d : Nat) (em : Word) (x : Word) (s : State) : State := if em = 0 then s else s.wrS d x

/-- A vector integer word of two sources (R225, R227). -/
def vecBin (f : Word → Word → Word) (d a b : Nat) (fa fb : Bool) (s : State) : Host.Outcome State Fault Refusal :=
  issueWord (laneSpec [srcV a fa, srcV b fb, dstV d] (fmtInt [a, b]) (fun _ => 2))
    (State.laneWr d .i32 s.src.em (fun i => f (s.src.vLane a i) (s.src.vLane b i))) s

/-- A vector integer word of one source (R225, R227, R231, R232, R234). -/
def vecUn (f : Word → Word) (d a : Nat) (fa : Bool) (s : State) : Host.Outcome State Fault Refusal :=
  issueWord (laneSpec [srcV a fa, dstV d] (fmtInt [a]) (fun _ => 2))
    (State.laneWr d .i32 s.src.em (fun i => f (s.src.vLane a i))) s

/-- A vector integer word of a vector and a scalar source (R236). -/
def vecSc (f : Word → Word → Word) (d a b : Nat) (fa fb : Bool) (s : State) : Host.Outcome State Fault Refusal :=
  issueWord (laneSpec [srcV a fa, srcS b fb, dstV d] (fmtInt [a]) (fun _ => 2))
    (State.laneWr d .i32 s.src.em (fun i => f (s.src.vLane a i) (s.src.sVal b))) s

/-- VADDC and VSUBB: a sum of 33 bits into a pair, whose odd register holds the carry, which is a source as well (R228). -/
def vecCarry (f : Word → Word → Bool → Nat) (d a b : Nat) (fa fb : Bool) (s : State) :
    Host.Outcome State Fault Refusal :=
  issueWord (laneSpec [srcV a fa, srcV b fb, srcV (d + 1) false, dstVP d] (fmtInt [a, b, d + 1]) (fun _ => 2))
    (fun s' =>
      let t := fun i => f (s.src.vLane a i) (s.src.vLane b i) (bitOf (s.src.vLane (d + 1) i) 0)
      (s'.laneWr d .i32 s.src.em (fun i => BitVec.ofNat 32 (t i))).laneWr (d + 1) .i32 s.src.em
        (fun i => BitVec.ofNat 32 (t i / 4294967296))) s

/-- A vector field word, whose field must lie within the word (R233). -/
def vecField (us : List Use) (fmt : Group → Option Nat) (pos w1 : Nat) : WordSpec :=
  { laneSpec us fmt (fun _ => 2) with opnd := fun _ => Nat.blt 32 (pos + w1 + 1) }

/-- VCLMUL: one half of the carry-less product of two pairs (R250). -/
def vecClmul (f : Nat → DWord) (d a b : Nat) (fa fb : Bool) (s : State) : Host.Outcome State Fault Refusal :=
  issueWord (laneSpec [srcVP a fa, srcVP b fb, dstVP d] (fmtInt [a, a + 1, b, b + 1]) (fun _ => 5))
    (fun s' =>
      let p := fun i => f (clmul (s.src.vPair a i) (s.src.vPair b i))
      (s'.laneWr d .i32 s.src.em (fun i => lo32 (p i))).laneWr (d + 1) .i32 s.src.em (fun i => hi32 (p i))) s

/-- Byte or half `k` of a pattern, extended (R236). -/
def unpackB (a b : Word) : Nat := byteOf a (b.toNat % 4)
def unpackH (a b : Word) : Nat := halfOf a (b.toNat % 2)

/-- VADD (R227). -/
def execVadd (d a b : Nat) (fa fb : Bool) (s : State) : Host.Outcome State Fault Refusal :=
  vecBin (· + ·) d a b fa fb s

/-- VSUB (R227). -/
def execVsub (d a b : Nat) (fa fb : Bool) (s : State) : Host.Outcome State Fault Refusal :=
  vecBin (· - ·) d a b fa fb s

/-- VADDC (R228). -/
def execVaddc (d a b : Nat) (fa fb : Bool) (s : State) : Host.Outcome State Fault Refusal :=
  vecCarry addc d a b fa fb s

/-- VSUBB (R228). -/
def execVsubb (d a b : Nat) (fa fb : Bool) (s : State) : Host.Outcome State Fault Refusal :=
  vecCarry subb d a b fa fb s

/-- VMUL (R227). -/
def execVmul (d a b : Nat) (fa fb : Bool) (s : State) : Host.Outcome State Fault Refusal :=
  vecBin (· * ·) d a b fa fb s

/-- VMULH.s (R227). -/
def execVmulhS (d a b : Nat) (fa fb : Bool) (s : State) : Host.Outcome State Fault Refusal :=
  vecBin mulhS d a b fa fb s

/-- VMULH.z (R227). -/
def execVmulhZ (d a b : Nat) (fa fb : Bool) (s : State) : Host.Outcome State Fault Refusal :=
  vecBin mulhZ d a b fa fb s

/-- VAND (R227). -/
def execVand (d a b : Nat) (fa fb : Bool) (s : State) : Host.Outcome State Fault Refusal :=
  vecBin (· &&& ·) d a b fa fb s

/-- VOR (R227). -/
def execVor (d a b : Nat) (fa fb : Bool) (s : State) : Host.Outcome State Fault Refusal :=
  vecBin (· ||| ·) d a b fa fb s

/-- VXOR (R227). -/
def execVxor (d a b : Nat) (fa fb : Bool) (s : State) : Host.Outcome State Fault Refusal :=
  vecBin (· ^^^ ·) d a b fa fb s

/-- VANDN (R227). -/
def execVandn (d a b : Nat) (fa fb : Bool) (s : State) : Host.Outcome State Fault Refusal :=
  vecBin (fun a b => a &&& ~~~b) d a b fa fb s

/-- VSHL (R227). -/
def execVshl (d a b : Nat) (fa fb : Bool) (s : State) : Host.Outcome State Fault Refusal :=
  vecBin shl d a b fa fb s

/-- VSHR (R227). -/
def execVshr (d a b : Nat) (fa fb : Bool) (s : State) : Host.Outcome State Fault Refusal :=
  vecBin shr d a b fa fb s

/-- VSRA (R227). -/
def execVsra (d a b : Nat) (fa fb : Bool) (s : State) : Host.Outcome State Fault Refusal :=
  vecBin sra d a b fa fb s

/-- VMIN.s (R227). -/
def execVminS (d a b : Nat) (fa fb : Bool) (s : State) : Host.Outcome State Fault Refusal :=
  vecBin minS d a b fa fb s

/-- VMIN.z (R227). -/
def execVminZ (d a b : Nat) (fa fb : Bool) (s : State) : Host.Outcome State Fault Refusal :=
  vecBin minZ d a b fa fb s

/-- VMAX.s (R227). -/
def execVmaxS (d a b : Nat) (fa fb : Bool) (s : State) : Host.Outcome State Fault Refusal :=
  vecBin maxS d a b fa fb s

/-- VMAX.z (R227). -/
def execVmaxZ (d a b : Nat) (fa fb : Bool) (s : State) : Host.Outcome State Fault Refusal :=
  vecBin maxZ d a b fa fb s

/-- VABS (R227). -/
def execVabs (d a : Nat) (fa : Bool) (s : State) : Host.Outcome State Fault Refusal :=
  vecUn absW d a fa s

/-- VPOPC (R227). -/
def execVpopc (d a : Nat) (fa : Bool) (s : State) : Host.Outcome State Fault Refusal :=
  vecUn popc d a fa s

/-- VCLZ (R227). -/
def execVclz (d a : Nat) (fa : Bool) (s : State) : Host.Outcome State Fault Refusal :=
  vecUn clz d a fa s

/-- VBREV (R227). -/
def execVbrev (d a : Nat) (fa : Bool) (s : State) : Host.Outcome State Fault Refusal :=
  vecUn brev d a fa s

/-- VMOV (R227). -/
def execVmov (d a : Nat) (fa : Bool) (s : State) : Host.Outcome State Fault Refusal :=
  vecUn id d a fa s

/-- VSEL: lanes whose bit of `b` is 0 keep `d` (R225, R229). -/
def execVsel (d a b : Nat) (fa fb : Bool) (s : State) : Host.Outcome State Fault Refusal :=
  issueWord (laneSpec [srcV a fa, srcS b fb, updV d] (fmtInt [a, d]) (fun _ => 2))
    (State.laneWr d .i32 s.src.em (fun i => if bitOf (s.src.sVal b) i then s.src.vLane a i else s.src.vLane d i)) s

/-- VBCAST (R229). -/
def execVbcast (d a : Nat) (fa : Bool) (s : State) : Host.Outcome State Fault Refusal :=
  issueWord (laneSpec [srcS a fa, dstV d] (fun _ => none) (fun _ => 2))
    (State.laneWr d .i32 s.src.em (fun _ => s.src.sVal a)) s

/-- VLANE: the lane is read as it stands, active or not (R224, R229). -/
def execVlane (d a b : Nat) (fa fb : Bool) (s : State) : Host.Outcome State Fault Refusal :=
  issueWord (laneSpec [srcV a fa, srcS b fb, dstS d] (fmtInt [a]) (fun _ => 2))
    (State.laneWrS d s.src.em (s.src.vLane a ((s.src.sVal b).toNat % 32))) s

/-- VCMP (R224, R230). -/
def execVcmp (cc d a b : Nat) (fa fb : Bool) (s : State) : Host.Outcome State Fault Refusal :=
  issueWord (laneSpec [srcV a fa, srcV b fb, dstS d] (fmtInt [a, b]) (fun _ => 2))
    (State.laneWrS d s.src.em (maskOf (fun i => s.src.active i && intCond cc (s.src.vLane a i) (s.src.vLane b i)))) s

/-- VADD with an immediate (R231). -/
def execVaddImm (d a : Nat) (fa : Bool) (imm : Nat) (s : State) : Host.Outcome State Fault Refusal :=
  vecUn (fun x => x + simm 12 imm) d a fa s

/-- VSHL by a constant (R232). -/
def execVshlImm (d a : Nat) (fa : Bool) (n : Nat) (s : State) : Host.Outcome State Fault Refusal :=
  vecUn (fun x => shl x (BitVec.ofNat 32 n)) d a fa s

/-- VSHR by a constant (R232). -/
def execVshrImm (d a : Nat) (fa : Bool) (n : Nat) (s : State) : Host.Outcome State Fault Refusal :=
  vecUn (fun x => shr x (BitVec.ofNat 32 n)) d a fa s

/-- VSRA by a constant (R232). -/
def execVsraImm (d a : Nat) (fa : Bool) (n : Nat) (s : State) : Host.Outcome State Fault Refusal :=
  vecUn (fun x => sra x (BitVec.ofNat 32 n)) d a fa s

/-- VBFE.s (R202, R233). -/
def execVbfeS (d a : Nat) (fa : Bool) (w1 pos : Nat) (s : State) : Host.Outcome State Fault Refusal :=
  issueWord (vecField [srcV a fa, dstV d] (fmtInt [a]) pos w1)
    (State.laneWr d .i32 s.src.em (fun i => bfeS (s.src.vLane a i) pos (w1 + 1))) s

/-- VBFE.z (R202, R233). -/
def execVbfeZ (d a : Nat) (fa : Bool) (w1 pos : Nat) (s : State) : Host.Outcome State Fault Refusal :=
  issueWord (vecField [srcV a fa, dstV d] (fmtInt [a]) pos w1)
    (State.laneWr d .i32 s.src.em (fun i => bfeZ (s.src.vLane a i) pos (w1 + 1))) s

/-- VBFI (R202, R233). -/
def execVbfi (d a : Nat) (fa : Bool) (w1 pos : Nat) (s : State) : Host.Outcome State Fault Refusal :=
  issueWord (vecField [srcV a fa, updV d] (fmtInt [a, d]) pos w1)
    (State.laneWr d .i32 s.src.em (fun i => bfi (s.src.vLane d i) (s.src.vLane a i) pos (w1 + 1))) s

/-- VSAT.s8 (R83, R234). -/
def execVsatS8 (d a : Nat) (fa : Bool) (s : State) : Host.Outcome State Fault Refusal :=
  vecUn (fun x => BitVec.ofInt 32 (satS x.toInt 8)) d a fa s

/-- VSAT.z8 (R83, R234). -/
def execVsatZ8 (d a : Nat) (fa : Bool) (s : State) : Host.Outcome State Fault Refusal :=
  vecUn (fun x => BitVec.ofInt 32 (satZ x.toInt 8)) d a fa s

/-- VSAT.s16 (R83, R234). -/
def execVsatS16 (d a : Nat) (fa : Bool) (s : State) : Host.Outcome State Fault Refusal :=
  vecUn (fun x => BitVec.ofInt 32 (satS x.toInt 16)) d a fa s

/-- VSAT.z16 (R83, R234). -/
def execVsatZ16 (d a : Nat) (fa : Bool) (s : State) : Host.Outcome State Fault Refusal :=
  vecUn (fun x => BitVec.ofInt 32 (satZ x.toInt 16)) d a fa s

/-- VPACK.b8 (R235). -/
def execVpackB8 (d a b : Nat) (fa fb : Bool) (s : State) : Host.Outcome State Fault Refusal :=
  vecBin packB8 d a b fa fb s

/-- VPACK.b16 (R235). -/
def execVpackB16 (d a b : Nat) (fa fb : Bool) (s : State) : Host.Outcome State Fault Refusal :=
  vecBin packB16 d a b fa fb s

/-- VUNPACK.s8 (R236). -/
def execVunpackS8 (d a b : Nat) (fa fb : Bool) (s : State) : Host.Outcome State Fault Refusal :=
  vecSc (fun x y => (BitVec.ofNat 8 (unpackB x y)).signExtend 32) d a b fa fb s

/-- VUNPACK.z8 (R236). -/
def execVunpackZ8 (d a b : Nat) (fa fb : Bool) (s : State) : Host.Outcome State Fault Refusal :=
  vecSc (fun x y => BitVec.ofNat 32 (unpackB x y)) d a b fa fb s

/-- VUNPACK.s16 (R236). -/
def execVunpackS16 (d a b : Nat) (fa fb : Bool) (s : State) : Host.Outcome State Fault Refusal :=
  vecSc (fun x y => (BitVec.ofNat 16 (unpackH x y)).signExtend 32) d a b fa fb s

/-- VUNPACK.z16 (R236). -/
def execVunpackZ16 (d a b : Nat) (fa fb : Bool) (s : State) : Host.Outcome State Fault Refusal :=
  vecSc (fun x y => BitVec.ofNat 32 (unpackH x y)) d a b fa fb s

/-- VPERMB (R237). -/
def execVpermb (d a b : Nat) (fa fb : Bool) (s : State) : Host.Outcome State Fault Refusal :=
  vecBin permB d a b fa fb s

/-- VMAD (R238). -/
def execVmad (d a b : Nat) (fa fb : Bool) (s : State) : Host.Outcome State Fault Refusal :=
  issueWord (laneSpec [srcV a fa, srcV b fb, updV d] (fmtInt [a, b, d]) (fun _ => 2))
    (State.laneWr d .i32 s.src.em (fun i => s.src.vLane a i * s.src.vLane b i + s.src.vLane d i)) s

/-- VCLMUL.lo (R250). -/
def execVclmulLo (d a b : Nat) (fa fb : Bool) (s : State) : Host.Outcome State Fault Refusal :=
  vecClmul (fun p => BitVec.ofNat 64 p) d a b fa fb s

/-- VCLMUL.hi (R250). -/
def execVclmulHi (d a b : Nat) (fa fb : Bool) (s : State) : Host.Outcome State Fault Refusal :=
  vecClmul (fun p => BitVec.ofNat 64 (p / 18446744073709551616)) d a b fa fb s

/-- VTAG: any tag in, the named tag out, charged class 0 alone; a reserved tag is refused (R69, R142, R251). -/
def execVtag (tag d a : Nat) (fa : Bool) (s : State) : Host.Outcome State Fault Refusal :=
  issueWord { uses := [srcV a fa, dstV d], opnd := fun _ => Nat.blt 10 tag, evs := fun s => [(0x06, countOf s.src.em)] }
    (State.laneWr d ((tagOf? tag).getD .raw) s.src.em (fun i => s.src.vLane a i)) s

end Sys2Proof.Machine
end

