-- ==== Sys2Proof/Machine/Memory.lean ====
section
/-! DEFINITION. The issue of memory words: loads, stores, uniform accesses, line hints, condition monitors, line locks and
window checks (R252 to R262, R272, R275, R276, R279). An issued word waits for its clearance (R333). -/

namespace Sys2Proof.Machine

/-- The bytes of one access of a kind, which are its alignment (R106). -/
def MemKind.bytes : MemKind → Nat
  | .ld n _ => n
  | .st n => n
  | .cadd => 8
  | .crd _ => 8
  | .qpush => 64
  | .qpop => 64
  | .lkl => 1
  | .ulkl => 1
  | .pref => 1
  | .lflush => 1
  | _ => 4

/-- What a kind asks of a page (R116, R275, R410). -/
def MemKind.acc : MemKind → AccKind
  | .ld _ _ => .load
  | .ldmc _ => .load
  | .waitc _ => .load
  | .pref => .load
  | .lflush => .hint
  | .st _ => .store
  | _ => .rmw

/-- The ORD values a kind accepts (R116). -/
def MemKind.ords : MemKind → List Nat
  | .ld _ _ => [0, 1]
  | .ldmc _ => [0, 1]
  | .waitc _ => [0, 1]
  | .lkl => [0, 1]
  | .st _ => [0, 2]
  | .ulkl => [0, 2]
  | .pref => [0]
  | .lflush => [0]
  | _ => [0, 1, 2, 3]

/-- The order a word acts with: a push is at least a release, a pop at least an acquire, and the completion of a WAITC an
acquire where ORD says so (R116). -/
def MemKind.ord (k : MemKind) (pol : Word) : Nat :=
  match k with
  | .qpush => polOrd pol ||| 2
  | .qpop => polOrd pol ||| 1
  | .segatt => 1
  | .meter _ => 0
  | .xchg => 0
  | .fence => 0
  | _ => polOrd pol

/-- Whether a kind writes memory, for barrier words, range locks and page capture: a pool word is a read-modify-write (R116, R127,
R129). -/
def MemKind.writes : MemKind → Bool
  | .st _ => true
  | .atom _ => true
  | .fatom _ => true
  | .cadd => true
  | .crd r => r
  | .qpush => true
  | .qpop => true
  | .own => true
  | _ => false

/-- Whether a kind is an access to memory (R116, R164, R287, R315). -/
def MemKind.isAccess : MemKind → Bool
  | .meter _ => false
  | .xchg => false
  | .fence => false
  | .segatt => false
  | _ => true

/-- Pool words, and hints (R132, R255). -/
def MemKind.isPool : MemKind → Bool
  | .qpush => true
  | .qpop => true
  | _ => false
def MemKind.isHint : MemKind → Bool
  | .pref => true
  | .lflush => true
  | _ => false

/-- The operations of a group that are still outstanding, but for the memory word of the set that executes. -/
def State.opsOf (s : State) (gid : Nat) : SMap MemOp := SMap.filter s.ops (fun k o => o.gid == gid && s.rest != some k)

/-- Whether two paths are one, or one holds the other's branch: what the first has issued then precedes, in program order, what the
second issues later (R115). -/
def related (p q : List Nat) : Bool := p.isPrefixOf q || q.isPrefixOf p

/-- Whether an earlier operation is one that a release of a path waits for: any access of its path, and any store of its group (R115,
R120). -/
def MemOp.precedes (x : MemOp) (path : List Nat) : Bool := x.kind.isAccess && (related x.path path || x.kind.writes)

/-- Whether an operation is of a path that a JOIN of the group has reconverged, from before that JOIN (R115, R117). -/
def Group.drains (g : Group) (id : Nat) (x : MemOp) : Bool :=
  g.drain.any (fun d => Nat.blt id d.2 && d.1.isPrefixOf x.path && x.path != d.1)

/-- The earlier accesses of its group that a release by the word that executes waits for (R115, R120). -/
def State.earlier (s : State) : SMap MemOp :=
  SMap.filter (s.opsOf s.cur) (fun i x => x.precedes s.src.path || (x.kind.isAccess && s.src.drains i x))

/-- Whether a later memory word must wait: for the clearance of an earlier one, for an acquire of its path (R121), or after a JOIN for
every access of the paths that it reconverged (R117). -/
def State.memWait (s : State) : Bool :=
  s.src.clear.isSome || (s.opsOf s.cur).any (fun x =>
    (x.2.kind.isAccess && s.src.drains x.1 x.2) ||
    (isAcq (x.2.kind.ord x.2.pol) && related x.2.path s.src.path))

/-- A memory word: its kind, whether it is uniform, its address and policy registers, its data per lane and comparand, its
destinations and status, and the tag it writes. -/
structure MemForm where
  kind : MemKind
  unif : Bool
  base : Nat
  idx  : Nat
  pol  : Nat
  data : Group → Nat → DWord := fun _ _ => 0
  cmp  : Group → Nat → Word := fun _ _ => 0
  dst  : List (RegFile × Nat) := []
  stat : Option (RegFile × Nat) := none
  tag  : Word → Tag := fun _ => .i32

/-- The lanes a word makes accesses for: the active lanes, or lane 0 alone for a uniform word (R252). -/
def MemForm.lanes (f : MemForm) (g : Group) : List Nat := if f.unif then [0] else lanesOf g.em

/-- The address of one of its lanes (R252). -/
def MemForm.addr (f : MemForm) (g : Group) (i : Nat) : DWord :=
  if f.unif then uniAddr g f.base f.idx else laneAddr g f.base f.idx i

/-- A lane as the word issues it. -/
def MemForm.req (f : MemForm) (g : Group) (i : Nat) : LaneReq :=
  { lane := i, addr := f.addr g i, data := f.data g i, cmp := f.cmp g i, st := .formed, key := 0, home := .scratch 0,
    slot := none, res := 0, stat := 0, place := 0, since := 0, cost := [], paid := false }

/-- The fault of a store whose policy names another tag than its data's (R69, R258, R340). -/
def storeFmt (f : MemForm) (regs : List Nat) (s : State) : Option FaultInfo :=
  let p := s.src.sVal f.pol
  match f.kind with
  | .st _ => if polFmt p != 0 && !f.unif && !regs.all (fun n => tagCode (s.src.tag n) == polFmt p)
      then some (s.faultAt .format 1 0 none) else none
  | _ => none

/-- The faults of values at issue, step 7 of R178: the policy operand (R110), the format of a store's data, which depends on the policy's
value (R258; DESIGN CHOICE, log entry 47), and for a uniform address steps 1 and 2 of R106, its lane-private form taking the place of
step 3 (R107, R260). -/
def memFault (f : MemForm) (regs : List Nat) (s : State) : Option FaultInfo :=
  let p := s.src.sVal f.pol
  let a := uniAddr s.src f.base f.idx
  if !polOk f.kind.ords (match f.kind with | .ldmc _ => true | _ => false) p then some (s.faultOf .illegalOperand)
  else match storeFmt f regs s with
  | some x => some x
  | none =>
    if f.unif then
      match decodeFault a f.kind.bytes with
      | some c => some (s.faultAt c 0 0 (some a))
      | none => none
    else none

/-- Whether a kind marks its team dirty: a release or a read-modify-write (R347). -/
def memDirty (f : MemForm) (s : State) : Bool :=
  (f.unif || s.src.em != 0) &&
    (isRel (f.kind.ord (s.src.sVal f.pol)) ||
      (match f.kind with
       | .atom _ => true | .fatom _ => true | .cadd => true | .crd r => r | .qpush => true | .qpop => true
       | .lkl => true | .ulkl => true | _ => false))

/-- The memory-port cycles of a word (R25, R442). -/
def portCycles (f : MemForm) (s : State) : Nat := if f.unif then 1 else max 1 ((countOf s.src.em + 7) / 8)

/-- The checks of a memory word, with its other register operands and format check. -/
def memWordSpec (f : MemForm) (us : List Use) (regs : List Nat) (fmt : Group → Option Nat) (fx : Bool) : WordSpec :=
  { uses := srcSP f.base fx :: (if f.unif then srcS f.idx fx else srcV f.idx fx) :: srcS f.pol fx :: us
    fmt := fmtBoth (fun g => if f.unif then none else fmtInt [f.idx] g) fmt
    value := memFault f regs
    wait := State.memWait
    evs := fun s => [(0x08, 1), (0x09, portCycles f s)]
    dirty := memDirty f }

/-- A destination that becomes full with 0 in every lane (R35, R66). -/
def Group.zeroReg (g : Group) (r : (RegFile × Nat) × Tag) : Group :=
  match r.1.1 with
  | .v => g.wrV r.1.2 r.2 (BitVec.allOnes 32) (fun _ => 0)
  | .s => g.wrS r.1.2 0

/-- A destination marked empty, with the tag it will hold (R62, R68). -/
def Group.emptyReg (g : Group) (r : (RegFile × Nat) × Tag) : Group :=
  match r.1.1 with
  | .v => g.emptyV r.1.2 r.2
  | .s => g.emptyS r.1.2

/-- Every register an operation writes, with the tag it takes: a status is I32 (R271). -/
def MemForm.outs (f : MemForm) (t : Tag) : List ((RegFile × Nat) × Tag) :=
  f.dst.map (fun r => (r, t)) ++ (match f.stat with | some r => [(r, .i32)] | none => [])

/-- The tag a destination held before the word. -/
def Group.oldTag (g : Group) (r : RegFile × Nat) : RegFile × Nat × Tag :=
  (r.1, r.2, match r.1 with | .v => g.tag r.2 | .s => .raw)

/-- The registers that a memory word had emptied, full again as they were. -/
def Group.undo (g : Group) (l : List (RegFile × Nat × Tag)) : Group :=
  l.foldl (fun g r => match r.1 with
    | .v => g.setVReg r.2.1 { (g.vReg r.2.1) with tag := r.2.2, full := true }
    | .s => g.setSReg r.2.1 { (g.sReg r.2.1) with full := true }) g

/-- The operation that a memory word becomes. -/
def MemForm.op (f : MemForm) (s : State) : MemOp :=
  { gid := s.cur, path := s.src.path, origin := none, team := s.src.team, ctx := s.myTeam.ctx, kind := f.kind, unif := f.unif,
    dst := f.dst, stat := f.stat,
    mask := s.src.em, pol := s.src.sVal f.pol, pos := { pa := s.src.pos.pa, w := s.issue.w }, start := s.src.pos,
    next := s.issue.next, lanes := (f.lanes s.src).map (f.req s.src), cleared := false,
    undo := (f.outs .raw).map (fun r => s.src.oldTag r.1), fail := none }

/-- The effect of a memory word at issue. With em = 0 a word of lane effect makes no access and its destinations become
full with 0 (R35, R256); else they are marked empty and the word awaits its clearance, or needs none (R261, R333). -/
def memEff (f : MemForm) (clears : Bool) (s0 s : State) : State :=
  let t := f.tag (s0.src.sVal f.pol)
  if s0.src.em = 0 && !f.unif then s.modG (fun g => (f.outs t).foldl Group.zeroReg g)
  else
    let id := s.ticket
    let s1 := s.modG (fun g =>
      { (f.outs t).foldl Group.emptyReg g with clear := if clears then some id else g.clear, drain := [] })
    ({ s1 with ops := SMap.set s1.ops id (f.op s0) }.tick).post 0 (.memoryWordClearance id)

/-- The issue of a memory word. -/
def memWord (f : MemForm) (us : List Use) (regs : List Nat) (fmt : Group → Option Nat) (fx : Bool) (s : State) :
    Host.Outcome State Fault Refusal :=
  issueWord (memWordSpec f us regs fmt fx) (memEff f true s) s

/-- No further format check. -/
def anyFmt : Group → Option Nat := fun _ => none

/-! ### Loads and stores (R257 to R260) -/

/-- LD of a width into one vector (R257). -/
def loadWord (n : Nat) (sx : Bool) (d base idx pol : Nat) (fx : Bool) (s : State) : Host.Outcome State Fault Refusal :=
  memWord { kind := .ld n sx, unif := false, base := base, idx := idx, pol := pol, dst := [(.v, d)], tag := polTag }
    [dstV d] [] anyFmt fx s

/-- LD.b32 (R257). -/
def execLdB32 (d base idx pol : Nat) (fx : Bool) (s : State) : Host.Outcome State Fault Refusal :=
  loadWord 4 false d base idx pol fx s

/-- LD.b64 into a pair (R56, R257). -/
def execLdB64 (d base idx pol : Nat) (fx : Bool) (s : State) : Host.Outcome State Fault Refusal :=
  memWord { kind := .ld 8 false, unif := false, base := base, idx := idx, pol := pol, dst := [(.v, d), (.v, d + 1)],
            tag := polTag } [dstVP d] [] anyFmt fx s

/-- LD.z8 (R257). -/
def execLdZ8 (d base idx pol : Nat) (fx : Bool) (s : State) : Host.Outcome State Fault Refusal :=
  loadWord 1 false d base idx pol fx s

/-- LD.s8 (R257). -/
def execLdS8 (d base idx pol : Nat) (fx : Bool) (s : State) : Host.Outcome State Fault Refusal :=
  loadWord 1 true d base idx pol fx s

/-- LD.z16 (R257). -/
def execLdZ16 (d base idx pol : Nat) (fx : Bool) (s : State) : Host.Outcome State Fault Refusal :=
  loadWord 2 false d base idx pol fx s

/-- LD.s16 (R257). -/
def execLdS16 (d base idx pol : Nat) (fx : Bool) (s : State) : Host.Outcome State Fault Refusal :=
  loadWord 2 true d base idx pol fx s

/-- ST of a width from one vector (R258). -/
def storeWord (n d base idx pol : Nat) (fx : Bool) (s : State) : Host.Outcome State Fault Refusal :=
  memWord { kind := .st n, unif := false, base := base, idx := idx, pol := pol,
            data := fun g i => (g.vLane d i).setWidth 64 } [srcV d fx] [d] anyFmt fx s

/-- ST.b8 (R258). -/
def execStB8 (d base idx pol : Nat) (fx : Bool) (s : State) : Host.Outcome State Fault Refusal :=
  storeWord 1 d base idx pol fx s

/-- ST.b16 (R258). -/
def execStB16 (d base idx pol : Nat) (fx : Bool) (s : State) : Host.Outcome State Fault Refusal :=
  storeWord 2 d base idx pol fx s

/-- ST.b32 (R258). -/
def execStB32 (d base idx pol : Nat) (fx : Bool) (s : State) : Host.Outcome State Fault Refusal :=
  storeWord 4 d base idx pol fx s

/-- ST.b64 from a pair (R258). -/
def execStB64 (d base idx pol : Nat) (fx : Bool) (s : State) : Host.Outcome State Fault Refusal :=
  memWord { kind := .st 8, unif := false, base := base, idx := idx, pol := pol, data := fun g i => g.vPair d i }
    [srcVP d fx] [d, d + 1] anyFmt fx s

/-- LDMC.b32: it may merge where MRG = 1 and ORD = 0 (R131, R259). -/
def execLdmcB32 (d base idx pol : Nat) (fx : Bool) (s : State) : Host.Outcome State Fault Refusal :=
  let p := s.src.sVal pol
  memWord { kind := .ldmc (polMrg p && polOrd p == 0), unif := false, base := base, idx := idx, pol := pol,
            dst := [(.v, d)], tag := polTag } [dstV d] [] anyFmt fx s

/-- LDS.b32 (R260). -/
def execLdsB32 (d base idx pol : Nat) (fx : Bool) (s : State) : Host.Outcome State Fault Refusal :=
  memWord { kind := .ld 4 false, unif := true, base := base, idx := idx, pol := pol, dst := [(.s, d)] } [dstS d] [] anyFmt
    fx s

/-- LDS.b64 (R260). -/
def execLdsB64 (d base idx pol : Nat) (fx : Bool) (s : State) : Host.Outcome State Fault Refusal :=
  memWord { kind := .ld 8 false, unif := true, base := base, idx := idx, pol := pol, dst := [(.s, d), (.s, d + 1)] }
    [dstSP d] [] anyFmt fx s

/-- STS.b32 (R260). -/
def execStsB32 (d base idx pol : Nat) (fx : Bool) (s : State) : Host.Outcome State Fault Refusal :=
  memWord { kind := .st 4, unif := true, base := base, idx := idx, pol := pol,
            data := fun g _ => (g.sVal d).setWidth 64 } [srcS d fx] [] anyFmt fx s

/-- STS.b64 (R260). -/
def execStsB64 (d base idx pol : Nat) (fx : Bool) (s : State) : Host.Outcome State Fault Refusal :=
  memWord { kind := .st 8, unif := true, base := base, idx := idx, pol := pol, data := fun g _ => g.sPair d }
    [srcSP d fx] [] anyFmt fx s

/-- PREF: no clearance holds the group and no lane faults from its data (R261, R333). -/
def execPref (base idx pol : Nat) (fx : Bool) (s : State) : Host.Outcome State Fault Refusal :=
  let f : MemForm := { kind := .pref, unif := false, base := base, idx := idx, pol := pol }
  issueWord (memWordSpec f [] [] anyFmt fx) (memEff f false s) s

/-- LFLUSH (R262). -/
def execLflush (base idx pol : Nat) (fx : Bool) (s : State) : Host.Outcome State Fault Refusal :=
  memWord { kind := .lflush, unif := false, base := base, idx := idx, pol := pol } [] [] anyFmt fx s

/-! ### Condition monitors, line locks, window checks (R272, R275, R276, R279) -/

/-- WAITC: the path blocks until the word completes (R42, R272). -/
def execWaitc (cc d base idx pol : Nat) (fx : Bool) (x : Nat) (fy u : Bool) (s : State) :
    Host.Outcome State Fault Refusal :=
  memWord { kind := .waitc cc, unif := u, base := base, idx := idx, pol := pol,
            cmp := fun g i => if u then g.sVal x else g.vLane x i, dst := [(if u then .s else .v, d)] }
    [dstU u d, srcU u x fy] [] (fun g => if u then none else fmtInt [x] g) fx s

/-- LKL (R275). -/
def execLkl (d base idx pol : Nat) (fx : Bool) (s : State) : Host.Outcome State Fault Refusal :=
  memWord { kind := .lkl, unif := false, base := base, idx := idx, pol := pol, dst := [(.v, d)] } [dstV d] [] anyFmt fx s

/-- ULKL (R276). -/
def execUlkl (base idx pol : Nat) (fx : Bool) (s : State) : Host.Outcome State Fault Refusal :=
  memWord { kind := .ulkl, unif := false, base := base, idx := idx, pol := pol } [] [] anyFmt fx s

/-- The status of WINCHK for the byte at an address (R279). -/
def winStatus (s : State) (c : CtxRec) (a : DWord) : Word :=
  if !adWin a then 32
  else match s.winEntry c (adHandle a) with
  | none => 0
  | some w => BitVec.ofNat 32 (1 + (Nat.ble (adWofs a) w.limit).toNat * 2 + w.rd.toNat * 4 + w.wr.toNat * 8 + w.at'.toNat * 16)

/-- WINCHK: it reads only the window table, makes no access and faults on no lane (R256, R279). -/
def execWinchk (d base idx pol : Nat) (fx : Bool) (s : State) : Host.Outcome State Fault Refusal :=
  let f : MemForm := { kind := .lflush, unif := false, base := base, idx := idx, pol := pol }
  issueWord { memWordSpec f [dstV d] [] anyFmt fx with dirty := fun _ => false }
    (State.laneWr d .i32 s.src.em
      (fun i => winStatus s s.myTeam.crec (laneAddr s.src base idx i))) s

end Sys2Proof.Machine
end

