-- ==== Sys2Proof/Machine/Atomics.lean ====
section
/-! DEFINITION. Atomics, compensated pairs and pool words at issue (R263 to R271). -/

namespace Sys2Proof.Machine

/-- A 32-bit operand of a vector or scalar word (R184). -/
def operandW (u : Bool) (x : Nat) (g : Group) (i : Nat) : DWord := (if u then g.sVal x else g.vLane x i).setWidth 64

/-- A 64-bit operand pair (R184). -/
def operandP (u : Bool) (x : Nat) (g : Group) (i : Nat) : DWord := if u then g.sPair x else g.vPair x i

/-- The file U selects (R184). -/
def fileOf (u : Bool) : RegFile := if u then .s else .v

/-- The format check of vector operands of a literal, which scalars do not need. -/
def fmtLit (u : Bool) (f : Group → Option Nat) (g : Group) : Option Nat := if u then none else f g

/-- ATOM of one operand: the old word returns, tagged I32 (R264). -/
def atomWord (o : AtomOp) (d base idx pol : Nat) (fx : Bool) (x : Nat) (fy u : Bool) (s : State) :
    Host.Outcome State Fault Refusal :=
  memWord { kind := .atom o, unif := u, base := base, idx := idx, pol := pol, data := operandW u x,
            dst := [(fileOf u, d)] } [dstU u d, srcU u x fy] [] (fmtLit u (fmtInt [x])) fx s

/-- ATOM.add (R264). -/
def execAtomAdd (d base idx pol : Nat) (fx : Bool) (x : Nat) (fy u : Bool) (s : State) :
    Host.Outcome State Fault Refusal :=
  atomWord .add d base idx pol fx x fy u s

/-- ATOM.sub (R264). -/
def execAtomSub (d base idx pol : Nat) (fx : Bool) (x : Nat) (fy u : Bool) (s : State) :
    Host.Outcome State Fault Refusal :=
  atomWord .sub d base idx pol fx x fy u s

/-- ATOM.and (R264). -/
def execAtomAnd (d base idx pol : Nat) (fx : Bool) (x : Nat) (fy u : Bool) (s : State) :
    Host.Outcome State Fault Refusal :=
  atomWord .and d base idx pol fx x fy u s

/-- ATOM.or (R264). -/
def execAtomOr (d base idx pol : Nat) (fx : Bool) (x : Nat) (fy u : Bool) (s : State) :
    Host.Outcome State Fault Refusal :=
  atomWord .or d base idx pol fx x fy u s

/-- ATOM.xor (R264). -/
def execAtomXor (d base idx pol : Nat) (fx : Bool) (x : Nat) (fy u : Bool) (s : State) :
    Host.Outcome State Fault Refusal :=
  atomWord .xor d base idx pol fx x fy u s

/-- ATOM.mins (R264). -/
def execAtomMins (d base idx pol : Nat) (fx : Bool) (x : Nat) (fy u : Bool) (s : State) :
    Host.Outcome State Fault Refusal :=
  atomWord .mins d base idx pol fx x fy u s

/-- ATOM.maxs (R264). -/
def execAtomMaxs (d base idx pol : Nat) (fx : Bool) (x : Nat) (fy u : Bool) (s : State) :
    Host.Outcome State Fault Refusal :=
  atomWord .maxs d base idx pol fx x fy u s

/-- ATOM.minz (R264). -/
def execAtomMinz (d base idx pol : Nat) (fx : Bool) (x : Nat) (fy u : Bool) (s : State) :
    Host.Outcome State Fault Refusal :=
  atomWord .minz d base idx pol fx x fy u s

/-- ATOM.maxz (R264). -/
def execAtomMaxz (d base idx pol : Nat) (fx : Bool) (x : Nat) (fy u : Bool) (s : State) :
    Host.Outcome State Fault Refusal :=
  atomWord .maxz d base idx pol fx x fy u s

/-- ATOM.exch (R264). -/
def execAtomExch (d base idx pol : Nat) (fx : Bool) (x : Nat) (fy u : Bool) (s : State) :
    Host.Outcome State Fault Refusal :=
  atomWord .exch d base idx pol fx x fy u s

/-- ATOM.cas: the comparand at `x` and the new value at `x + 1` (R264). -/
def execAtomCas (d base idx pol : Nat) (fx : Bool) (x : Nat) (fy u : Bool) (s : State) :
    Host.Outcome State Fault Refusal :=
  memWord { kind := .atom .cas, unif := u, base := base, idx := idx, pol := pol, data := operandW u (x + 1),
            cmp := fun g i => if u then g.sVal x else g.vLane x i, dst := [(fileOf u, d)] }
    [dstU u d, srcUP u x fy] [] (fmtLit u (fmtInt [x, x + 1])) fx s

/-- FATOM: the old word returns, tagged FP32 (R265). -/
def fatomWord (o : FAtomOp) (d base idx pol : Nat) (fx : Bool) (x : Nat) (fy u : Bool) (s : State) :
    Host.Outcome State Fault Refusal :=
  memWord { kind := .fatom o, unif := u, base := base, idx := idx, pol := pol, data := operandW u x,
            dst := [(fileOf u, d)], tag := fun _ => .fp32 } [dstU u d, srcU u x fy] [] (fmtLit u (fmtIn x [.fp32])) fx s

/-- FATOM.add (R265). -/
def execFatomAdd (d base idx pol : Nat) (fx : Bool) (x : Nat) (fy u : Bool) (s : State) :
    Host.Outcome State Fault Refusal :=
  fatomWord .add d base idx pol fx x fy u s

/-- FATOM.min (R265). -/
def execFatomMin (d base idx pol : Nat) (fx : Bool) (x : Nat) (fy u : Bool) (s : State) :
    Host.Outcome State Fault Refusal :=
  fatomWord .min d base idx pol fx x fy u s

/-- FATOM.max (R265). -/
def execFatomMax (d base idx pol : Nat) (fx : Bool) (x : Nat) (fy u : Bool) (s : State) :
    Host.Outcome State Fault Refusal :=
  fatomWord .max d base idx pol fx x fy u s

/-- CADD: no destination (R266). -/
def execCadd (base idx pol : Nat) (fx : Bool) (x : Nat) (fy u : Bool) (s : State) : Host.Outcome State Fault Refusal :=
  memWord { kind := .cadd, unif := u, base := base, idx := idx, pol := pol, data := operandW u x } [srcU u x fy] []
    (fmtLit u (fmtIn x [.fp32])) fx s

/-- CRD and CRD.rst: the rounded sum of the pair, tagged FP32 (R267). -/
def crdWord (rst : Bool) (d base idx pol : Nat) (fx u : Bool) (s : State) : Host.Outcome State Fault Refusal :=
  memWord { kind := .crd rst, unif := u, base := base, idx := idx, pol := pol, dst := [(fileOf u, d)],
            tag := fun _ => .fp32 } [dstU u d] [] anyFmt fx s

/-- CRD (R267). -/
def execCrd (d base idx pol : Nat) (fx u : Bool) (s : State) : Host.Outcome State Fault Refusal :=
  crdWord false d base idx pol fx u s

/-- CRD.rst (R267). -/
def execCrdRst (d base idx pol : Nat) (fx u : Bool) (s : State) : Host.Outcome State Fault Refusal :=
  crdWord true d base idx pol fx u s

/-- QPUSH: the pair's 64 bits, whatever their tags, and a status (R270). -/
def execQpush (d base idx pol : Nat) (fx : Bool) (x : Nat) (fy u : Bool) (s : State) : Host.Outcome State Fault Refusal :=
  memWord { kind := .qpush, unif := u, base := base, idx := idx, pol := pol, data := operandP u x,
            stat := some (fileOf u, d) } [dstU u d, srcUP u x fy] [] anyFmt fx s

/-- QPOP: a value pair tagged RAW and a status (R270). -/
def execQpop (d base idx pol : Nat) (fx : Bool) (x : Nat) (u : Bool) (s : State) : Host.Outcome State Fault Refusal :=
  memWord { kind := .qpop, unif := u, base := base, idx := idx, pol := pol, dst := [(fileOf u, d), (fileOf u, d + 1)],
            stat := some (fileOf u, x), tag := fun _ => .raw } [dstUP u d, dstU u x] [] anyFmt fx s

end Sys2Proof.Machine
end

