-- ==== Sys2Proof/Machine/Member.lean ====
section
/-! DEFINITION. Member-masked operations: the arrival of a path at an instance, its checks and its completion; VOTE, SHFL,
GRED, GSCAN and XCHG (R42 to R46, R280 to R290). -/

namespace Sys2Proof.Machine

/-- What the arrival of a path's lanes at an instance comes to. -/
inductive Arrival where
  | fault (c : FaultClass) (lane : Nat)
  | wait (h : HeldInst)
  | done (h : HeldInst)

def Group.icnt (g : Group) (i : Nat) : Nat := g.icount.getD i 0

/-- The mask of the topmost join point, or NOT x (R45). -/
def Group.within (g : Group) : Word :=
  match (g.stack.filter (fun e => e.kind = .join)).head? with
  | some e => e.mask
  | none => ~~~g.x

/-- Whether a held instance is the one at `p` with member mask `k` and count `c` (R44). -/
def HeldInst.same (h : HeldInst) (p : Pos) (k : Word) (c : Nat) : Bool := h.pos == p && h.mask == k && h.count == c

/-- The lowest lane of a mask. -/
def lowLane (m : Word) : Nat := (lanesOf m).headD 0

/-- The arrival of the active lanes at the instance of a word at `p` with member mask `k`: the checks of R45, of which an
exited member is reported first, and the lanes held under R46. `vals` and `aux` are what the lanes bring. -/
def arrive (g : Group) (p : Pos) (k : Word) (vals aux : Nat → Word) : Arrival :=
  let ls := lanesOf g.em
  let c := g.icnt (ls.headD 0)
  let ahead := (lanesOf k).filter (fun i => aheadOf (g.icnt i) c)
  let elsewhere := g.held.filter (fun h => h.arrived &&& k ≠ 0 && !h.same p k c)
  if k &&& g.x ≠ 0 then .fault .exitedLane (lowLane (k &&& g.x))
  else if g.em &&& ~~~k ≠ 0 then .fault .illegalOperand (lowLane (g.em &&& ~~~k))
  else if k &&& ~~~g.within ≠ 0 then .fault .illegalOperand (lowLane (k &&& ~~~g.within))
  else match ls.find? (fun i => g.icnt i != c) with
  | some i => .fault .illegalOperand i
  | none => match elsewhere.head? with
    | some h => .fault .illegalOperand (lowLane (h.arrived &&& k))
    | none => match ahead.head? with
      | some i => .fault .illegalOperand i
      | none =>
        let old : HeldInst := ((g.held.filter (fun h => h.same p k c)).head?).getD
          { pos := p, mask := k, arrived := 0, count := c, vals := [], aux := [] }
        let h : HeldInst := { old with arrived := old.arrived ||| g.em, vals := mergeLanes g.em vals old.vals,
                                       aux := mergeLanes g.em aux old.aux }
        if h.arrived = k then .done h else .wait h

/-- The fault of an arrival, for the checks of the issue. -/
def arrivalFault (r : Group → Arrival) (s : State) : Option FaultInfo :=
  if s.src.em = 0 then none
  else match r s.src with
  | .fault c i => some (s.faultAt c 0 i none)
  | _ => none

/-- Whether a blocked path awaits the instance at `p`. -/
def Block.atInst (b : Block) (p : Pos) : Bool := b.on == .member p

/-- The group without a completed instance: its members' counts advance and the paths it held are ready at the word after
it (R43, R44, R46). -/
def Group.complete (g : Group) (h : HeldInst) : Group :=
  { g with
    held := g.held.filter (fun x => !x.same h.pos h.mask h.count)
    icount := laneIds.map (fun i => if bitOf h.mask i then (g.icnt i + 1) % 65536 else g.icnt i)
    stack := g.stack.map (fun e =>
      match e.block with
      | some b => if b.atInst h.pos && e.mask &&& h.mask ≠ 0 then { e with block := none, pos := b.after } else e
      | none => e) }

/-- The group with lanes held at an instance. -/
def Group.hold (g : Group) (h : HeldInst) : Group :=
  { g with held := g.held.filter (fun x => !x.same h.pos h.mask h.count) ++ [h] }

/-- The running path blocks at its word (R42). -/
def State.block (on : BlockOn) (s : State) : State :=
  (s.modG (fun g => { g with block := some { on := on, after := s.issue.next } })).verd .blocked

/-- The effect of a member-masked word: with em = 0 none, else the lanes are held, or the instance completes and `fin`
acts on it (R35, R46). -/
def memberEff (r : Group → Arrival) (fin : HeldInst → State → State) (s0 s : State) : State :=
  if s0.src.em = 0 then s
  else match r s0.src with
  | .done h => fin h (s.modG (fun g => g.complete h))
  | .wait h => (s.modG (fun g => g.hold h)).block (.member h.pos)
  | .fault _ _ => s

/-- The position of the word that executes: its address identifies an instance (R44). -/
def State.wordPos (s : State) : Pos := { pa := s.src.pos.pa, w := s.issue.w }

/-- The spec of a member-masked lane word (R281). -/
def memSpec (us : List Use) (fmt : Group → Option Nat) (r : Group → Arrival) : WordSpec :=
  { laneSpec us fmt (fun _ => 2) with value := arrivalFault r }

/-- The arrival of a word whose member mask is scalar `m` and whose values are those of vector `a` (R280). -/
def arriveVec (p : Pos) (m a : Nat) (aux : Group → Nat → Word) (g : Group) : Arrival :=
  arrive g p (g.sVal m) (fun i => g.vLane a i) (aux g)

def HeldInst.val (h : HeldInst) (i : Nat) : Word := h.vals.getD i 0

/-! ### VOTE (R283) -/

/-- VOTE: a scalar from the members' patterns; any tag is accepted. -/
def voteWord (f : HeldInst → Word) (d a b : Nat) (fa : Bool) (s : State) : Host.Outcome State Fault Refusal :=
  let r := arriveVec s.wordPos b a (fun _ _ => 0)
  issueWord (memSpec [srcV a fa, srcS b false, dstS d] (fun _ => none) r)
    (memberEff r (fun h => State.wrS d (f h)) s) s

/-- VOTE.all (R283). -/
def execVoteAll (d a b : Nat) (fa : Bool) (s : State) : Host.Outcome State Fault Refusal :=
  voteWord (fun h => if (lanesOf h.mask).all (fun i => h.val i != 0) then 1 else 0) d a b fa s

/-- VOTE.any (R283). -/
def execVoteAny (d a b : Nat) (fa : Bool) (s : State) : Host.Outcome State Fault Refusal :=
  voteWord (fun h => if (lanesOf h.mask).any (fun i => h.val i != 0) then 1 else 0) d a b fa s

/-- VOTE.ballot (R283). -/
def execVoteBallot (d a b : Nat) (fa : Bool) (s : State) : Host.Outcome State Fault Refusal :=
  voteWord (fun h => maskOf (fun i => bitOf h.mask i && h.val i != 0)) d a b fa s

/-! ### SHFL (R284) -/

/-- The value lane `i` receives from source lane `src`: its own where the source is no member. -/
def shflVal (h : HeldInst) (i : Nat) (src : Option Nat) : Word :=
  match src with
  | some k => if Nat.blt k 32 && bitOf h.mask k then h.val k else h.val i
  | none => h.val i

/-- SHFL: each member takes a member's value, tagged as the source is (R284). -/
def shflWord (us : List Use) (fmt : Group → Option Nat) (aux : Group → Nat → Word) (from' : HeldInst → Nat → Option Nat)
    (d a b : Nat) (fa : Bool) (s : State) : Host.Outcome State Fault Refusal :=
  let r := arriveVec s.wordPos b a aux
  issueWord (memSpec (us ++ [srcV a fa, srcS b false, dstV d]) fmt r)
    (memberEff r (fun h => State.wrV d (s.src.tag a) h.mask (fun i => shflVal h i (from' h i))) s) s

/-- SHFL.idx: the lane named by vector `sel` as read at the arrival (R284). -/
def execShflIdx (d a b : Nat) (fa : Bool) (sel : Nat) (fy : Bool) (s : State) : Host.Outcome State Fault Refusal :=
  shflWord [srcV sel fy] (fmtInt [sel]) (fun g i => g.vLane sel i)
    (fun h i => some ((h.aux.getD i 0).toNat % 32)) d a b fa s

/-- SHFL.up (R284). -/
def execShflUp (d a b : Nat) (fa : Bool) (delta : Nat) (s : State) : Host.Outcome State Fault Refusal :=
  shflWord [] (fun _ => none) (fun _ _ => 0) (fun _ i => if Nat.ble delta i then some (i - delta) else none) d a b fa s

/-- SHFL.down (R284). -/
def execShflDown (d a b : Nat) (fa : Bool) (delta : Nat) (s : State) : Host.Outcome State Fault Refusal :=
  shflWord [] (fun _ => none) (fun _ _ => 0) (fun _ i => some (i + delta)) d a b fa s

/-- SHFL.xor (R284). -/
def execShflXor (d a b : Nat) (fa : Bool) (delta : Nat) (s : State) : Host.Outcome State Fault Refusal :=
  shflWord [] (fun _ => none) (fun _ _ => 0) (fun _ i => some (i ^^^ delta)) d a b fa s

/-! ### GRED and GSCAN (R285) -/

/-- Left combination of values. -/
def combine (f : Word → Word → Word) : List Word → Word
  | [] => 0
  | x :: r => r.foldl f x

/-- The exact sum of FP32 values rounded once (R85, R89, R285). -/
def faddAll (l : List Word) : Word := r32 (fsum (l.map f32) .near)

/-- The least or the greatest FP32 value; a lone NaN is made canonical (R88, R90, R285). -/
def fminAll (big : Bool) (l : List Word) : Word :=
  let r := combine (fun a b => BitVec.ofNat 32 (fminmax big .fp32 a.toNat b.toNat)) l
  if (f32 r).isNan then BitVec.ofNat 32 Fmt.fp32.canon else r

/-- GRED and GSCAN: the combination over all members, or over the members up to each lane. -/
def gredWord (scan : Bool) (tag : Tag) (tags : List Tag) (f : List Word → Word) (d a b : Nat) (fa : Bool) (s : State) :
    Host.Outcome State Fault Refusal :=
  let r := arriveVec s.wordPos b a (fun _ _ => 0)
  issueWord (memSpec [srcV a fa, srcS b false, dstV d] (fmtIn a tags) r)
    (memberEff r (fun h => State.wrV d tag h.mask
      (fun i => f (((lanesOf h.mask).filter (fun j => !scan || Nat.ble j i)).map h.val))) s) s

/-- The integer and the float reductions. -/
def gredInt (scan : Bool) (f : Word → Word → Word) := gredWord scan .i32 [.raw, .i32] (combine f)
def gredFlt (scan : Bool) (f : List Word → Word) := gredWord scan .fp32 [.fp32] f

/-- GRED.add (R285). -/
def execGredAdd (d a b : Nat) (fa : Bool) (s : State) : Host.Outcome State Fault Refusal :=
  gredInt false (· + ·) d a b fa s

/-- GRED.mins (R285). -/
def execGredMins (d a b : Nat) (fa : Bool) (s : State) : Host.Outcome State Fault Refusal :=
  gredInt false minS d a b fa s

/-- GRED.maxs (R285). -/
def execGredMaxs (d a b : Nat) (fa : Bool) (s : State) : Host.Outcome State Fault Refusal :=
  gredInt false maxS d a b fa s

/-- GRED.minz (R285). -/
def execGredMinz (d a b : Nat) (fa : Bool) (s : State) : Host.Outcome State Fault Refusal :=
  gredInt false minZ d a b fa s

/-- GRED.maxz (R285). -/
def execGredMaxz (d a b : Nat) (fa : Bool) (s : State) : Host.Outcome State Fault Refusal :=
  gredInt false maxZ d a b fa s

/-- GRED.and (R285). -/
def execGredAnd (d a b : Nat) (fa : Bool) (s : State) : Host.Outcome State Fault Refusal :=
  gredInt false (· &&& ·) d a b fa s

/-- GRED.or (R285). -/
def execGredOr (d a b : Nat) (fa : Bool) (s : State) : Host.Outcome State Fault Refusal :=
  gredInt false (· ||| ·) d a b fa s

/-- GRED.xor (R285). -/
def execGredXor (d a b : Nat) (fa : Bool) (s : State) : Host.Outcome State Fault Refusal :=
  gredInt false (· ^^^ ·) d a b fa s

/-- GRED.fadd (R285). -/
def execGredFadd (d a b : Nat) (fa : Bool) (s : State) : Host.Outcome State Fault Refusal :=
  gredFlt false faddAll d a b fa s

/-- GRED.fmin (R285). -/
def execGredFmin (d a b : Nat) (fa : Bool) (s : State) : Host.Outcome State Fault Refusal :=
  gredFlt false (fminAll false) d a b fa s

/-- GRED.fmax (R285). -/
def execGredFmax (d a b : Nat) (fa : Bool) (s : State) : Host.Outcome State Fault Refusal :=
  gredFlt false (fminAll true) d a b fa s

/-- GSCAN.add (R285). -/
def execGscanAdd (d a b : Nat) (fa : Bool) (s : State) : Host.Outcome State Fault Refusal :=
  gredInt true (· + ·) d a b fa s

/-- GSCAN.mins (R285). -/
def execGscanMins (d a b : Nat) (fa : Bool) (s : State) : Host.Outcome State Fault Refusal :=
  gredInt true minS d a b fa s

/-- GSCAN.maxs (R285). -/
def execGscanMaxs (d a b : Nat) (fa : Bool) (s : State) : Host.Outcome State Fault Refusal :=
  gredInt true maxS d a b fa s

/-- GSCAN.minz (R285). -/
def execGscanMinz (d a b : Nat) (fa : Bool) (s : State) : Host.Outcome State Fault Refusal :=
  gredInt true minZ d a b fa s

/-- GSCAN.maxz (R285). -/
def execGscanMaxz (d a b : Nat) (fa : Bool) (s : State) : Host.Outcome State Fault Refusal :=
  gredInt true maxZ d a b fa s

/-- GSCAN.and (R285). -/
def execGscanAnd (d a b : Nat) (fa : Bool) (s : State) : Host.Outcome State Fault Refusal :=
  gredInt true (· &&& ·) d a b fa s

/-- GSCAN.or (R285). -/
def execGscanOr (d a b : Nat) (fa : Bool) (s : State) : Host.Outcome State Fault Refusal :=
  gredInt true (· ||| ·) d a b fa s

/-- GSCAN.xor (R285). -/
def execGscanXor (d a b : Nat) (fa : Bool) (s : State) : Host.Outcome State Fault Refusal :=
  gredInt true (· ^^^ ·) d a b fa s

/-- GSCAN.fadd (R285). -/
def execGscanFadd (d a b : Nat) (fa : Bool) (s : State) : Host.Outcome State Fault Refusal :=
  gredFlt true faddAll d a b fa s

/-- GSCAN.fmin (R285). -/
def execGscanFmin (d a b : Nat) (fa : Bool) (s : State) : Host.Outcome State Fault Refusal :=
  gredFlt true (fminAll false) d a b fa s

/-- GSCAN.fmax (R285). -/
def execGscanFmax (d a b : Nat) (fa : Bool) (s : State) : Host.Outcome State Fault Refusal :=
  gredFlt true (fminAll true) d a b fa s

/-! ### XCHG (R286 to R290) -/

/-- Whether a group has a partner: its launch is paired, so that its teams are even in number, and both teams of a pair have the groups of
one descriptor (R286, R390). -/
def State.partnered (s : State) : Bool :=
  s.myTeam.kernel.pair && Nat.blt s.src.gnum (s.myTeam.kernel.pgrp + s.myTeam.kernel.cgrp)

/-- What a half holds for a lane: the value its member sent. -/
def halfLane (i : Nat) (x : Word) : LaneReq :=
  { lane := i, addr := 0, data := x.setWidth 64, cmp := 0, st := .moving, key := 0, home := .scratch 0, slot := none,
    res := 0, stat := 0, place := 0, since := 0, cost := [], paid := false }

/-- XCHG: the last local member's arrival empties the destination, tagged as the source, and sends the half with the
group's exchange number (R287). With em = 0 the destination becomes full with 0 (R35). -/
def execXchg (d a b : Nat) (fa : Bool) (s : State) : Host.Outcome State Fault Refusal :=
  let r := arriveVec s.wordPos b a (fun _ _ => 0)
  let tag := s.src.tag a
  issueWord
    { uses := [srcV a fa, srcS b false, dstV d]
      opnd := fun s => !s.partnered
      value := arrivalFault r
      wait := fun s => s.src.xchg
      cls := fun s => [(2, countOf s.src.em)]
      evs := fun _ => [(0x08, 1), (0x09, 1)]
      dirty := fun s => s.src.em != 0 }
    (fun s' =>
      if s.src.em = 0 then s'.wrV d tag (BitVec.allOnes 32) (fun _ => 0)
      else memberEff r (fun h s1 =>
        let op : MemOp :=
          { gid := s1.cur, path := s.src.path, origin := none, team := s1.g.team, ctx := s1.myTeam.ctx, kind := .xchg, unif := false, dst := [(.v, d)],
            stat := none, mask := h.mask, pol := 0, pos := s.wordPos, start := s.src.pos, next := s.issue.next,
            lanes := laneIds.map (fun i => halfLane i (h.val i)),
            cleared := true, undo := [], fail := none }
        let s2 := s1.modG (fun g => { g.emptyV d tag with xchg := true })
        ({ s2 with ops := SMap.set s2.ops s2.ticket op }.tick).post 0 (.exchangeHalfArrival s1.cur)) s s') s

end Sys2Proof.Machine
end

