-- ==== Sys2Proof/Machine/Barriers.lean ====
section
/-! DEFINITION. Named barriers (R291 to R299): the fields of a barrier word, an arrival, and the barrier words. -/

namespace Sys2Proof.Machine

/-- The fields of a barrier word (R291). -/
structure Bar where
  pend  : Nat
  phase : Nat
  fixed : Bool
  arr   : Nat
  cnt   : Nat
  rsv   : Nat
  deriving DecidableEq, Repr

/-- The fields read from the 64 bits. -/
def barOf (w : DWord) : Bar :=
  let n := w.toNat
  { pend := n / 4294967296 % 16777216, phase := n / 16777216 % 256, fixed := n.testBit 23, arr := n / 65536 % 128,
    cnt := n % 128, rsv := n / 128 % 256 }

/-- The 64 bits of the fields: PNZ follows PEND and bits 63:56 are 0 (R291). -/
def barBits (b : Bar) : DWord :=
  BitVec.ofNat 64 (b.pend % 16777216 * 4294967296 + b.phase % 256 * 16777216 + b.fixed.toNat * 8388608
    + b.arr % 128 * 65536 + (b.pend % 16777216 != 0).toNat * 32768 + b.rsv % 256 * 128 + b.cnt % 128)

/-- The word with PNZ following PEND, its other bits kept (R291). -/
def barKeep (w : DWord) : DWord :=
  let n := w.toNat
  BitVec.ofNat 64 (n / 65536 * 65536 + (n / 4294967296 % 16777216 != 0).toNat * 32768 + n % 32768)

/-- A team's barrier, read and written in its scratchpad (R291). -/
def State.bar (s : State) (t b : Nat) : Bar := barOf (s.barWord t b)
def State.setBar (t b : Nat) (x : Bar) (s : State) : State :=
  { s with mem := Memory.writeN s.mem (scratchKey t + 8 * b) (barBits x).toNat 8 }

/-- An arrival with count `n`: the fault, or the word after it (R293). -/
def barArrive (x : Bar) (n : Nat) : Except FaultClass Bar :=
  if Nat.blt 64 n || (n == 0 && x.cnt == 0) then .error .illegalOperand
  else
    let n := if n = 0 then x.cnt else n
    if x.cnt = 0 then .ok { x with cnt := n, arr := x.arr + 1 }
    else if n ≠ x.cnt || x.arr = x.cnt then .error .barrierCount
    else .ok { x with arr := x.arr + 1 }

/-- A barrier word may complete its phase at the end of this cycle of its team's core: that step is posted for the start of the next
(R296). -/
def State.barCheck (t b : Nat) (s : State) : State :=
  s.postAt (s.clockOf (s.team t).cluster) (s.cycle (s.clockOf (s.team t).cluster) + 1) (.barrierPhaseComplete t b)

/-- The checks of a barrier word: the number is below the team's declared count (R182, R292). -/
def barSpec (bar : Nat) (us : List Use) : WordSpec :=
  { uses := us, opnd := fun s => Nat.ble s.myTeam.kernel.barriers bar }

/-- The fault of an arrival as a value check (R293). -/
def arriveFault (bar a : Nat) (s : State) : Option FaultInfo :=
  match barArrive (s.bar s.src.team bar) (s.src.sVal a).toNat with
  | .error c => some (s.faultOf c)
  | .ok _ => none

/-- An arrival in the word's own team. One that a set's memory word held back, and that the barrier then refuses, changes nothing and faults its
group (R293; DEDUCED, log entry 47). -/
def State.arriveAt (bar n : Nat) (s : State) : State :=
  match barArrive (s.bar s.g.team bar) n with
  | .ok x => s.setBar s.g.team bar x
  | .error c => s.post 0 (.deferredFaultReport s.cur { s.faultOf c with defer := true })

/-- The accesses of a group that an arrival must wait for as a release: the operations outstanding now (R120, R297). -/
def State.owed (s : State) (bar : Nat) : List (Nat × Nat) := (s.earlier).map (fun x => (bar, x.1))

/-- The arrival of BARR and BARRW: counted now, performed as a release once the group's earlier accesses are (R297). -/
def State.arriveOwn (bar n : Nat) (s : State) : State :=
  ((s.arriveAt bar n).modTeam s.g.team (fun t => { t with barOwed := t.barOwed ++ s.owed bar })).barCheck s.g.team bar

/-- BINIT (R294). -/
def execBinit (bar a : Nat) (fa : Bool) (s : State) : Host.Outcome State Fault Refusal :=
  let n := (s.src.sVal a).toNat
  issueWord
    { barSpec bar [srcS a fa] with
      value := fun s =>
        let x := s.bar s.src.team bar
        if Nat.blt 64 n || x.arr != 0 || x.pend != 0 then some (s.faultOf .illegalOperand) else none }
    (fun s' => s'.setBar s.src.team bar
      { pend := 0, phase := (s.bar s.src.team bar).phase, fixed := n != 0, arr := 0, cnt := n,
        rsv := (s.bar s.src.team bar).rsv }) s

/-- BARR, a release (R294, R297, R347). -/
def execBarr (bar a : Nat) (fa : Bool) (s : State) : Host.Outcome State Fault Refusal :=
  issueWord { barSpec bar [srcS a fa] with value := arriveFault bar a, dirty := fun _ => true } (State.arriveOwn bar (s.src.sVal a).toNat) s

/-- BWAIT: it blocks unless the phase has passed (R294). -/
def execBwait (bar a : Nat) (fa : Bool) (s : State) : Host.Outcome State Fault Refusal :=
  let n := (s.src.sVal a).toNat % 256
  issueWord (barSpec bar [srcS a fa])
    (fun s' => if phasePassed (s.bar s.src.team bar).phase n then s' else s'.block (.barWait bar n)) s

/-- BARRW: an arrival, a release (R297, R347), and the path blocks until the phase differs (R294). The path is held through the end of its cycle:
a phase that completes there makes it ready before its next set, and no other path of its group runs sooner. -/
def execBarrw (bar a : Nat) (fa : Bool) (s : State) : Host.Outcome State Fault Refusal :=
  issueWord { barSpec bar [srcS a fa] with value := arriveFault bar a, dirty := fun _ => true }
    (fun s' => ((s'.arriveOwn bar (s.src.sVal a).toNat).block (.barArr bar (s.bar s.src.team bar).phase))) s

/-- BEXP (R294). -/
def execBexp (bar a : Nat) (fa : Bool) (s : State) : Host.Outcome State Fault Refusal :=
  let n := (s.src.sVal a).toNat
  issueWord
    { barSpec bar [srcS a fa] with value := fun s => if Nat.blt 8388607 n then some (s.faultOf .illegalOperand) else none }
    (fun s' =>
      let x := s'.bar s.src.team bar
      (s'.setBar s.src.team bar { x with pend := (x.pend + n) % 16777216 }).barCheck s.src.team bar) s

/-- The barrier words of a team as they stand. -/
def State.barWords (s : State) (t : Nat) : List DWord := (List.range (s.team t).kernel.barriers).map (fun b => barBits (s.bar t b))

/-- BQRY: the low half of the word as of the end of the previous cycle (R294). -/
def execBqry (bar d : Nat) (s : State) : Host.Outcome State Fault Refusal :=
  issueWord (barSpec bar [dstS d]) (State.wrS d (lo32 (s.myTeam.barWas.getD bar 0))) s

/-- BARR.peer: an arrival at the partner team's barrier, sent once the group's earlier accesses are performed; it is
charged its hops. A count above 64 is refused at issue (R286, R292 to R294, R297, R339). -/
def execBarrPeer (bar a : Nat) (fa : Bool) (s : State) : Host.Outcome State Fault Refusal :=
  issueWord
    { barSpec bar [srcS a fa] with
      opnd := fun s => Nat.ble s.myTeam.kernel.barriers bar || !s.partnered
      value := fun s => if Nat.blt 64 (s.src.sVal a).toNat then some (s.faultOf .illegalOperand) else none
      dirty := fun _ => true }
    (fun s' =>
      let h := hopsOf s'.myTeam.part s'.g.cluster (s'.mateCluster s'.g.team)
      let s1 := if h = 0 then s' else s'.chargeShared s'.myTeam.ctx s'.g.facet 16 [(9, h)] (some (s'.inReplay s'.g.team))
      (s1.modTeam s'.g.team (fun x => { x with barOwed := x.barOwed ++ s'.owed (64 + 32 * s'.cur + bar) })).post 0
        (.peerArrival s'.g.team bar (s.src.sVal a) s'.cur { pa := s.src.pos.pa, w := s.issue.w })) s

end Sys2Proof.Machine
end

