-- ==== Sys2Proof/Machine/Control.lean ====
section
/-! DEFINITION. Transfers of control, the execution mask, divergence, the end of groups, refill and counted loops (R14,
R15, R39 to R41, R47 to R49, R173, R204 to R222). -/

namespace Sys2Proof.Machine

/-- A control word: class 0 and one CTRL event (R142, R204, R442). -/
def ctlSpec (us : List Use) : WordSpec := { uses := us, evs := fun _ => [(0x04, 1)] }

/-- The address of the packet after the word's (R208). -/
def State.link (s : State) : DWord := s.src.pos.pa + 12

/-- A conditional transfer, then its signature (R204, R451). -/
def State.branch (c : Bool) (pa : DWord) (s : State) : State := State.sign false (if c then s.goto pa else s)

/-- The misalignment of an indirect target (R210). -/
def indirectFault (t : DWord) (s : State) : Option FaultInfo :=
  if s.src.codeOk t then none else some (s.faultAt .misalignment 0 0 (some t))

/-- JMP (R206). -/
def execJmp (cond off : Nat) (s : State) : Host.Outcome State Fault Refusal :=
  issueWord (ctlSpec []) (State.branch (maskCond cond s.src.em s.src.x) (targetOf s.src.pos.pa (sint 21 off))) s

/-- BRZ (R207). -/
def execBrz (d off : Nat) (s : State) : Host.Outcome State Fault Refusal :=
  issueWord (ctlSpec [srcS d false]) (State.branch (s.src.sVal d == 0) (targetOf s.src.pos.pa (sint 19 off))) s

/-- BRNZ (R207). -/
def execBrnz (d off : Nat) (s : State) : Host.Outcome State Fault Refusal :=
  issueWord (ctlSpec [srcS d false]) (State.branch (s.src.sVal d != 0) (targetOf s.src.pos.pa (sint 19 off))) s

/-- CALL (R208). -/
def execCall (d off : Nat) (s : State) : Host.Outcome State Fault Refusal :=
  issueWord (ctlSpec [dstSP d])
    (fun s' => (s'.wrSPair d s.link).branch true (targetOf s.src.pos.pa (sint 19 off))) s

/-- JMPR (R209, R210). -/
def execJmpr (a : Nat) (fa : Bool) (s : State) : Host.Outcome State Fault Refusal :=
  issueWord { ctlSpec [srcSP a fa] with value := indirectFault (s.src.sPair a) } (State.branch true (s.src.sPair a)) s

/-- CALLR: the target is read before the link is written (R209). -/
def execCallr (d a : Nat) (fa : Bool) (s : State) : Host.Outcome State Fault Refusal :=
  issueWord { ctlSpec [srcSP a fa, dstSP d] with value := indirectFault (s.src.sPair a) }
    (fun s' => (s'.wrSPair d s.link).branch true (s.src.sPair a)) s

/-- RET: as JMPR; the prediction changes only timing (R209). -/
def execRet (a : Nat) (fa : Bool) (s : State) : Host.Outcome State Fault Refusal :=
  issueWord { ctlSpec [srcSP a fa] with value := indirectFault (s.src.sPair a) } (State.branch true (s.src.sPair a)) s

/-- EMRD (R211). -/
def execEmrd (d : Nat) (s : State) : Host.Outcome State Fault Refusal :=
  issueWord (ctlSpec [dstS d]) (State.wrS d s.src.em) s

/-- EMWR: an exited lane stays off (R14, R212). -/
def execEmwr (a : Nat) (fa : Bool) (s : State) : Host.Outcome State Fault Refusal :=
  issueWord (ctlSpec [srcS a fa])
    (fun s' => (s'.modG (fun g => { g with em := s.src.sVal a &&& ~~~s.src.x })).sign true) s

/-- NOP: it changes no state (R173). -/
def execNop (s : State) : Host.Outcome State Fault Refusal := issueWord { uses := [] } id s

/-! ### The reconvergence stack -/

/-- Pushes an entry whose path is named by `path`; the top is the head of the list (R38). -/
def Group.push (g : Group) (k : EntryKind) (m : Word) (pa : DWord) (path : List Nat) : Group :=
  { g with stack := { kind := k, mask := m, pos := { pa := pa, w := 0 }, block := none, path := path } :: g.stack }

/-- The pop of a JOIN, and the pop that an EXIT makes: a path resumes with its mask at its own position, a join point
gives its mask less the exited lanes and the packet after its JOIN, and withholds later memory words (R40, R41,
R117; DEDUCED for EXIT, log entry 45). -/
def State.pop (s : State) : State :=
  match s.g.stack with
  | [] => s
  | e :: r =>
    match e.kind with
    | .path => (s.modG (fun g => { g with stack := r, em := e.mask, block := e.block, path := e.path })).transfer e.pos
    | .join => (s.modG (fun g => { g with stack := r, em := e.mask &&& ~~~g.x, drain := (e.path, s.ticket) :: g.drain, path := e.path })).transfer (nextPacket e.pos)

/-- The entries that a DIV pushes: one for each subset that is not empty besides the join point, at least one (R39,
R214). -/
def divPushes (e m : Word) : Nat := if e &&& m ≠ 0 && e &&& ~~~m ≠ 0 then 2 else 1

/-- DIV: each subset is a path of its own (R39, R213, R214). -/
def execDiv (d other joff : Nat) (s : State) : Host.Outcome State Fault Refusal :=
  let e := s.src.em
  let m := s.src.sVal d
  let t := e &&& m
  let n := e &&& ~~~m
  let otherA := targetOf s.src.pos.pa (sint 19 other)
  let joinA := targetOf s.src.pos.pa (sint 32 joff)
  issueWord
    { uses := [srcS d false], evs := fun _ => [(0x04, 1), (0x12, 1)],
      value := fun s => if Nat.blt 32 (s.src.stack.length + divPushes e m) then some (s.faultOf .reconvergence) else none }
    (fun s' =>
      let here := s.src.path ++ [2 * s'.ticket]
      let there := s.src.path ++ [2 * s'.ticket + 1]
      let s1 := s'.tick.modG (fun g => { g.push .join e joinA s.src.path with path := here })
      let s2 :=
        if t ≠ 0 then
          (s1.modG (fun g => { (if n ≠ 0 then g.push .path n otherA there else g) with em := t })).jump (nextPacket s.src.pos)
        else if n ≠ 0 then (s1.modG (fun g => { g with em := n })).goto otherA
        else (s1.modG (fun g => { g with em := 0 })).goto joinA
      s2.sign true) s

/-- The fault of a JOIN: an empty stack, or a join point of another packet (R40). -/
def joinFault (s : State) : Option FaultInfo :=
  match s.src.stack with
  | [] => some (s.faultOf .illegalOperand)
  | e :: _ => if e.kind = .join && e.pos.pa != s.src.pos.pa then some (s.faultOf .illegalOperand) else none

/-- JOIN (R40, R215). -/
def execJoin (s : State) : Host.Outcome State Fault Refusal :=
  issueWord { ctlSpec [] with value := joinFault } (fun s' => (s'.pop.counts [(0x05, 1)]).sign true) s

/-! ### The end of lanes and groups -/

/-- The fault of an EXIT: a register in error where it would retire the group, then a lane that leaves an instance while
others are held (R45, R336, R339). -/
def exitFault (s : State) : Option FaultInfo :=
  let g := s.src
  let regs : Option FaultInfo :=
    if g.x ||| g.em = BitVec.allOnes 32 then
      errOf g [{ file := .v, n := 0, cnt := g.v.length, rd := true, wr := false, trap := false },
               { file := .s, n := 0, cnt := g.s.length, rd := true, wr := false, trap := false }]
    else none
  match regs with
  | some f => some (consumed f)
  | none =>
    match (g.held.filter (fun h => h.mask &&& g.em ≠ 0 && h.arrived ≠ 0)).head? with
    | some h => some (s.faultAt .exitedLane 0 ((lanesOf (h.mask &&& g.em)).headD 0) none)
    | none => none

/-- A group whose lanes have all exited retires; the last of its team lets the team end (R15, R41, R217). -/
def State.retire (s : State) : State :=
  let s := (s.modG (fun g => { g with retired := true, loopBuf := none })).counts [(0x14, 1)]
  if (s.team s.g.team).groups.all (fun i => (s.grp i).retired) then s.post 0 (.teamEnd s.g.team) else s

/-- The signature of a retiring group of a replay joins the grid's (R452). -/
def State.gridSign (s : State) : State :=
  let t := s.team s.g.team
  if s.g.retired && s.inReplay s.g.team then
    s.modPart t.part (fun p => { p with replay := { p.replay with
      grid := (p.replay.grid + s.g.sig.toNat * (64 * t.teamid + 2 * s.g.gnum + 1)) % 18446744073709551616 } })
  else s

/-- EXIT (R41, R216). -/
def execExit (s : State) : Host.Outcome State Fault Refusal :=
  let e := s.src.em
  issueWord { ctlSpec [] with value := exitFault }
    (fun s' =>
      let s1 := s'.modG (fun g =>
        { g with x := g.x ||| e, em := 0, stack := g.stack.map (fun k => { k with mask := k.mask &&& ~~~e }) })
      let s2 :=
        if s1.g.x = BitVec.allOnes 32 then (s1.retire).verd .transferred
        else if s1.g.stack.isEmpty then s1.transfer (nextPacket s1.g.pos)
        else s1.pop
      (s2.sign true).gridSign) s

/-! ### Refill (R47 to R49, R218 to R220) -/

/-- The first item of a team, and the queue without it. -/
def takeItem (t : Nat) : List (Nat × Word) → Option (Word × List (Nat × Word))
  | [] => none
  | (k, w) :: r => if k = t then some (w, r) else
      match takeItem t r with
      | some (x, q) => some (x, (k, w) :: q)
      | none => none

/-- The pops of ITEMHEAD in ascending lane order: the queue left, the lanes that popped with their items, and the lanes
that exited (R48). -/
def itemPops (t : Nat) (done : Word) : List Nat → List (Nat × Word) → List (Nat × Word) × List (Nat × Word) × List Nat
  | [], q => (q, [], [])
  | i :: r, q =>
    if bitOf done i then
      match takeItem t q with
      | some (w, q') => let (q2, ps, xs) := itemPops t done r q'; (q2, (i, w) :: ps, xs)
      | none => let (q2, ps, xs) := itemPops t done r q; (q2, ps, i :: xs)
    else itemPops t done r q

/-- ITEMPUT: the indices of the active lanes join the core's queue, all of them or none (R47, R219). -/
def execItemput (a : Nat) (fa : Bool) (s : State) : Host.Outcome State Fault Refusal :=
  let ls := lanesOf s.src.em
  issueWord
    { ctlSpec [srcV a fa] with
      fmt := fmtInt [a]
      wait := fun s => ls.length != 0 && (s.kept30 || Nat.blt 256 ((s.core s.g.coreId).items.length + ls.length)) }
    (fun s' =>
      let c := s'.core s'.g.coreId
      s'.setCore s'.g.coreId { c with items := c.items ++ ls.map (fun i => (s.src.team, s.src.vLane a i)) }) s

/-- ITEMHEAD (R48, R49, R218). -/
def execItemhead (d a : Nat) (fa : Bool) (imm : Nat) (s : State) : Host.Outcome State Fault Refusal :=
  let g := s.src
  issueWord
    { ctlSpec [srcS a fa, dstV d] with
      value := fun s => if s.src.stack.isEmpty && s.src.em == ~~~s.src.x then none else some (s.faultOf .illegalOperand) }
    (fun s' =>
      let c := s'.core g.coreId
      let (q, ps, xs) := itemPops g.team (g.sVal a) (lanesOf g.em) c.items
      let out := maskOf (fun i => xs.contains i)
      let s1 := (s'.setCore g.coreId { c with items := q }).wrV d .i32 (maskOf (fun i => ps.any (fun p => p.1 == i)))
        (fun i => SMap.getD ps i 0)
      let s2 := s1.modG (fun g => { g with x := g.x ||| out, em := g.em &&& ~~~out, icount := [] })
      (if s2.g.em = 0 then s2.goto (targetOf g.pos.pa (sint 12 imm)) else s2.jump (nextPacket g.pos)).sign true) s

/-! ### Counted loops (R221, R222) -/

/-- Whether a loop buffer of the group's sub-core is free: there are two. -/
def State.loopFree (s : State) (g : Group) : Bool :=
  Nat.blt (s.groups.filter (fun x =>
    x.2.loopBuf.isSome && x.2.coreId == g.coreId && x.2.subc == g.subc && !x.2.retired)).length 2

/-- LOOPB: the last pass falls through (R221); a group without a loop buffer is given a free one as it repeats (R222). -/
def execLoopb (d n : Nat) (s : State) : Host.Outcome State Fault Refusal :=
  let g := s.src
  let first := targetOf g.pos.pa (-(n : Int))
  issueWord (ctlSpec [updS d])
    (fun s' =>
      if Nat.ble (g.sVal d).toNat 1 then (s'.wrS d 0).sign false
      else
        let s1 := s'.wrS d (g.sVal d - 1)
        let s2 := if g.loopBuf.isNone && s1.loopFree g then
            s1.modG (fun x => { x with loopBuf := some { first := first, len := n + 1, kept := [], flush := false } })
          else s1
        (s2.goto first).sign false) s

end Sys2Proof.Machine
end

