-- ==== Sys2Proof/Machine/Engines.lean ====
section
/-! DEFINITION. Engine words at issue: ACP with its range locks and copy slots, and the matrix words (R97, R128, R300 to
R316, R380). -/

namespace Sys2Proof.Machine

/-! ### Range-lock entries and copy slots (R128, R303) -/

/-- The span of whole lines that covers byte ranges: (address, bytes) of one region. -/
def spanOf (l : List (DWord × Nat)) : Nat × Nat :=
  (l.foldl (fun m x => min m (adPlace x.1 / 64 * 64)) (2 ^ 64), l.foldl (fun m x => max m ((adPlace x.1 + x.2 + 63) / 64 * 64)) 0)

/-- The regions of a list of addresses, each once. -/
def regionsOf (l : List (DWord × Nat)) : List Nat := (l.map (fun x => adRegion x.1)).eraseDups

/-- One entry per region that a side touches (R128, R303). -/
def lockSide (owner team : Nat) (dst : Bool) (l : List (DWord × Nat)) : List RangeLock :=
  (regionsOf l).map (fun r =>
    let sp := spanOf (l.filter (fun x => adRegion x.1 == r))
    { owner := owner, team := team, region := r, lo := sp.1, hi := sp.2, dst := dst })

/-- Whether two registered ranges overlap. -/
def State.locksMeet (s : State) (a b : RangeLock) : Bool :=
  s.sameView a b.team b.region && Nat.blt a.lo b.hi && Nat.blt b.lo a.hi

/-- Whether a new range must wait for a registered one: a destination for any, a source for a destination (R128). -/
def State.lockBlocked (s : State) (core : Nat) (n : RangeLock) : Bool :=
  (s.core core).ranges.any (fun r => (n.dst || r.dst) && s.locksMeet r n)

/-- The words of a core that still wait for entries or slots, oldest first (R128). -/
def State.lineUp (s : State) (core : Nat) : List Waiter :=
  (s.core core).waiters.filter (fun w => (SMap.find s.groups w.gid).isSome && !(s.grp w.gid).stopped && !(s.grp w.gid).retired)

/-- The free entries of a core's table, and its free copy slots (R128, R303). -/
def State.freeEntries (s : State) (core : Nat) : Nat := 64 - (s.core core).ranges.length
def State.freeSlots (s : State) (core : Nat) : Nat := 32 - (List.filter (fun x => x.2.core == core) s.copies).length

/-- Whether the current group may take `n` entries, and a copy slot if it asks for one, and leaves each word that waits before it what it
needs of them (R128, R303). -/
def State.mayTake (s : State) (core n : Nat) (slot : Bool) : Bool :=
  let ahead := (s.lineUp core).takeWhile (fun w => w.gid != s.cur)
  (n = 0 || Nat.ble ((ahead.map (fun w => w.entries)).foldl (· + ·) n) (s.freeEntries core)) &&
    (!slot || Nat.blt (ahead.filter (fun w => w.slot)).length (s.freeSlots core))

/-- A word that lacks entries or a slot joins the line; one that waits only for an overlap leaves it (R128). -/
def State.joinLine (core n : Nat) (slot : Bool) (s : State) : State :=
  let c := s.core core
  let w : Waiter := { gid := s.cur, entries := n, slot := slot }
  let line :=
    if s.mayTake core n slot then c.waiters.filter (fun x => x.gid != s.cur)
    else if c.waiters.any (fun x => x.gid == s.cur) then c.waiters.map (fun x => if x.gid = s.cur then w else x)
    else c.waiters ++ [w]
  s.setCore core { c with waiters := line }

/-- Registers entries and leaves the line. -/
def State.register (core : Nat) (l : List RangeLock) (s : State) : State :=
  let c := s.core core
  s.setCore core { c with ranges := c.ranges ++ l, waiters := c.waiters.filter (fun w => w.gid != s.cur) }

/-- Releases the entries of an owner. -/
def State.unregister (core owner : Nat) (s : State) : State :=
  let c := s.core core
  s.setCore core { c with ranges := c.ranges.filter (fun r => r.owner != owner) }

/-! ### ACP (R300 to R305) -/

/-- The lanes of an ACP with their source and destination addresses (R300). -/
def acpEnds (g : Group) (base idx dbase didx : Nat) : List (Nat × DWord × DWord) :=
  (lanesOf g.em).map (fun i => (i, laneAddr g base idx i, laneAddr g dbase didx i))

/-- Whether an address is lane-private, so that each lane has memory of its own there (R105, R107, R474). -/
def ownAddr (a : DWord) : Bool := !adWin a && adSpace a == 4

/-- Whether the `z` bytes of lane `i` at one address are bytes of lane `k` at another. -/
def rangesMeet (i : Nat) (a : DWord) (k : Nat) (b : DWord) (z : Nat) : Bool :=
  adRegion a == adRegion b && (!ownAddr a || i == k) && Nat.blt (adPlace a) (adPlace b + z) && Nat.blt (adPlace b) (adPlace a + z)

/-- The decoding of an engine address at issue: the space code, then the range of the space (R106, R302, R335). Its
translation is checked in service. -/
def State.engineAddr (s : State) (a : DWord) (n : Nat) : Option FaultClass :=
  if adWin a then none
  else if Nat.blt 4 (adSpace a) || adRsvd a then some .illegalOperand
  else if adSpace a = 0 then (if Nat.blt (2 ^ 57) (adOfs a + n) then some .access else none)
  else if adSpace a = 4 then (if Nat.blt (4 * s.myTeam.kernel.priv) (adOfs a + n) then some .access else none)
  else match s.placeOf s.src.team s.src.gnum 0 a n .load with
    | .fault .access 0 => if adSpace a = 3 && s.inChip s.myTeam (adOfs a) n then none else some .access
    | _ => none

/-- The checks of one lane in order: alignment of both addresses, their decoding, the completion scope (R302). -/
def acpLane (s : State) (z csc : Nat) (e : Nat × DWord × DWord) : Option FaultInfo :=
  let (i, sa, da) := e
  let f := fun c a => some (s.faultAt c 0 i (some a))
  if sa.toNat % min z 64 != 0 then f .misalignment sa
  else if da.toNat % min z 64 != 0 then f .misalignment da
  else match s.engineAddr sa z with
  | some c => f c sa
  | none => match s.engineAddr da z with
    | some c => f c da
    | none => if csc == 3 && !adWin da && adSpace da != 0 then f .illegalOperand da else none

/-- The fault of the counter's address, decoded as an ATOM.add address (R304). -/
def acpCounter (s : State) (a : DWord) : Option FaultInfo :=
  match decodeFault a 4 with
  | some c => some (s.faultAt c 0 0 (some a))
  | none =>
    if !adWin a && adSpace a == 4 then some (s.faultAt .illegalOperand 0 0 (some a))
    else match s.engineAddr a 4 with
    | some c => some (s.faultAt c 0 0 (some a))
    | none => none

/-- The lane that a copy over a live barrier word names: the lowest whose own bytes are of one, else, where only the span between the lanes covers
it, the lowest with a destination in the core scratchpad (R303, R340; DESIGN CHOICE, log entry 47). -/
def State.liveLane (s : State) (ends : List (Nat × DWord × DWord)) (z : Nat) : Option (Nat × DWord × DWord) :=
  let here := ends.filter (fun e => adRegion e.2.2 == 1)
  match here.find? (fun e => s.hitsLive s.src.team (adPlace e.2.2) (adPlace e.2.2 + z)) with
  | some e => some e
  | none => here.head?

/-- The value checks of an ACP: the policy, then with em ≠ 0 its lanes, the overlap of its sides, a live barrier word under
a destination, and the counter's address. Of two lanes whose sides overlap, the lane whose source it is reports its source address, the lowest
such lane first (R110, R129, R301 to R304, R340; DESIGN CHOICE, log entry 47). -/
def acpFault (ends : List (Nat × DWord × DWord)) (z pol cmpl csc d : Nat) (s : State) : Option FaultInfo :=
  if !polOk [0] false (s.src.sVal pol) then some (s.faultOf .illegalOperand)
  else match (ends.filterMap (acpLane s z csc)).head? with
  | some f => some f
  | none =>
    match ends.find? (fun x => ends.any (fun y => rangesMeet x.1 x.2.1 y.1 y.2.2 z)) with
    | some x => some (s.faultAt .illegalOperand 0 x.1 (some x.2.1))
    | none =>
      let spans := (lockSide 0 s.src.team true (ends.map (fun e => (e.2.2, z)))).filter (fun r => r.region == 1)
      if spans.any (fun r => s.hitsLive s.src.team r.lo r.hi) then
        let e := s.liveLane ends z
        some (s.faultAt .rangeLock 2 ((e.map Prod.fst).getD 0) (e.map (fun e => e.2.2)))
      else if cmpl == 2 && !ends.isEmpty then acpCounter s (s.src.sPair d) else none

/-- Lanes of fewer than 64 bytes that merge: the same source line, destination line and distance; lines of lane-private memory are each
lane's own (R380, R474). -/
def acpMerge (x y : Nat × DWord × DWord) : Bool :=
  (x.1 == y.1 || (!ownAddr x.2.1 && !ownAddr x.2.2)) && adRegion x.2.1 == adRegion y.2.1 && adRegion x.2.2 == adRegion y.2.2 && adPlace x.2.1 / 64 == adPlace y.2.1 / 64
    && adPlace x.2.2 / 64 == adPlace y.2.2 / 64 && x.2.2 - x.2.1 == y.2.2 - y.2.1

/-- The transfers of a copy, in the order they are sent (R380). -/
def acpXfers (ends : List (Nat × DWord × DWord)) (z : Nat) : List Xfer :=
  if Nat.ble 64 z then
    ends.flatMap (fun e => (List.range (z / 64)).map (fun k => { lane := e.1, lanes := [e.1], chunk := k }))
  else
    (ends.filter (fun e => !ends.any (fun y => Nat.blt y.1 e.1 && acpMerge y e))).map (fun e =>
      { lane := e.1, lanes := (ends.filter (fun y => acpMerge y e)).map Prod.fst, chunk := 0 })

/-- The distinct destination lines of a copy; those of lane-private memory are each lane's own (R300, R474). -/
def acpLines (ends : List (Nat × DWord × DWord)) (z : Nat) : Nat :=
  (ends.flatMap (fun e => (List.range ((z + 63) / 64)).map (fun k =>
    (if ownAddr e.2.2 then 32 + e.1 else adRegion e.2.2 + 64, adPlace e.2.2 / 64 + k)))).eraseDups.length

/-- The range-lock entries of a copy (R128, R303). -/
def acpLocks (id team z : Nat) (ends : List (Nat × DWord × DWord)) : List RangeLock :=
  lockSide id team false (ends.map (fun e => (e.2.1, z))) ++ lockSide id team true (ends.map (fun e => (e.2.2, z)))

/-- ACP: at issue it takes a slot and its range locks, empties a token, and its transfers start (R300 to R305). With
em = 0 it has no effect (R305). -/
def execAcp (d base idx pol : Nat) (fx : Bool) (dbase didx : Nat) (fy : Bool) (size cmpl bar csc : Nat) (s : State) :
    Host.Outcome State Fault Refusal :=
  let z := 4 * 2 ^ size
  let ends := acpEnds s.src base idx dbase didx
  let locks := fun (id : Nat) => acpLocks id s.src.team z ends
  let core := s.src.coreId
  issueWord
    { uses := [srcSP base fx, srcV idx fx, srcS pol fx, srcSP dbase fy, srcV didx fy] ++
        (if cmpl = 0 then [dstV d] else if cmpl = 2 then [srcSP d fx] else [])
      opnd := fun s => cmpl == 1 && Nat.ble s.myTeam.kernel.barriers bar
      fmt := fmtInt [idx, didx]
      value := acpFault ends z pol cmpl csc d
      wait := fun s => s.src.em != 0 &&
        (s.kept30 || !s.mayTake core (locks 0).length true || (locks 0).any (s.lockBlocked core))
      onWait := State.joinLine core (locks 0).length true
      cls := fun _ => [(17, acpLines ends z)]
      evs := fun s => if s.src.em = 0 then [] else [(0x11, acpLines ends z)]
      dirty := fun s => cmpl == 2 && s.src.em != 0 }
    (fun s' =>
      if s.src.em = 0 then s'
      else
        let id := s'.ticket
        let k : Copy :=
          { gid := s'.cur, team := s.src.team, ctx := s.myTeam.ctx, core := core, pol := s.src.sVal pol, pos := s.wordPos,
            size := z, scope := (ends.map (fun e => effScope csc e.2.2)).foldl max csc, ends := ends,
            xfers := acpXfers ends z, done := (match cmpl with
              | 0 => .token d s.src.em | 1 => .bar bar | _ => .ctr (s.src.sPair d)),
            path := s.src.path, halt := false, late := 0 }
        let s1 := (s'.register core (locks id)).tick
        let s2 := if cmpl = 0 then s1.modG (fun g => g.emptyV d .i32) else s1
        ({ s2 with copies := SMap.set s2.copies id k }).post 0 (.copyLineTransfer id)) s

/-! ### Matrix words (R306 to R316) -/

/-- The energy class and the accumulator tag of a step on operand tags under a mode, where R97 accepts them. -/
def stepKind (a b : Tag) (mode : Nat) : Option (Nat × Tag) :=
  let fp8 := fun (t : Tag) => t == .e4m3x4 || t == .e5m2x4
  if fp8 a && fp8 b then (if Nat.ble mode 2 then some (14, .fp32) else none)
  else if a == .e2m1x8 && b == .e2m1x8 then (if mode = 2 then some (16, .fp32) else none)
  else if a == b && (a == .bf16x2 || a == .fp16x2) then (if mode = 0 then some (15, .fp32) else none)
  else if a == .i8x4 && b == .i8x4 then (if mode = 0 then some (14, .i32) else none)
  else none

/-- The tag and the mode that the queued words will leave (R308). -/
def Team.trackTag (t : Team) (n : Nat) : Tag := t.track.getD n .raw

/-- The value checks of a matrix word when its instance completes (R308): the R45 checks of the arrival first, then the
checks of the word, made by the completing arrival. -/
def mxFault (r : Group → Arrival) (chk : State → Option FaultInfo) (s : State) : Option FaultInfo :=
  if s.src.em = 0 then none
  else match r s.src with
  | .fault c i => some (s.faultAt c 0 i none)
  | .wait _ => none
  | .done _ => chk s

/-- Whether the arrival completes the instance. -/
def completes (r : Group → Arrival) (s : State) : Bool :=
  s.src.em != 0 && (match r s.src with | .done _ => true | _ => false)

/-- Whether the team has a queue entry free: 64 in the cluster, 16 to a team (R307). -/
def State.mxRoom (s : State) : Bool :=
  let q := (s.cluster s.src.cluster).queue
  !s.kept30 && Nat.blt q.length 64 && Nat.blt (q.filter (fun w => w.team == s.src.team)).length 16

/-- A word joins the cluster's matrix queue (R307); the unit's two servers are called (R378). -/
def State.mxPush (k : MxKind) (pol : Word) (pos : Pos) (s : State) : State :=
  let c := s.cluster s.g.cluster
  let w : MxWord := { row := 0, buf := [], id := s.ticket, team := s.g.team, gid := s.cur, pos := pos, pol := pol, kind := k,
                      path := s.g.path, halt := false }
  (((s.setCluster s.g.cluster { c with queue := c.queue ++ [w] }).tick.post 0 (.tilePortService s.g.cluster)).post 0
    (.matrixStep s.g.cluster)).post 0 (.batchComplete s.g.team)

/-- The arrival of a matrix word with member mask scalar `m` (R306, R307). -/
def mxArrive (p : Pos) (m : Nat) (g : Group) : Arrival := arrive g p (g.sVal m) (fun _ => 0) (fun _ => 0)

/-- A queued matrix word: member-masked, with its tile numbers checked at each issue, its other checks, its range locks and
what it leaves on the tracked state (R306 to R313). -/
def mxWord (memb : Nat) (us : List Use) (tiles : List Nat) (opnd : State → Bool) (chk : State → Option FaultInfo)
    (locks : State → Nat → List RangeLock) (cls : List (Nat × Nat)) (kind : State → MxKind) (pol : Group → Word)
    (track : Team → Team) (s : State) : Host.Outcome State Fault Refusal :=
  let r := mxArrive s.wordPos memb
  let core := s.src.coreId
  issueWord
    { uses := us ++ [srcS memb false]
      opnd := opnd
      matrix := fun s => tiles.any (fun t => Nat.ble s.myTeam.kernel.tiles t)
      value := mxFault r chk
      wait := fun s => completes r s && (!s.mxRoom || ((locks s 0).length != 0 &&
        (!s.mayTake core (locks s 0).length false || (locks s 0).any (s.lockBlocked core))))
      onWait := fun s => if (locks s 0).length != 0 && s.mxRoom then s.joinLine core (locks s 0).length false else s
      cls := fun s => if completes r s then cls else [] }
    (memberEff r (fun _ s1 =>
      let id := s1.ticket
      let s2 := if (locks s 0).length != 0 then s1.register core (locks s id) else s1
      (s2.modTeam s2.g.team track).mxPush (kind s) (pol s.src) s.wordPos) s) s

/-- MZERO (R312). Of a bad tile number and a bad tag the tile number is reported, in the table order of R308, where R178 has illegal operands
before matrix descriptors (DESIGN CHOICE, log entry 47). -/
def execMzero (tag d memb : Nat) (s : State) : Host.Outcome State Fault Refusal :=
  mxWord memb [] [d] (fun s => Nat.blt 10 tag && Nat.blt d s.myTeam.kernel.tiles) (fun _ => none) (fun _ _ => []) [] (fun _ => .zero d ((tagOf? tag).getD .raw))
    (fun _ => 0) (fun t => { t with track := t.track.set d ((tagOf? tag).getD .raw) }) s

/-- Whether a line of a matrix word's rows is refused as an operand: an address without a space, a lane-private one, or a system scope on
memory of the device (R106, R107, R119, R255, R309). -/
def mxAddrBad (pol : Word) (a : DWord) : Bool :=
  !adWin a && (Nat.ble 4 (adSpace a) || adRsvd a || (adSpace a != 0 && polScope pol == 3))

/-- The checks of a memory matrix word: its policy, its base, the addresses of its rows, which R308 does not place in its order (DESIGN
CHOICE, log entry 47), its descriptor, its tag (R308, R309). `rows` are the addresses of the ends of its rows. -/
def mxMemChk (a b : Nat) (rows : Nat → List DWord) (descBad : Nat → Bool) (desc : Nat) (tagBad : State → Bool) (s : State) :
    Option FaultInfo :=
  let n := (s.src.sVal desc).toNat
  if !polOk [0] false (s.src.sVal b) then some (s.faultOf .illegalOperand)
  else if !(rows n).isEmpty && (s.src.sPair a).toNat % 64 != 0 then some (s.faultAt .misalignment 0 0 (some (s.src.sPair a)))
  else match (rows n).find? (mxAddrBad (s.src.sVal b)) with
  | some x => some (s.faultAt .illegalOperand 0 0 (some x))
  | none =>
  if descBad n then some (s.faultOf .matrixDescriptor)
  else if tagBad s then some (s.faultAt .format 1 0 none)
  else none

/-- The addresses of the first and the last lines of a tile's rows, and the span of its first and last row (R309). -/
def rowAddrs (base : DWord) (pitch : Nat) : List DWord :=
  (List.range 128).flatMap (fun r =>
    [base + BitVec.ofNat 64 (64 * pitch * r), base + BitVec.ofNat 64 (64 * pitch * r) + 448])
def tileRows (base : DWord) (pitch : Nat) : List (DWord × Nat) :=
  [(base, 512), (base + BitVec.ofNat 64 (64 * pitch * 127), 512)]

/-- The range-lock entries of a matrix word (R128, R310, R311). -/
def MxKind.locks (id team : Nat) : MxKind → List RangeLock
  | .load _ base pitch _ => lockSide id team false (tileRows base pitch)
  | .store _ base pitch => lockSide id team true (tileRows base pitch)
  | .scale base mode => if mode = 0 then [] else lockSide id team false [(base, 1024)]
  | _ => []

/-- MLD (R309, R310). -/
def execMld (d a b : Nat) (fa fb : Bool) (memb desc : Nat) (fy : Bool) (s : State) : Host.Outcome State Fault Refusal :=
  let tag := polTag (s.src.sVal b)
  mxWord memb [srcSP a fa, srcS b fb, srcS desc fy] [d] (fun _ => false)
    (mxMemChk a b (fun n => rowAddrs (s.src.sPair a) (n % 16777216)) (fun n => n / 16777216 != 0) desc (fun _ => false))
    (fun s id => (MxKind.load d (s.src.sPair a) (s.src.sVal desc).toNat tag).locks id s.src.team) [(17, 1024)]
    (fun s => .load d (s.src.sPair a) (s.src.sVal desc).toNat tag) (fun g => g.sVal b)
    (fun t => { t with track := t.track.set d tag }) s

/-- MST (R309, R310). -/
def execMst (d a b : Nat) (fa fb : Bool) (memb desc : Nat) (fy : Bool) (s : State) : Host.Outcome State Fault Refusal :=
  mxWord memb [srcSP a fa, srcS b fb, srcS desc fy] [d] (fun _ => false)
    (mxMemChk a b (fun n => rowAddrs (s.src.sPair a) (n % 16777216)) (fun n => n / 16777216 != 0 || Nat.blt n 8) desc
      (fun s => polFmt (s.src.sVal b) != 0 && tagCode (s.myTeam.trackTag d) != polFmt (s.src.sVal b)))
    (fun s id => (MxKind.store d (s.src.sPair a) (s.src.sVal desc).toNat).locks id s.src.team) [(17, 1024)]
    (fun s => .store d (s.src.sPair a) (s.src.sVal desc).toNat) (fun g => g.sVal b) id s

/-- MSCALE: with MODE 0 it reads no memory (R311). -/
def execMscale (a b : Nat) (fa fb : Bool) (memb desc : Nat) (fy : Bool) (s : State) : Host.Outcome State Fault Refusal :=
  let mode := (s.src.sVal desc).toNat % 4
  mxWord memb [srcSP a fa, srcS b fb, srcS desc fy] [] (fun _ => false)
    (mxMemChk a b (fun n => if n % 4 = 0 then [] else [s.src.sPair a]) (fun n => n / 4 != 0 || n % 4 == 3) desc (fun _ => false))
    (fun s id => (MxKind.scale (s.src.sPair a) mode).locks id s.src.team)
    (if mode = 0 then [] else [(17, 16)]) (fun s => .scale (s.src.sPair a) mode) (fun g => g.sVal b)
    (fun t => { t with trackMode := mode }) s

/-- The fields of a step descriptor (R313). -/
structure StepDesc where
  steps : Nat
  aring : Nat
  bring : Nat
  ksl   : Nat

def stepDesc (n : Nat) : StepDesc :=
  { steps := n / 65536 % 256 + 1, aring := 2 ^ (n / 16384 % 4), bring := 2 ^ (n / 4096 % 4), ksl := n % 8 }

/-- The tile of an operand that step `j` reads (R314). -/
def stepTile (t e ring ksl j : Nat) : Nat := t + (ksl + j) / e % ring

/-- The checks of MMA and MLOOP on the tracked state (R97, R308, R313). -/
def stepChk (loop : Bool) (d a b desc : Nat) (s : State) : Option FaultInfo :=
  let n := (s.src.sVal desc).toNat
  let x := stepDesc n
  let t := s.myTeam
  let as' := (List.range x.aring).map (a + ·)
  let bs := (List.range x.bring).map (b + ·)
  let e := elems (t.trackTag a)
  let bad := s.faultOf .matrixDescriptor
  if n / 16777216 != 0 || n / 8 % 512 != 0 || (!loop && n / 4096 != 0) then some bad
  else if (as' ++ bs).any (fun k => Nat.ble t.kernel.tiles k) then some bad
  else match stepKind (t.trackTag a) (t.trackTag b) t.trackMode with
  | none => some bad
  | some (_, acc) =>
    if !as'.all (fun i => bs.all (fun k =>
        stepKind (t.trackTag i) (t.trackTag k) t.trackMode == stepKind (t.trackTag a) (t.trackTag b) t.trackMode)) then some bad
    else if Nat.ble e x.ksl then some bad
    else if t.trackTag d != acc then some bad
    else if (List.range x.steps).any (fun j =>
        stepTile a e x.aring x.ksl j == d || stepTile b e x.bring x.ksl j == d) then some bad
    else none

/-- MMA and MLOOP: their steps are queued together (R313, R314). -/
def stepWord (loop : Bool) (d a b memb desc : Nat) (fy : Bool) (s : State) : Host.Outcome State Fault Refusal :=
  mxWord memb [srcS desc fy] [d, a, b] (fun _ => false) (stepChk loop d a b desc) (fun _ _ => []) []
    (fun s =>
      let x := stepDesc (s.src.sVal desc).toNat
      .steps d a b x.ksl x.aring x.bring 0 x.steps) (fun _ => 0) id s

/-- MMA (R313, R314). -/
def execMma (d a b memb desc : Nat) (fy : Bool) (s : State) : Host.Outcome State Fault Refusal :=
  stepWord false d a b memb desc fy s

/-- MLOOP (R313, R314). -/
def execMloop (d a b memb desc : Nat) (fy : Bool) (s : State) : Host.Outcome State Fault Refusal :=
  stepWord true d a b memb desc fy s

/-- MFENCE: it closes the batch; its destination waits for the batch's end. With em = 0 it closes none and writes 0
(R315). -/
def execMfence (d : Nat) (s : State) : Host.Outcome State Fault Refusal :=
  issueWord { uses := [dstS d], wait := fun s => s.src.em != 0 && !s.mxRoom }
    (fun s' =>
      if s.src.em = 0 then s'.wrS d 0
      else (s'.modG (fun g => g.emptyS d)).mxPush (.fence d) 0 s.wordPos) s

/-- MWAIT: once its instance completes, its members' paths block until the batch is reached (R316). -/
def execMwait (a : Nat) (fa : Bool) (memb : Nat) (s : State) : Host.Outcome State Fault Refusal :=
  let r := mxArrive s.wordPos memb
  let n := (s.src.sVal a).toNat
  issueWord { uses := [srcS a fa, srcS memb false], value := mxFault r (fun _ => none) }
    (fun s' =>
      if s.src.em = 0 then s'
      else match r s.src with
      | .done h =>
        if batchDone s.myTeam.batch n then s'.modG (fun g => g.complete h)
        else
          let wait := fun (e : StackEntry) => match e.block with
            | some b => if b.atInst h.pos && e.mask &&& h.mask ≠ 0 then { e with block := some { b with on := .batch n } } else e
            | none => e
          ((s'.modG (fun g => { g with stack := g.stack.map wait })).modG (fun g => g.complete h)).block (.batch n)
      | .wait h => (s'.modG (fun g => g.hold h)).block (.member h.pos)
      | .fault _ _ => s') s

end Sys2Proof.Machine
end

