-- ==== Sys2Proof/Machine/System.lean ====
section
/-! DEFINITION. System words: control registers, instruction-cache invalidation, the clock and meter reads, the request of an
operating point, YIELD, TRAP and TRAPRET (R72, R73, R162, R164, R324 to R331, R344). -/

namespace Sys2Proof.Machine

/-! ### Control registers (R72, R73, R325) -/

/-- GRPID (R73). -/
def Group.grpid (g : Group) : Word :=
  BitVec.ofNat 32 (g.facet % 16 * 16777216 + g.core % 16 * 1048576 + g.cluster % 128 * 8192 + g.subc % 4 * 2048
    + g.role % 2 * 1024 + g.gnum % 32)

/-- An allocation's register: bit 31 where there is one, and its byte offset (R72). -/
def ofsWord : Option Nat → Word
  | some o => BitVec.ofNat 32 (2147483648 + o % 268435456)
  | none => 0

/-- The value of an assigned control register (R72). -/
def State.csrRead (s : State) (n : Nat) : Option Word :=
  let g := s.src
  let t := s.team g.team
  match n with
  | 0x000 => some (BitVec.ofNat 32 (t.ctx % 1024))
  | 0x001 => some (BitVec.ofNat 32 (t.part % 16 * 256 + t.crec.vf % 64))
  | 0x002 => some (BitVec.ofNat 32 t.teamid)
  | 0x003 => some g.grpid
  | 0x004 => some g.x
  | 0x005 => some (BitVec.ofNat 32 (g.stack.length % 64))
  | 0x006 => some (ofsWord t.cmofs)
  | 0x007 => some (ofsWord t.chofs)
  | 0x008 => some g.csr.hndLo
  | 0x009 => some g.csr.hndHi
  | 0x00A => some g.csr.hnden
  | 0x00B => some (BitVec.ofNat 32 (g.csr.hact.toNat * 2147483648 + g.csr.sync.toNat % 2147483648))
  | 0x00C => some g.csr.synaLo
  | 0x00D => some g.csr.synaHi
  | 0x00E => some g.csr.epcLo
  | 0x00F => some g.csr.epcHi
  | 0x010 => some (BitVec.ofNat 32 (g.csr.eword % 4))
  | _ => none

/-- The control registers after a write, where the register is RW (R72). -/
def Csrs.write (c : Csrs) (n : Nat) (x : Word) : Option Csrs :=
  match n with
  | 0x008 => some { c with hndLo := x }
  | 0x009 => some { c with hndHi := x }
  | 0x00A => some { c with hnden := x &&& 7 }
  | 0x00E => some { c with epcLo := x }
  | 0x00F => some { c with epcHi := x }
  | 0x010 => some { c with eword := x.toNat % 4 }
  | _ => none

/-- CSRR: an unassigned number is an illegal operand (R325). -/
def execCsrr (d n : Nat) (s : State) : Host.Outcome State Fault Refusal :=
  issueWord { uses := [dstS d], opnd := fun s => (s.csrRead n).isNone } (State.wrS d ((s.csrRead n).getD 0)) s

/-- CSRW: an unassigned number and an RO register are illegal operands (R325). -/
def execCsrw (d n : Nat) (s : State) : Host.Outcome State Fault Refusal :=
  issueWord { uses := [srcS d false], opnd := fun s => (s.src.csr.write n 0).isNone }
    (fun s' => s'.modG (fun g => { g with csr := (g.csr.write n (s.src.sVal d)).getD g.csr })) s

/-! ### Instruction caches (R328) -/

/-- The key of a packet of a context in the instruction caches. -/
def icKey (cl ctx pa : Nat) : Nat := (65536 * cl + ctx) * 18446744073709551616 + pa

/-- The caches without the lines of a context. -/
def State.dropCode (ctx : Nat) (s : State) : State :=
  { s with icache := SMap.filter s.icache (fun k _ => k / 18446744073709551616 % 65536 != ctx) }

/-- ICINV waits for every earlier store of its group (R328). -/
def State.storesOut (s : State) : Bool := (s.opsOf s.cur).any (fun x => x.2.kind.writes)

/-- ICINV (R328). -/
def execIcinv (s : State) : Host.Outcome State Fault Refusal :=
  issueWord { uses := [], wait := State.storesOut } (State.dropCode s.myTeam.ctx) s

/-- ICINV.all: every loop buffer of the context is flushed at its next packet boundary too (R328). -/
def execIcinvAll (s : State) : Host.Outcome State Fault Refusal :=
  let c := s.myTeam.ctx
  issueWord { uses := [], wait := State.storesOut }
    (fun s' =>
      let s1 := s'.dropCode c
      { s1 with groups := s1.groups.map (fun x =>
          if (s1.team x.2.team).ctx == c then
            (x.1, { x.2 with loopBuf := x.2.loopBuf.map (fun b => { b with flush := true }) })
          else x) }) s

/-! ### Clock, meters, operating point (R162, R164, R326, R327) -/

/-- CLK (R326). -/
def execClk (d : Nat) (s : State) : Host.Outcome State Fault Refusal :=
  issueWord { uses := [dstSP d] } (State.wrSPair d (BitVec.ofNat 64 s.now)) s

/-- One group-effect request with 64 bits and an answer. -/
def soloReq (data res : DWord) : LaneReq :=
  { lane := 0, addr := data, data := data, cmp := 0, st := .formed, key := 0, home := .scratch 0, slot := none, res := res,
    stat := 0, place := 0, since := 0, cost := [], paid := true }

/-- The operation of a word that answers a scalar pair from outside the core. -/
def pairOp (kind : MemKind) (d : Nat) (r : LaneReq) (s : State) : MemOp :=
  { gid := s.cur, path := s.src.path, origin := none, team := s.src.team, ctx := s.myTeam.ctx, kind := kind, unif := true, dst := [(.s, d), (.s, d + 1)],
    stat := none, mask := s.src.em, pol := 0, pos := s.wordPos, start := s.src.pos, next := s.issue.next, lanes := [r],
    cleared := true, undo := [], fail := none }

/-- A long-latency read of the home energy unit: its pair is empty until the answer returns. It is served in the home cycle in which a
charge of this cycle would land (R164, R326). -/
def meterWord (bucket : Bool) (d : Nat) (s : State) : Host.Outcome State Fault Refusal :=
  issueWord { uses := [dstSP d] }
    (fun s' =>
      let id := s'.ticket
      let s1 := s'.modG (fun g => g.emptyN .s d .raw 2)
      let p := s.myTeam.part
      ({ s1 with ops := SMap.set s1.ops id (pairOp (.meter bucket) d (soloReq 0 0) s) }.tick).postAt (.facets p)
        (s.homeCycle p s.src.facet) (.longLatencyCompletion id)) s

/-- RDMETER: bits 71:8 of the account (R164). -/
def execRdmeter (d : Nat) (s : State) : Host.Outcome State Fault Refusal := meterWord false d s

/-- RDBKT: the integer part of the bucket level (R164). -/
def execRdbkt (d : Nat) (s : State) : Host.Outcome State Fault Refusal := meterWord true d s

/-- OPREQ: a request clipped into the context's range, or its withdrawal, on its way to the home unit as a reading word is; a context without
the right takes a privilege fault (R162, R327; the cycle of its service is DEDUCED from R164, log entry 46). -/
def execOpreq (a : Nat) (fa : Bool) (s : State) : Host.Outcome State Fault Refusal :=
  let x := (s.src.sVal a).toNat
  issueWord
    { uses := [srcS a fa], priv := fun s => !(s.ctx s.myTeam.ctx).oprt, dirty := fun _ => true }
    (fun s' => s'.modCtx s.myTeam.ctx (fun c =>
      { c with asks := c.asks ++ [(s.homeCycle c.part s.g.facet,
                 if x / 2147483648 = 1 then none else some (min (max (x % 16) c.opmin) c.opmax))] })) s

/-! ### Illegal words (R168 to R172, R179) -/

/-- A word that is no instruction, or that breaks its set's form: a precise illegal-instruction fault (R179). -/
def execIllegalInstruction (s : State) : Host.Outcome State Fault Refusal :=
  issueWord { uses := [], illegal := true } id s

/-! ### YIELD, TRAP, TRAPRET (R329 to R331, R344) -/

/-- YIELD: it changes no architectural state; in the next cycle another ready group of the sub-core issues (R329). -/
def execYieldW (s : State) : Host.Outcome State Fault Refusal :=
  issueWord { uses := [] }
    (fun s' => s'.modG (fun g => { g with yielded := some (s.cycle (.facets s.myTeam.part) + 1) })) s

/-- TRAP: the team stops at the boundary after the word with a software trap of code `n`, which no handler receives
(R330, R332). -/
def execTrap (n : Nat) (s : State) : Host.Outcome State Fault Refusal :=
  issueWord { uses := [] }
    (fun s' => s'.takeFault s'.cur { s'.faultOf .softwareTrap with tcode := n } s'.issue.next) s

/-- The fault of a TRAPRET: EWORD 3, then the check of R210 (R331). -/
def trapretFault (s : State) : Option FaultInfo :=
  if s.src.csr.eword = 3 then some (s.faultOf .illegalOperand) else indirectFault s.src.csr.epc s

/-- TRAPRET: HACT is cleared and the path enters the saved word; em and the stack stay (R331, R344). -/
def execTrapret (s : State) : Host.Outcome State Fault Refusal :=
  issueWord { uses := [], value := trapretFault }
    (fun s' => ((s'.modG Group.trapReturn).verd .transferred).counts [(0x05, 1)]) s

end Sys2Proof.Machine
end

