-- ==== Sys2Proof/Machine/Segments.lean ====
section
/-! DEFINITION. Named segments and records: where segments lie, the segment unit's answers, the segment words and EMIT (R136,
R318 to R323, R363 to R368, R397, R473). -/

namespace Sys2Proof.Machine

/-! ### Where segments lie (R319, R365, R368) -/

/-- A segment that holds its place on chip. -/
def Seg.onChip (g : Seg) : Bool := g.st != .mirrored

/-- The bytes of a number of segment units. -/
def unitBytes (u : Nat) : Nat := u * 65536

/-- The places taken in a cluster's memory, and in a partition's chip scratchpad: (offset, bytes). -/
def State.takenCm (s : State) (cl : Nat) : List (Nat × Nat) :=
  (s.segs.filter (fun x => !x.2.chip && x.2.cluster == cl && x.2.onChip)).map (fun x => (x.2.off, unitBytes x.2.units))
def State.takenChip (s : State) (p : Nat) : List (Nat × Nat) :=
  (s.segs.filter (fun x => x.2.chip && x.2.part == p && x.2.onChip)).map (fun x => (x.2.off, unitBytes x.2.units))

/-- Whether `n` bytes at an offset are free of a list of places and below a limit. -/
def freeAt (taken : List (Nat × Nat)) (limit n o : Nat) : Bool :=
  Nat.ble (o + n) limit && taken.all (fun x => Nat.ble (o + n) x.1 || Nat.ble (x.1 + x.2) o)

/-- The lowest offset at which `n` bytes are free: 0 or the end of a place taken (R319). -/
def lowestFree (taken : List (Nat × Nat)) (limit n : Nat) : Option Nat :=
  let c := (0 :: taken.map (fun x => x.1 + x.2)).filter (freeAt taken limit n)
  match c with
  | [] => none
  | o :: r => some (r.foldl min o)

/-- The sizes of a cluster's memory and of a partition's chip scratchpad (R105, R368). -/
def cmBytes : Nat := 6291456
def State.chipBytes (s : State) (p : Nat) : Nat := 16777216 * (facetsOf (s.part p).facets).length

/-- A place for a segment of a kind in a partition, on a cluster where it is a .cm segment. -/
def State.placeSeg (s : State) (p cl : Nat) (chip : Bool) (units : Nat) : Option Nat :=
  if chip then lowestFree (s.takenChip p) (s.chipBytes p) (unitBytes units)
  else lowestFree (s.takenCm cl) cmBytes (unitBytes units)

/-- The memory key of unit `k` of a segment on chip. -/
def State.unitKey (s : State) (g : Seg) (k : Nat) : Nat :=
  let o := g.off + unitBytes k
  if g.chip then chipKey (chipPlace (s.part g.part) o).1 + o % 16777216 else clusterKey g.cluster + o

/-- Memory with a range zeroed, and with a range copied to another. -/
def Memory.copy (m : Memory) (src dst n : Nat) : Memory :=
  (List.filter (fun c => Nat.ble src c.1 && Nat.blt c.1 (src + n)) m).foldl
    (fun r c => Memory.write r (dst + (c.1 - src)) c.2) (Memory.clear m dst n)

/-- A segment's bytes on chip set to 0. -/
def State.zeroSeg (g : Seg) (s : State) : State :=
  { s with mem := (List.range g.units).foldl (fun m k => Memory.clear m (s.unitKey g k) 65536) s.mem }

/-- A segment's bytes copied to its mirror, and from it. -/
def State.toMirror (g : Seg) (s : State) : State :=
  { s with mem := (List.range g.units).foldl (fun m k => Memory.copy m (s.unitKey g k) (g.mirror + unitBytes k) 65536) s.mem }
def State.fromMirror (g : Seg) (s : State) : State :=
  { s with mem := (List.range g.units).foldl (fun m k => Memory.copy m (g.mirror + unitBytes k) (s.unitKey g k) 65536) s.mem }

/-- The base of a segment (R320). -/
def Seg.base (g : Seg) : DWord := BitVec.ofNat 64 ((if g.chip then 3458764513820540928 else 2305843009213693952) + g.off)

/-! ### The segment unit -/

/-- The entry of a name in a virtual function (R318). -/
def State.segNamed (s : State) (p vf name : Nat) : Option (Nat × Seg) :=
  s.segs.find? (fun x => x.2.part == p && x.2.vf == vf && x.2.name == some name)

/-- The entries a virtual function holds. -/
def State.segCount (s : State) (p vf : Nat) : Nat := (s.segs.filter (fun x => x.2.part == p && x.2.vf == vf)).length

def State.modSeg (s : State) (i : Nat) (f : Seg → Seg) : State := { s with segs := SMap.modify s.segs i f }

/-- A team holds, and gives up, an attachment; the detach tick is kept for eviction, and the last to go ends a reservation (R320, R321, R364,
R365). -/
def State.attach (i t : Nat) (s : State) : State :=
  (s.modSeg i (fun g => if g.attached.contains t then g else { g with attached := g.attached ++ [t] })).modTeam t
    (fun x => if x.attach.contains i then x else { x with attach := x.attach ++ [i] })
def State.detach (i t : Nat) (s : State) : State :=
  (s.modSeg i (fun g => { g with attached := g.attached.filter (· != t), detach := s.now,
                                 reserved := g.reserved && g.attached.any (· != t) })).modTeam t
    (fun x => { x with attach := x.attach.filter (· != i) })

/-- The virtual function of a context. -/
def State.vfOf (s : State) (c : Nat) : Nat := (s.ctx c).crec.vf

/-- `n` equal events of the uncore or HBM4 domain (R141, R147). -/
def State.chargeMany (s : State) (c f dom n : Nat) (l : List (Nat × Nat)) : State :=
  if l.isEmpty || n = 0 then s
  else (s.arrive c f dom (n * unitsOf (amountOf s.weights l)) (some false)).countCtx c 0x0F
    (n * (l.filter (fun x => x.1 == 9)).foldl (fun a x => a + x.2) 0) false

/-- `n` copied lines charged to a context: of each line one event of class 17 with the memory of the facet that it touches, and one of the
uncore's classes (R141, R147). -/
def State.chargeLines (s : State) (c facet n : Nat) (core : List (Nat × Nat)) (uncore : List (Nat × Nat)) : State :=
  (s.arrive c facet facet (n * s.facetUnits (s.ctx c).part ((17, 1) :: core)) (some false)).chargeMany c facet 16 n uncore

/-- The zeroing of a segment charged to a context (R147, R319). -/
def State.chargeZero (g : Seg) (facet : Nat) (s : State) : State :=
  s.chargeLines g.ctx facet (1024 * g.units) (if g.chip then [] else [(7, 1)]) (if g.chip then [(8, 1)] else [])

/-- The status of a SEGCRT: 4 malformed, 2 name in use, 3 no room, else 1 (R319). -/
def State.segStatus (s : State) (p vf cl name units : Nat) (chip : Bool) : Nat :=
  let most := if chip then 256 * (facetsOf (s.part p).facets).length else 96
  if name = 0 || units = 0 || Nat.blt most units then 4
  else if (s.segNamed p vf name).isSome then 2
  else if (s.placeSeg p cl chip units).isNone || Nat.ble 1024 (s.segCount p vf) || !Config.mirrorRoom s.ticket then 3
  else 1

/-- A new segment's entry (R319, R363). -/
def Seg.new (part vf ctx : Nat) (name launch : Option Nat) (chip : Bool) (units cl off mirror : Nat)
    (zeroing : Option (Nat × Nat)) : Seg :=
  { part := part, vf := vf, ctx := ctx, name := name, launch := launch, chip := chip, units := units, st := .resident,
    cluster := cl, off := off, mirror := mirror, attached := [], reserved := false, detach := 0, waiters := [],
    zeroing := zeroing, cause := 0 }

/-- A segment word's checks: class 0, group effect (R318). -/
def segSpec (us : List Use) : WordSpec := { uses := us, dirty := fun _ => true }

/-- A request sent to the segment unit, which it reaches once it has crossed to the uncore (R318, R363, R429). -/
def State.askSegments (op : SegOp) (name units d : Nat) (pos : Pos) (s : State) : State :=
  let n := s.toUncore s.myTeam.part
  let r : SegReq := { gid := s.cur, team := s.g.team, op := op, name := name, units := units, dst := d, pos := pos, at' := n }
  ({ s with segReqs := SMap.set s.segReqs s.ticket r }.tick).postAt .uncore n (.longLatencyCompletion s.ticket)

/-- A scalar that a segment word writes once the unit has answered: sets that read it wait (R318). -/
def Group.owe (d : Nat) (g : Group) : Group := g.setSReg d { g.sReg d with full := true, pend := true, err := none }

/-- SEGCRT: a set that names its scalar waits for the status (R318, R319, R382). -/
def segcrtWord (chip : Bool) (d a b : Nat) (fa fb : Bool) (s : State) : Host.Outcome State Fault Refusal :=
  issueWord (segSpec [srcSP a fa, srcS b fb, dstS d])
    (fun s' => (s'.modG (Group.owe d)).askSegments (.crt chip) (s.src.sPair a).toNat (s.src.sVal b).toNat d s.wordPos) s

/-- SEGCRT.cm (R319). -/
def execSegcrtCm (d a b : Nat) (fa fb : Bool) (s : State) : Host.Outcome State Fault Refusal :=
  segcrtWord false d a b fa fb s

/-- SEGCRT.chip (R319). -/
def execSegcrtChip (d a b : Nat) (fa fb : Bool) (s : State) : Host.Outcome State Fault Refusal :=
  segcrtWord true d a b fa fb s

/-- An operation's fault in service, against the word that issued it (R254, R336). -/
def MemOp.faultAt (o : MemOp) (c : FaultClass) (cause lane : Nat) (addr : Option DWord) : FaultInfo :=
  { cls := c, cause := cause, lane := lane, addr := addr, src := o.pos, cons := false, defer := false, tcode := 0 }

def State.modOp (s : State) (id : Nat) (f : MemOp → MemOp) : State := { s with ops := SMap.modify s.ops id f }

/-- An operation that fails in service as a whole: nothing more of it is served or paid for. -/
def MemOp.failed (f : FaultInfo) (o : MemOp) : MemOp :=
  { o with fail := some f, lanes := o.lanes.map (fun r => { r with st := .failed, paid := true }) }

/-- An operation that fails in service: its long-latency completion marks the destinations errored (R336). -/
def State.failOp (id : Nat) (f : FaultInfo) (s : State) : State := (s.modOp id (MemOp.failed f)).post 0 (.longLatencyCompletion id)

/-- Every lane of an operation in one state. -/
def MemOp.markLanes (st : LaneState) (o : MemOp) : MemOp := { o with lanes := o.lanes.map (fun r => { r with st := st }) }

/-- A team whose attach has missed stops issuing, to be saved (R348). -/
def Team.miss (i : Nat) (t : Team) : Team :=
  { t with st := if t.st = .running || t.st = .draining then .missed else t.st, missSeg := some i }

/-- The service of a SEGATT on the state of its segment (R320). -/
def State.serveSegatt (id : Nat) (s : State) : State :=
  match SMap.find s.ops id with
  | none => s
  | some o =>
    let t := s.team o.team
    let name := (o.lanes.headD (soloReq 0 0)).data.toNat
    let miss := fun (i : Nat) =>
      let area := Config.saveArea s.ticket
      let s1 := ((s.count o.team 0x15 1).modTeam o.team (Team.miss i)).modOp id (fun o => o.markLanes .waiting)
      s1.tick.post 0 (.attachMissReplay o.team area)
    match s.segNamed t.part (s.vfOf o.ctx) name with
    | none => s.failOp id (o.faultAt .segmentError 0 0 none)
    | some (i, g) =>
      match g.st with
      | .resident =>
        if g.chip || g.cluster == t.cluster then
          ((s.attach i o.team).modOp id (fun o =>
            { o with lanes := o.lanes.map (fun r => { r with st := .done, res := g.base }) })).post 0 (.longLatencyCompletion id)
        else miss i
      | .mirrored => miss i
      | .evicting => s.modSeg i (fun g => { g with waiters := g.waiters ++ [id] })
      | .restoring => s.modSeg i (fun g => { g with waiters := g.waiters ++ [id] })

/-- SEGATT: a long-latency producer, served at the segment unit, which it reaches once it has crossed to the uncore (R318, R320, R363, R429). -/
def execSegatt (d a : Nat) (fa : Bool) (s : State) : Host.Outcome State Fault Refusal :=
  issueWord { uses := [srcSP a fa, dstSP d] }
    (fun s' =>
      let id := s'.ticket
      let n := s'.toUncore s'.myTeam.part
      let s1 := s'.modG (fun g => g.emptyN .s d .raw 2)
      let o := pairOp .segatt d { soloReq (s.src.sPair a) 0 with since := n } s
      ({ s1 with ops := SMap.set s1.ops id o }.tick).postAt .uncore n (.longLatencyCompletion id)) s

/-- SEGDET is performed as a release: it waits for the earlier accesses of its group that R115 orders before it (R120, R136). -/
def State.releaseWaits (s : State) : Bool := !s.earlier.isEmpty

/-- SEGDET: a release that removes the team's attachment (R136, R321). -/
def execSegdet (a : Nat) (fa : Bool) (s : State) : Host.Outcome State Fault Refusal :=
  issueWord { segSpec [srcSP a fa] with wait := State.releaseWaits }
    (State.askSegments .det (s.src.sPair a).toNat 0 0 s.wordPos) s

/-- SEGDEL (R318, R321). -/
def execSegdel (d a : Nat) (fa : Bool) (s : State) : Host.Outcome State Fault Refusal :=
  issueWord (segSpec [srcSP a fa, dstS d])
    (fun s' => (s'.modG (Group.owe d)).askSegments .del (s.src.sPair a).toNat 0 d s.wordPos) s

/-- The code of a segment's state (R322). -/
def SegState.code : SegState → Nat
  | .resident => 1
  | .evicting => 2
  | .mirrored => 3
  | .restoring => 4

/-- The snapshot of SEGQRY (R322). -/
def Seg.snapshot (g : Seg) (team : Nat) : Word :=
  BitVec.ofNat 32 (g.units % 65536 * 65536 + min g.attached.length 127 * 256 + (g.attached.contains team).toNat * 128
    + g.chip.toNat * 16 + g.st.code)

/-- SEGQRY (R318, R322). -/
def execSegqry (d a : Nat) (fa : Bool) (s : State) : Host.Outcome State Fault Refusal :=
  issueWord { uses := [srcSP a fa, dstS d] }
    (fun s' => (s'.modG (Group.owe d)).askSegments .qry (s.src.sPair a).toNat 0 d s.wordPos) s

/-! ### The service of a router cycle (R363) -/

/-- The order of the words of one cycle: SEGDEL, SEGDET, SEGATT, SEGCRT, SEGQRY (R363). -/
def SegOp.rank : SegOp → Nat
  | .del => 0
  | .det => 1
  | .crt _ => 3
  | .qry => 4

/-- Whether an operation is an attach that is to be served, at first or again (R320, R363). -/
def MemOp.reattach (o : MemOp) : Bool := o.kind == .segatt && o.fail.isNone && o.lanes.any (fun r => r.st == .formed)

/-- The place of a request in the unit's order: its cycle, its kind, then the cluster, core and sub-core of its issuer (R363). -/
def State.segKey (s : State) (id : Nat) : Option Nat :=
  let key := fun (n rank gid : Nat) => (8 * n + rank) * 8192 + 4 * (s.grp gid).coreId + (s.grp gid).subc
  match SMap.find s.segReqs id with
  | some r => some (key r.at' r.op.rank r.gid)
  | none => match SMap.find s.ops id with
    | some o => if o.reattach then some (key ((o.lanes.headD (soloReq 0 0)).since) 2 o.gid) else none
    | none => none

/-- Whether no other request comes before one at the unit (R363). -/
def State.segTurn (s : State) (id : Nat) : Bool :=
  match s.segKey id with
  | some k => !s.agenda.any (fun a => match a.2 with
      | .longLatencyCompletion j => (match s.segKey j with | some m => Nat.blt m k | none => false)
      | _ => false)
  | none => true

/-- The answer of a segment word in its scalar. -/
def State.answerSeg (r : SegReq) (x : Word) (s : State) : State := s.modGrp r.gid (fun g => g.wrS r.dst x)

/-- SEGDEL's answer: 1 deleted, 2 attached or moving, 3 unknown (R321). -/
def State.serveSegdel (r : SegReq) (s : State) : State :=
  match s.segNamed (s.team r.team).part (s.vfOf (s.team r.team).ctx) r.name with
  | none => s.answerSeg r 3
  | some (i, g) =>
    if g.attached.isEmpty && (g.st == .resident || g.st == .mirrored) then { s with segs := SMap.erase s.segs i }.answerSeg r 1
    else s.answerSeg r 2

/-- SEGDET: the attachment goes; without one the fault is deferred (R321, R339). -/
def State.serveSegdet (r : SegReq) (s : State) : State :=
  let f : FaultInfo := { cls := .segmentError, cause := 0, lane := 0, addr := none, src := r.pos, cons := false, defer := true, tcode := 0 }
  match s.segNamed (s.team r.team).part (s.vfOf (s.team r.team).ctx) r.name with
  | some (i, g) => if g.attached.contains r.team then s.detach i r.team else s.post 0 (.deferredFaultReport r.gid f)
  | none => s.post 0 (.deferredFaultReport r.gid f)

/-- SEGCRT's answer: another status than 1 at once; a status of 1 comes with the end of the zeroing (R319, R382). -/
def State.serveSegcrt (r : SegReq) (chip : Bool) (s : State) : State :=
  let t := s.team r.team
  let vf := s.vfOf t.ctx
  let st := s.segStatus t.part vf t.cluster r.name r.units chip
  if st ≠ 1 then s.answerSeg r (BitVec.ofNat 32 st)
  else
    let id := s.ticket
    let off := (s.placeSeg t.part t.cluster chip r.units).getD 0
    let g := Seg.new t.part vf t.ctx (some r.name) none chip r.units t.cluster off (Config.mirrorArea id) (some (r.gid, r.dst))
    (({ s with segs := SMap.set s.segs id g }.tick).attach id r.team).post 0 (.segcrtZeroingDone id)

/-- SEGQRY's answer (R322). -/
def State.serveSegqry (r : SegReq) (s : State) : State :=
  s.answerSeg r (match s.segNamed (s.team r.team).part (s.vfOf (s.team r.team).ctx) r.name with
    | some (_, g) => g.snapshot r.team
    | none => 0)

/-- The service of a request at the segment unit (R318, R319, R321, R322). -/
def State.serveSegment (id : Nat) (r : SegReq) (s0 : State) : State :=
  let s := { s0 with segReqs := SMap.erase s0.segReqs id }
  match r.op with
  | .del => s.serveSegdel r
  | .det => s.serveSegdet r
  | .crt chip => s.serveSegcrt r chip
  | .qry => s.serveSegqry r

/-! ### EMIT (R323) -/

/-- The record size of a node of the team's graph, 0 where there is none: the RECORD of the node's own kernel. The size in the node table of the
emitting kernel's bundle is not read (R323, R358; DESIGN CHOICE, log entry 47). -/
def State.nodeRecord (s : State) (n : Nat) : Nat :=
  match s.launch s.myTeam.launch with
  | some l => match l.nodes[n]? with | some x => x.kernel.record | none => 0
  | none => 0

/-- EMIT of `r` registers: each active lane's record goes to the node, as a release (R323). -/
def emitWord (r a b : Nat) (fa fb : Bool) (s : State) : Host.Outcome State Fault Refusal :=
  let n := (s.src.sVal b).toNat
  issueWord
    { uses := [srcVN a r fa, srcS b fb]
      value := fun s => if s.src.em ≠ 0 && (Nat.ble s.myTeam.kernel.nodes n || s.nodeRecord n != 4 * r)
        then some (s.faultOf .illegalOperand) else none
      dirty := fun s => s.src.em != 0 }
    (fun s' =>
      if s.src.em = 0 then s'
      else
        let e : Emission :=
          { launch := s.myTeam.launch, node := n, ctx := s.myTeam.ctx, gid := s'.cur, pos := s.wordPos,
            owed := ((s'.owed 0).map (fun x => x.2)),
            recs := (lanesOf s.src.em).map (fun i => (List.range r).map (fun k => s.src.vLane (a + k) i)) }
        ({ s' with emissions := SMap.set s'.emissions s'.ticket e }.tick).post 1 (.recordArrival s'.ticket)) s

/-- EMIT.16 (R323). -/
def execEmit16 (a b : Nat) (fa fb : Bool) (s : State) : Host.Outcome State Fault Refusal := emitWord 4 a b fa fb s

/-- EMIT.32 (R323). -/
def execEmit32 (a b : Nat) (fa fb : Bool) (s : State) : Host.Outcome State Fault Refusal := emitWord 8 a b fa fb s

/-- EMIT.64 (R323). -/
def execEmit64 (a b : Nat) (fa fb : Bool) (s : State) : Host.Outcome State Fault Refusal := emitWord 16 a b fa fb s

end Sys2Proof.Machine
end

