-- ==== Sys2Proof/Machine/Caches.lean ====
section
/-! DEFINITION. What service is built from: steps in flight, the L2, apertures, the order of accesses, page capture, writes and
what they wake, charges of service (R112 to R120, R143 to R146, R158, R159, R273, R371, R418, R442, R448). -/

namespace Sys2Proof.Machine

/-- A step of the device: one whose subject is gone changes nothing, one whose time has not come stays in flight, and any
other comes about. -/
def evStep (live ready : Bool) (eff : State → State) (s : State) : Host.Outcome State Fault Refusal :=
  .next (if live then if ready then eff (s.verd .issued) else s.verd .held else s.verd .issued)

/-! ### Operations and their lanes -/

def MemOp.lane (o : MemOp) (i : Nat) : Option LaneReq := o.lanes.find? (fun r => r.lane == i)
def MemOp.modLane (o : MemOp) (i : Nat) (f : LaneReq → LaneReq) : MemOp :=
  { o with lanes := o.lanes.map (fun r => if r.lane = i then f r else r) }
def State.modLane (s : State) (id i : Nat) (f : LaneReq → LaneReq) : State := s.modOp id (fun o => o.modLane i f)

/-- A lane that nothing more happens to. -/
def LaneReq.over (r : LaneReq) : Bool := r.st == .done || r.st == .failed

/-- The virtual function and the partition for which an operation acts (R370, R416). -/
def State.opVf (s : State) (o : MemOp) : Nat := match o.origin with | some x => x.vf | none => s.vfOf o.ctx
def State.opPart (s : State) (o : MemOp) : Nat := match o.origin with | some x => x.part | none => (s.team o.team).part

/-- The service of a lane incurs classes (R143). -/
def State.cost (id i : Nat) (l : List (Nat × Nat)) (s : State) : State := s.modLane id i (fun r => { r with cost := r.cost ++ l })

/-- A lane is served with a result. -/
def State.laneDone (id i : Nat) (res : DWord) (stat : Word) (s : State) : State :=
  s.modLane id i (fun r => { r with st := .done, res := res, stat := stat })

/-- A lane fails in service; the lowest-numbered lane's fault is the operation's (R254, R336, R340). -/
def State.laneFail (id i : Nat) (c : FaultClass) (cause : Nat) (s : State) : State :=
  (s.modLane id i (fun r => { r with st := .failed })).modOp id (fun o =>
    let f := o.faultAt c cause i ((o.lane i).map (fun r => r.addr))
    { o with fail := match o.fail with
      | some x => if Nat.ble x.lane i then some x else some f
      | none => some f })

/-- The lanes of an operation that one service at one unit takes together: they touch the line of lane `r` under one key slot and are not
yet served (R143, R418; log entry 21). -/
def MemOp.mates (o : MemOp) (r : LaneReq) : List LaneReq :=
  o.lanes.filter (fun q => q.key / 64 == r.key / 64 && q.home == r.home && q.slot == r.slot && q.st == r.st)

/-! ### The order of accesses (R107, R115 to R122) -/

/-- Whether two lanes touch overlapping bytes. -/
def lanesMeet (a : LaneReq) (na : Nat) (b : LaneReq) (nb : Nat) : Bool :=
  Nat.blt a.key (b.key + nb) && Nat.blt b.key (a.key + na)

/-- Whether a lane's address is lane-private. -/
def LaneReq.own (r : LaneReq) : Bool := !adWin r.addr && adSpace r.addr == 4

/-- Whether a lane of an earlier operation is ordered before a later lane: both of one lane in lane-private memory, or of one path on
the same bytes. Hints touch no bytes, and a merged read is ordered before nothing (R107, R115, R116, R131). -/
def MemOp.before (x o : MemOp) (q r : LaneReq) : Bool :=
  !q.over && x.cleared && !x.kind.isHint && !(x.kind == .ldmc true && q.place == 255) &&
    ((q.own && r.own && q.lane == r.lane) || (related x.path o.path && lanesMeet q x.kind.bytes r o.kind.bytes))

/-- Whether an earlier access of a peer's stream is still to be applied at the home of a later one: the port has restored the order of the
packets of one peer and network, and a WAITC is applied by its test (R372). -/
def MemOp.streams (x o : MemOp) (r : LaneReq) : Bool :=
  match x.origin, o.origin with
  | some a, some b => a.peer == b.peer && a.part == b.part && !(match x.kind with | .waitc _ => true | _ => false) &&
      x.lanes.any (fun q => q.home == r.home && !q.over)
  | _, _ => false

/-- Whether an access must wait for an earlier access of its group, or of its peer's stream: a release for all that precedes it, and one of system
scope for the acknowledgement of its group's invalidations; any other for those that are ordered before it (R115, R120, R122, R372). -/
def State.orderWaits (s : State) (id : Nat) (o : MemOp) (r : LaneReq) : Bool :=
  s.ops.any (fun x => Nat.blt x.1 id && x.2.streams o r) ||
  s.ops.any (fun x => Nat.blt x.1 id && x.2.gid == o.gid &&
    ((isRel (o.kind.ord o.pol) && x.2.precedes o.path) || x.2.lanes.any (fun q => x.2.before o q r))) ||
  (isRel (o.kind.ord o.pol) && effScope (polScope o.pol) r.addr == 3 && s.invals.any (fun x => Nat.blt x.1 id && x.2 == o.gid))

/-! ### Apertures (R158, R159, R423) -/

/-- The aperture register of a virtual function at a target. -/
def State.aper (s : State) (target vf : Nat) : Aperture := SMap.getD s.apers (target * 64 + vf) Aperture.zero
def State.setAper (s : State) (target vf : Nat) (a : Aperture) : State :=
  { s with apers := SMap.set s.apers (target * 64 + vf) a }

/-- What an aperture does with a request: it is served, or waits behind the deferred, or joins them. -/
inductive Admit where
  | serve (s : State)
  | wait
  | defer (s : State)

/-- The deferred write-backs at the head of a queue take what is left of the period (R158). -/
def drawBacks : Nat → List Deferral → Nat × List Deferral
  | left, [] => (left, [])
  | left, d :: r =>
    match d.req with
    | some _ => (left, d :: r)
    | none => if Nat.ble d.need left then drawBacks (left - d.need) r else (0, { d with need := d.need - left } :: r)

/-- The register after its deferred write-backs have drawn on the period. -/
def Aperture.draw (a : Aperture) : Aperture :=
  let x := drawBacks a.left a.deferred
  { a with left := x.1, deferred := x.2 }

/-- A request of an operation's lane at a target, counted `n` units. One that finds too few left is deferred, and draws on later periods
until it has its units (R158). -/
def State.offer (s : State) (target vf id lane n : Nat) : Admit :=
  let a := s.aper target vf
  if n = 0 then .serve s
  else
    match a.deferred with
    | d :: r =>
      if d.req == some (id, lane) then
        if Nat.ble d.need a.left then .serve (s.setAper target vf (Aperture.draw { a with left := a.left - d.need, deferred := r }))
        else if a.left = 0 then .wait
        else .defer (s.setAper target vf { a with left := 0, deferred := { d with need := d.need - a.left } :: r })
      else if a.deferred.any (fun d => d.req == some (id, lane)) then .wait
      else .defer (s.setAper target vf { a with deferred := a.deferred ++ [{ req := some (id, lane), need := n }] })
    | [] =>
      if Nat.ble n a.left then .serve (s.setAper target vf { a with left := a.left - n })
      else .defer (s.setAper target vf { a with left := 0, deferred := [{ req := some (id, lane), need := n - a.left }] })

/-- A list of aperture units taken in turn under one name; nothing is taken unless all are. -/
def State.offerAll (s0 : State) (vf id : Nat) : Nat → List (Nat × Nat) → State → Admit
  | _, [], s => .serve s
  | i, (k, n) :: r, s =>
    match s.offer k vf id i n with
    | .serve s1 => State.offerAll s0 vf id (i + 1) r s1
    | .wait => .wait
    | .defer _ => match s0.offer k vf id i n with | .defer s1 => .defer s1 | _ => .wait

/-- A request is served, stays where it is, or has been deferred or held back with something to come before it. -/
inductive Pass where
  | go (s : State)
  | stay
  | again (s : State)

/-- The step that a pass gives. -/
def Pass.run (p : Pass) (eff : State → State) (s : State) : Host.Outcome State Fault Refusal :=
  match p with
  | .go t => .next (eff (t.verd .issued))
  | .stay => .next (s.verd .held)
  | .again t => .next (t.verd .issued)

/-- A step whose requests take units of apertures, all or none (R158). -/
def State.drawUnits (s : State) (vf id lane : Nat) (l : List (Nat × Nat)) (ev : Ev) : Pass :=
  match s.offerAll vf id lane l s with
  | .serve t => .go t
  | .wait => .stay
  | .defer t => .again (t.post 0 ev)

/-- The units of a list by target, each target once. -/
def sumUnits (l : List (Nat × Nat)) : List (Nat × Nat) := l.foldl (fun m x => addTo m x.1 x.2) []

/-- `n` units of a target that no lane's request takes, a write-back's or a message's to a peer, count, or are deferred (R158, R159). -/
def State.countAt (target vf n : Nat) (s : State) : State :=
  let a := s.aper target vf
  s.setAper target vf (Aperture.draw { a with deferred := a.deferred ++ [{ req := none, need := n }] })

/-- A write-back to the HBM4 of a slice counts one burst (R159). -/
def State.countBack (k vf : Nat) (s : State) : State := s.countAt (768 + k) vf 1

/-- Flits sent to a peer by the port of an address count there (R159, R468). -/
def State.countFlits (a : DWord) (vf n : Nat) (s : State) : State :=
  match s.planeOf a with | some k => s.countAt (512 + k) vf n | none => s

/-! ### The L2 (R2, R112, R143, R144, R371, R418) -/

def lineOf (key : Nat) : Nat := key / 64

/-- Whether an address is of HBM4, behind the L2. -/
def isHbm (key : Nat) : Bool := Nat.blt key 549755813888

/-- The order of eviction: the lowest class first, then the least recently used (R112). -/
def EvClass.rank : EvClass → Nat
  | .stream => 0
  | .normal => 1
  | .keep => 2

/-- Whether line `a` is evicted before line `b`. -/
def Line.sooner (a b : Line) : Bool :=
  Nat.blt a.cls.rank b.cls.rank || (a.cls.rank == b.cls.rank && Nat.blt a.used b.used)

/-- Energy for a partition's idle account, and for the device's (R144, R160). -/
def State.chargeIdle (s : State) (p u : Nat) : State := s.modPart p (fun x => { x with idle := x.idle + u })
def State.chargeDevice (s : State) (u : Nat) : State := { s with fleet := { s.fleet with idle := s.fleet.idle + u } }

/-- `n` equal charge events for the peer-service account of a virtual function (R146). -/
def State.chargePeers (s : State) (vf n : Nat) (l : List (Nat × Nat)) : State :=
  { s with fleet := { s.fleet with peerAcct := addTo s.fleet.peerAcct vf (n * unitsOf (amountOf s.weights l)) } }
def State.chargePeer (s : State) (vf : Nat) (l : List (Nat × Nat)) : State := s.chargePeers vf 1 l

/-- `n` flits of a context, each an event of its own (R141, R146). A message of up to 64 bytes is one flit (DEDUCED, log entry 21). -/
def State.flits (c f n : Nat) (ev : Option Bool) (s : State) : State :=
  if n = 0 then s else s.arrive c f 18 (n * unitsOf (amountOf s.weights [(11, 1)])) ev

/-- The facet, and the partition that owns it, of a device-physical line. -/
def facetOfLine (line : Nat) : Nat := line * 64 / 34359738368 % 16
def State.partOfLine (s : State) (line : Nat) : Option Nat := s.partOfFacet (facetOfLine line)

/-- Whether a context exists, so that it is charged (R144). -/
def State.hasCtx (s : State) (c : Nat) : Bool := (SMap.find s.ctxs c).isSome && (s.ctx c).live

/-- The number that stands for the contexts of a virtual function that exist no more, and its partition (R144). -/
def goneCtx (part vf : Nat) : Nat := 1048576 + 64 * part + vf % 64
def State.writerPart (s : State) (c : Nat) : Nat := if Nat.ble 1048576 c then (c - 1048576) / 64 % 16 else (s.ctx c).part

/-- The number under which a peer's requester stands where a context does: as the writer of a line and as the holder of a lock; and the
virtual function of a number, the exporter's for a peer's (R144, R276, R370; log entry 10). -/
def peerCtx (vf peer who : Nat) : Nat := (vf + 1) * 4294967296 + peer % 65536 * 65536 + who % 65536
def State.writerVf (s : State) (c : Nat) : Nat :=
  if Nat.ble 4294967296 c then c / 4294967296 - 1 else if Nat.ble 1048576 c then c % 64 else s.vfOf c

/-- A dirty line is written back, to HBM4 or to the peer that owns it, charged to the context that last wrote it, or to the idle account
(R144, R159, R371). -/
def State.writeBack (line : Nat) (l : Line) (s : State) : State :=
  match l.dirty, l.whose with
  | some c, .home =>
    let s1 := s.countBack (sliceOf (64 * line)) (s.writerVf c)
    if s.hasCtx c then s1.chargeShared c (facetOfLine line) 17 [(10, 1)] none
    else s1.chargeIdle ((s.partOfLine line).getD 0) (unitsOf (amountOf s.weights [(10, 1)]))
  | some c, .owned =>
    let s1 := s.countFlits (BitVec.ofNat 64 (64 * line)) (s.writerVf c) 1
    if s.hasCtx c then s1.flits c (s.part (s.ctx c).part).home 2 none
    else s1.chargeIdle (s.writerPart c) (2 * unitsOf (amountOf s.weights [(11, 1)]))
  | _, _ => s

/-- A line leaves the L2, written back first; what a peer's line holds is then at its owner alone (R371). -/
def State.dropLine (line : Nat) (s : State) : State :=
  match SMap.find s.l2 line with
  | some l =>
    let s1 := s.writeBack line l
    { s1 with l2 := SMap.erase s1.l2 line, mem := if l.whose = .home then s1.mem else Memory.clear s1.mem (64 * line) 64 }
  | none => s

/-- The ways of a set: a slice's 32,768 lines are so many sets of so many ways (R2; log entry 8). -/
def l2Ways : Nat := 2 ^ (Config.l2Assoc % 16)

/-- The slice and the set of a line: a line of this device lies at its home (R2, R406; log entry 8). -/
def l2Place (line : Nat) : Nat × Nat :=
  (if isHbm (64 * line) then sliceOf (64 * line) else Config.peerSlice line % 256, Config.l2Set line % (32768 / l2Ways))

/-- Whether a line of the L2 lies in a partition's slices, 16 to a facet (R406). -/
def State.lineIn (s : State) (p line : Nat) : Bool := s.partOfFacet ((l2Place line).1 / 16) == some p

/-- The victim that a new line needs, where its set is full (R112; log entry 8). -/
def State.victim (s : State) (line : Nat) : Option Nat :=
  let same := s.l2.filter (fun x => l2Place x.1 == l2Place line && x.1 != line)
  match same with
  | [] => none
  | x :: r => if Nat.blt same.length l2Ways then none else some (r.foldl (fun b y => if y.2.sooner b.2 then y else b) x).1

/-- A line that a new one displaces leaves. -/
def State.makeWay (line : Nat) (s : State) : State := match s.victim line with | some v => s.dropLine v | none => s

/-- A line is touched: it becomes present with the class of the access, and a write makes its context the one that dirtied it
(R112, R144, R418). -/
def State.touch (line : Nat) (cls : EvClass) (slot : Option Nat) (writer : Option Nat) (whose : LineOf) (s : State) : State :=
  match SMap.find s.l2 line with
  | some l =>
    { s with l2 := SMap.set s.l2 line { l with cls := cls, used := s.ticket, whose := whose,
                                               dirty := match writer with | some c => some c | none => l.dirty } }.tick
  | none =>
    let s := s.makeWay line
    { s with l2 := SMap.set s.l2 line { cls := cls, dirty := writer, slot := slot, used := s.ticket, whose := whose,
                                        below := Memory.readN s.mem (64 * line) 64 } }.tick

/-! ### Bad lines (R470) -/

def State.isBad (s : State) (line : Nat) : Bool := s.fleet.badLines.any (fun x => x.2 == line)
def State.clearBad (line : Nat) (s : State) : State :=
  { s with fleet := { s.fleet with badLines := s.fleet.badLines.filter (fun x => x.2 != line) } }

/-! ### Page capture (R448, R449) -/

/-- The partition whose replay grid a team belongs to. -/
def State.replayOf (s : State) (t : Nat) : Option Nat := if s.inReplay t then some (s.team t).part else none

/-- Whether a write to a device page must wait: the page is being copied, or it is the first write of a replay grid to a page
that is not yet captured, which starts the copy. -/
inductive Gate where
  | go (s : State)
  | wait
  | copy (p page : Nat)

/-- A partition whose replay may not be re-run: a write left its reset (R449, R453). -/
def Part.markUnsafe (p : Part) : Part := { p with replay := { p.replay with unsafeW := true } }

/-- The context of a partition's replay. -/
def State.replayCtx (s : State) (p : Nat) : Option Nat := (s.launch (s.part p).replay.launch).map (fun l => l.ctx)

/-- A write by an agent of another context, or of none, to a captured page makes the replay unsafe (R449). -/
def State.foreignWrite (writer : Option Nat) (page : Nat) (s : State) : State :=
  let touch := fun (x : Nat × Part) =>
    if x.2.replay.state == 2 && x.2.replay.pages.contains page && (writer.isNone || s.replayCtx x.1 != writer) then (x.1, x.2.markUnsafe) else x
  { s with parts := s.parts.map touch }

/-- Whether a page is being copied for a replay, so that a write to it waits (R448). -/
def State.pageBusy (s : State) (page : Nat) : Bool := s.parts.any (fun x => x.2.replay.copying.contains page)

/-- Whether `n` bytes at an address lie in no page that is being copied (R448). -/
def State.mayWrite (s : State) (key n : Nat) : Bool := !s.pageBusy (key / 65536) && !s.pageBusy ((key + n - 1) / 65536)

/-- What a write of a replay grid, or of another agent of the context `writer`, does about a replay's pages. -/
def State.writeGate (s : State) (replay writer : Option Nat) (key : Nat) : Gate :=
  match replay, Nat.ble 549755813888 key with
  | some p, true => .go (if Nat.ble hostKey key then s.modPart p Part.markUnsafe else s)
  | none, true => .go s
  | r, false =>
    let page := key / 65536
    if s.parts.any (fun x => x.2.replay.copying.contains page) then .wait
    else match r with
    | some p =>
      if (s.part p).replay.pages.contains page || (s.part p).replay.full then .go s else .copy p page
    | none => .go (s.foreignWrite writer page)

/-! ### Charges of service (R143, R145, R146, R442) -/

/-- The hops between a team's cluster and the slice of a lane. -/
def State.hopsTo (s : State) (t slice : Nat) : Nat := hopsOf (s.team t).part (s.team t).cluster (routerOf slice)

/-- The hops of one message between an operation's core, or the port by which a peer's comes, and a slice (R422; log entry 10). -/
def State.opHops (s : State) (o : MemOp) (r : LaneReq) (slice : Nat) : Nat :=
  match o.origin with
  | some x => hopsOf x.part (s.portOf r.addr) (routerOf slice)
  | none => s.hopsTo o.team slice

/-- The routers where a line request may merge: all but the one that serves the slice (R383). -/
def State.mergeRoute (s : State) (o : MemOp) (k : Nat) : List Nat :=
  (routeOf (s.team o.team).part (s.team o.team).cluster (routerOf k)).dropLast

/-- Whether a request opened a merge entry. -/
def MergeEntry.opens (m : MergeEntry) (t : Nat × Nat) : Bool := match m.tags with | x :: _ => x == t | [] => false

/-- The hops of one message between an operation's core and the port of a windowed address (R143; log entry 10). -/
def State.portHops (s : State) (o : MemOp) (r : LaneReq) : Nat :=
  hopsOf (s.team o.team).part (s.team o.team).cluster (s.portOf r.addr)

/-- The classes of a read of a peer's line in the L2 of this device: its hops to the slice that holds it, and the read (R143, R371). -/
def State.copyCost (s : State) (t line : Nat) : List (Nat × Nat) := [(9, 2 * s.hopsTo t (l2Place line).1), (8, 1)]

/-- Whether a kind is performed by an atomic unit (R143). -/
def MemKind.atUnit : MemKind → Bool
  | .atom _ => true
  | .fatom _ => true
  | .cadd => true
  | .crd _ => true
  | .lkl => true
  | .ulkl => true
  | _ => false

/-- How often a list of costs names a class. -/
def costOf (l : List (Nat × Nat)) (c : Nat) : Nat := (l.filter (fun x => x.1 == c)).foldl (fun a x => a + x.2) 0

/-- The classes of a list of costs among some, each once with its count. -/
def costsIn (cs : List Nat) (l : List (Nat × Nat)) : List (Nat × Nat) :=
  (cs.map (fun c => (c, costOf l c))).filter (fun x => x.2 != 0)

/-- The charge events of a context's service at one unit: the facet's and the uncore's classes, the bursts, and each flit. The service of a miss
is an event of its slice and one of HBM4, each rounded by itself; the spec leaves open whether they are one (R141, R143, R146; DESIGN CHOICE, log
entry 47). -/
def State.payOwn (c f : Nat) (l : List (Nat × Nat)) (ev : Option Bool) (s : State) : State :=
  let own := costsIn [6, 7] l
  let unc := costsIn [8, 9, 12, 13] l
  let hbm := costsIn [10] l
  let s1 := if own.isEmpty then s else s.charge c f own ev
  let s2 := if unc.isEmpty then s1 else s1.chargeShared c f 16 unc ev
  (if hbm.isEmpty then s2 else s2.chargeShared c f 17 hbm ev).flits c f (costOf l 11) ev

/-- The charge events of the service of an operation, a peer's to the virtual function that exported the place, with the flits of its request
and its answer; the answer counts at the port (R143, R146, R159). -/
def State.paySvc (o : MemOp) (l : List (Nat × Nat)) (s : State) : State :=
  let unc := costsIn [8, 9, 12, 13] l
  let hbm := costsIn [10] l
  match o.origin with
  | some x =>
    let s1 := if unc.isEmpty then s else s.chargePeer x.vf unc
    ((if hbm.isEmpty then s1 else s1.chargePeer x.vf hbm).chargePeers x.vf (costOf l 11 + 2) [(11, 1)]).countFlits
      ((o.lanes.head?.map (fun r => r.addr)).getD 0) x.vf 1
  | none => s.payOwn o.ctx (s.grp o.gid).facet l (some (s.inReplay o.team))

/-- The counter events of an operation's lanes at one unit (R442). -/
def MemOp.events (o : MemOp) (l : List LaneReq) : List (Nat × Nat) :=
  let c := l.flatMap (fun r => r.cost)
  let lines := ((l.filter (fun r => r.st == .done)).map (fun r => r.key / 64)).eraseDups.length
  let done := (l.filter (fun r => r.st == .done)).length
  let refl := (l.filter (fun r => r.st == .done && r.stat.toNat % 4 == 2)).length
  match o.kind with
  | .ld _ _ => [(0x0A, costOf c 8), (0x0B, costOf c 10)]
  | .ldmc _ => [(0x0A, costOf c 8), (0x0B, costOf c 10)]
  | .st _ => [(0x0C, lines)]
  | .qpush => [(0x0D, done - refl), (0x0E, refl)]
  | .qpop => [(0x0D, done - refl), (0x0E, refl)]
  | k => if k.atUnit then [(0x0D, done)] else []

/-- The service of an operation at one unit is charged and counted as its answer reaches the core (R143 to R146, R385, R442, R443). -/
def State.payUnit (id : Nat) (o : MemOp) (h : Home) (s : State) : State :=
  let l := o.lanes.filter (fun r => r.home == h)
  let s1 := s.paySvc o (l.flatMap (fun r => r.cost))
  let s2 := if o.origin.isSome || !o.kind.isAccess then s1 else (o.events l).foldl (fun s x => s.count o.team x.1 x.2) s1
  s2.modOp id (fun o => { o with lanes := o.lanes.map (fun r => if r.home = h then { r with paid := true } else r) })

/-- The units all of whose lanes are over and not yet paid for. -/
def MemOp.unpaid (o : MemOp) : List Home :=
  ((o.lanes.filter (fun r => !r.paid && !o.lanes.any (fun q => q.home == r.home && !q.over))).map (fun r => r.home)).eraseDups

/-- What has come of an operation: the answer of each unit that has served all its lanes, or the completion of one without lanes, is on its
way to the core, which it crosses to; it writes destinations, or is an acknowledgement (R62, R143, R254, R385, R429). -/
def State.settle (id : Nat) (s : State) : State :=
  match SMap.find s.ops id with
  | some o =>
    if o.lanes.isEmpty || !o.unpaid.isEmpty then
      s.post (if o.origin.isSome then 0 else ((o.unpaid.map (s.downTicks (s.team o.team).part)).foldl max 0))
        (if o.dst.isEmpty && o.stat.isNone then .storeAcknowledgement id else .longLatencyCompletion id)
    else s
  | none => s

/-- The answer of a unit has reached the core: it is paid for (R143, R385). -/
def State.answered (id : Nat) (o : MemOp) (s : State) : State :=
  match o.unpaid with
  | h :: _ => s.payUnit id o h
  | [] => s

/-- Whether every unit of an operation has answered, and what must be acknowledged before its answer is taken has been (R135). -/
def MemOp.whole (o : MemOp) : Bool := o.lanes.all LaneReq.over && o.unpaid.isEmpty
def State.mayAnswer (s : State) (o : MemOp) : Bool := !o.behind.any (fun i => s.invals.any (fun x => x.1 == i))

/-! ### Writes and what they wake (R273, R291, R371) -/

/-- The invalidations of a directory entry, each answered by an acknowledgement: one to each peer, or one that the switches carry to
every peer that may hold a copy (R371; DEDUCED, log entry 21). -/
def DirEntry.flits (d : DirEntry) : Nat := if d.st = .broadcast then 1 + d.seen.length else 2 * d.ids.length

/-- The messages that they are on their way out. -/
def DirEntry.sent (d : DirEntry) : Nat := if d.st = .broadcast then 1 else d.ids.length

/-- Peer copies of a line are invalidated, charged to the virtual function that exported it (R146, R159, R371). -/
def State.invalidatePeers (line : Nat) (s : State) : State :=
  match SMap.find s.dir line with
  | none => s
  | some d => (({ s with dir := SMap.erase s.dir line }).chargePeers d.vf d.flits [(11, 1)]).countFlits (BitVec.ofNat 64 (64 * line)) d.vf d.sent

/-- A condition-monitor entry's test on the word in memory now (R272, R273, R392). -/
def State.monFires (s : State) (m : MonEntry) : Bool :=
  match m.queue with
  | some q =>
    (match (SMap.getD s.queues q Queue.zero).wait with
     | some w =>
       let x := Memory.readN s.mem m.key 8
       (match w.cc with | 0 => x == w.value | 1 => x != w.value | 2 => Nat.blt x w.value | _ => Nat.ble w.value x)
     | none => false)
  | none =>
    match SMap.find s.ops m.op with
    | some o =>
      (match o.kind, o.lane m.lane with
       | .waitc cc, some r => intCond cc (BitVec.ofNat 32 (Memory.readN s.mem m.key 4)) r.cmp
       | _, _ => false)
    | none => false

/-- A queue whose wait is met (R392). -/
def Wait.hold (w : Wait) : Wait := { w with met := true }
def Queue.hold (q : Queue) : Queue := { q with wait := q.wait.map Wait.hold }

/-- An entry that fires answers its lane with the value, or its queue's wait is met (R273, R392). -/
def State.fire (m : MonEntry) (s : State) : State :=
  let s := { s with mons := s.mons.filter (fun x => x != m) }
  match m.queue with
  | some q =>
    { s with queues := SMap.modify s.queues q Queue.hold }.post 0 (.waitCompletion (q / 4096) (q % 4096))
  | none => (s.laneDone m.op m.lane (BitVec.ofNat 64 (Memory.readN s.mem m.key 4)) 0).settle m.op

/-- Every entry on bytes just written is tested (R273). -/
def State.wake (key n : Nat) (s : State) : State :=
  (s.mons.filter (fun m => Nat.blt m.key (key + n) && Nat.blt key (m.key + (if m.queue.isSome then 8 else 4)))).foldl
    (fun s m => if s.monFires m then s.fire m else s) s

/-- Whether the window-table entry of a handle lies in bytes just written. -/
def State.entryIn (s : State) (c : CtxRec) (h key n : Nat) : Bool :=
  match s.walk c (c.winbase + 32 * h) with
  | some (e, sh) =>
    let a := pteFrame e + (c.winbase + 32 * h) % 2 ^ sh
    !pteHost e && Nat.blt a (key + n) && Nat.blt key (a + 32)
  | none => false

/-- A write to a window-table entry makes it unverified (R334, R369). -/
def State.unverify (key n : Nat) (s : State) : State :=
  let f := fun (x : Nat × Ctx) =>
    if x.2.verified.isEmpty then x
    else (x.1, { x.2 with verified := x.2.verified.filter (fun h => !s.entryIn x.2.crec h key n) })
  { s with ctxs := s.ctxs.map f }

/-- The lines that `n` bytes touch. -/
def linesOf (key n : Nat) : List Nat := (List.range ((key + n + 63) / 64 - key / 64)).map (key / 64 + ·)

/-- Bytes written at a home, each write after the one before it: peer copies go first, then the bytes (R122, R124, R334, R371). -/
def State.putBytes : List (Nat × Nat × Nat) → State → State
  | [], s => s
  | (key, x, n) :: r, s =>
    let s1 := (linesOf key n).foldl (fun s l => s.invalidatePeers l) s
    State.putBytes r ({ s1 with mem := Memory.writeN s1.mem key x n }.unverify key n)

/-- The monitors on bytes that have been written are tested, once all of them stand (R114, R273). -/
def State.wakeAll (l : List (Nat × Nat × Nat)) (s : State) : State := l.foldl (fun s x => s.wake x.1 x.2.2) s

/-- Writes at a home that come about together: no agent sees the first without the last (R114, R124, R273). -/
def State.writeAll (l : List (Nat × Nat × Nat)) (s : State) : State := (s.putBytes l).wakeAll l

/-- A write of `n` bytes at its home (R124, R273). -/
def State.writeHome (key x n : Nat) (s : State) : State := s.writeAll [(key, x, n)]

/-- The pages of a span of bytes, and whether none of them is being copied (R448). -/
def pagesIn (key n : Nat) : List Nat := (List.range ((key + n + 65535) / 65536 - key / 65536)).map (key / 65536 + ·)
def State.spanFree (s : State) (key n : Nat) : Bool := (pagesIn key n).all (fun g => !s.pageBusy g)

/-- A span of bytes written together, as `m` holds them, by an agent of the context `writer` or of none (R273, R371, R449). -/
def State.writeSpan (m : Memory) (key n : Nat) (writer : Option Nat) (s : State) : State :=
  let s1 := (pagesIn key n).foldl (fun s g => s.foreignWrite writer g) s
  let s2 := (linesOf key n).foldl (fun s l => s.invalidatePeers l) s1
  ({ s2 with mem := m }.unverify key n).wake key n

/-- Bits of a barrier word that follow its other fields, put right after a plain store to a word that is not live; the other bits are as
stored. A word so written may have its phase complete (R291, R296). -/
def State.fixBar (t key : Nat) (s : State) : State :=
  let b := (key - scratchKey t) / 8
  if Nat.ble (scratchKey t) key && Nat.blt b (s.team t).kernel.barriers then
    let w := s.barWord t b
    ({ s with mem := Memory.writeN s.mem (scratchKey t + 8 * b) (barKeep w).toNat 8 }).barCheck t b
  else s

end Sys2Proof.Machine
end

