-- ==== Sys2Proof/Machine/Teams.lean ====
section
/-! DEFINITION. The life of teams: what they have in flight, leaving a core, the end of a team, the completion of launches, the
formation of node teams, and the teardown of a context (R15, R136, R217, R277, R345, R389, R393, R399, R404). -/

namespace Sys2Proof.Machine

/-! ### What a team has in flight -/

/-- An attach whose segment has been found missing and that awaits its replay (R348). -/
def MemOp.missed (o : MemOp) : Bool := o.kind == .segatt && o.fail.isNone && o.lanes.any (fun r => r.st == .waiting)

/-- Whether a team has words outstanding besides those that a test names, or copies, queued matrix words, records on their way,
an arrival not yet sent, or a fault on its way to its core (R75, R217, R338). Engine words that have halted at a page are not (R349). -/
def State.engaged (s : State) (t : Nat) (skip : MemOp → Bool) : Bool :=
  let tm := s.team t
  let mine := (s.cluster tm.cluster).queue.filter (fun w => w.team == t)
  s.ops.any (fun x => x.2.team == t && !skip x.2) || s.copies.any (fun x => x.2.team == t && !x.2.halt) ||
    (!mine.isEmpty && !mine.any (fun w => w.halt)) || Nat.blt (s.cycle (s.clockOf tm.cluster)) tm.mxFree ||
    s.segs.any (fun x => match x.2.zeroing with | some (g, _) => tm.groups.contains g | none => false) ||
    s.emissions.any (fun e => tm.groups.contains e.2.gid) || s.segReqs.any (fun r => r.2.team == t) ||
    s.agenda.any (fun x => match x.2 with
      | .deferredFaultReport g _ => tm.groups.contains g
      | .peerArrival _ _ _ g _ => tm.groups.contains g
      | _ => false)

/-- Whether anything of a team is outstanding; an attach that was missed has been answered (R338, R348). -/
def State.busy (s : State) (t : Nat) : Bool := s.engaged t MemOp.missed

/-- An aperture without deferred requests of operations that a test names; write-backs behind them may draw on the period (R158). -/
def Aperture.forget (p : Nat → Bool) (a : Aperture) : Aperture :=
  { a with deferred := a.deferred.filter (fun d => match d.req with | some r => !p r.1 | none => true) }.draw

/-- A merge entry without tags of operations that a test names. -/
def MergeEntry.forget (p : Nat → Bool) (m : MergeEntry) : MergeEntry := { m with tags := m.tags.filter (fun d => !p d.1) }

/-- The request that opened a merge entry has left, and what it asks for is still to come: it goes on in the name of the entry's next tag (R373,
R374). -/
def State.handOver (m : MergeEntry) (s : State) : State :=
  match m.tags, m.val with
  | t :: _, none =>
    (match (SMap.find s.ops t.1).bind (fun o => (o.lane t.2).map (fun r => (o, r))) with
     | some (o, r) =>
       let route := match r.home with | .slice k => s.mergeRoute o k | _ => []
       let at' := if Nat.ble 128 m.place then route.length else (route.takeWhile (fun n => n != m.place)).length + 1
       let c := s.cycle .uncore
       let s1 := (o.mates r).foldl (fun s q => s.modLane t.1 q.lane (fun x => { x with place := at', since := c })) s
       if Nat.ble 128 m.place then s1.post 0 (.sliceAccessService t.1 t.2) else s1.postAt .uncore c (.mergeRequestPass t.1 t.2)
     | none => s)
  | _, _ => s

/-- Operations leave with all that the units hold of them; reads that have joined their requests go on. -/
def State.forgetOps (p : Nat → Bool) (s : State) : State :=
  let orphans := (s.merges.filter (fun m => match m.tags with | t :: _ => p t.1 | [] => false)).map (MergeEntry.forget p)
  orphans.foldl (fun s m => s.handOver m) { s with
    ops := s.ops.filter (fun x => !p x.1)
    snaps := s.snaps.filter (fun x => !p x.1)
    mons := s.mons.filter (fun m => m.queue.isSome || !p m.op)
    refl := s.refl.filter (fun r => !p r.op)
    merges := (s.merges.map (MergeEntry.forget p)).filter (fun m => !m.tags.isEmpty)
    apers := s.apers.map (fun x => (x.1, x.2.forget p)) }

/-- A core and a cluster without the words of a team. -/
def CoreSt.forget (t : Nat) (gs : List Nat) (c : CoreSt) : CoreSt :=
  { c with ranges := c.ranges.filter (fun r => r.team != t), waiters := c.waiters.filter (fun w => !gs.contains w.gid),
           items := c.items.filter (fun x => x.1 != t) }
def ClusterSt.forget (t : Nat) (c : ClusterSt) : ClusterSt := { c with queue := c.queue.filter (fun w => w.team != t) }

/-- All that a team has in flight is discarded (R345, R424). -/
def State.discardWork (t : Nat) (s : State) : State :=
  let tm := s.team t
  let s1 := s.forgetOps (fun i => match SMap.find s.ops i with
    | some o => o.team == t
    | none => s.copies.any (fun k => k.1 == i && k.2.team == t) || (s.cluster tm.cluster).queue.any (fun w => w.id == i && w.team == t))
  let core := s1.core tm.coreId
  let s2 := (s1.setCore tm.coreId (core.forget t tm.groups)).setCluster tm.cluster ((s1.cluster tm.cluster).forget t)
  let gone := fun (e : Ev) => match e with
    | .deferredFaultReport g _ => tm.groups.contains g
    | .peerArrival _ _ _ g _ => tm.groups.contains g
    | _ => false
  { (s2.unpost gone) with
    copies := s2.copies.filter (fun x => x.2.team != t)
    segReqs := s2.segReqs.filter (fun r => r.2.team != t)
    halves := s2.halves.filter (fun h => !tm.groups.contains h.gid)
    emissions := s2.emissions.filter (fun e => !tm.groups.contains e.2.gid) }

/-! ### Residency (R160, R346) -/

/-- Whether a team holds its place on a core. -/
def Team.resident (t : Team) : Bool := t.st != .saved && t.st != .ended

/-- E: the resident ticks of a team, stopped ticks excluded (R346). -/
def State.elapsed (s : State) (t : Team) : Nat := t.elapsed + (if s.teamStopped t then 0 else s.now - t.since)

/-- The start of the correction interval in which a tick lies (R160). -/
def intervalStart (now : Nat) : Nat := now / Config.correction * Config.correction

/-- The group-ticks of a team's groups since a tick (R160). -/
def State.ticksOf (s : State) (from' : Nat) (t : Team) : Nat :=
  t.groups.foldl (fun a g => a + (s.now - max (s.grp g).dispTick from')) 0

/-- A team gives up its core: its groups, its items and its range locks leave, and its group-ticks are kept (R19, R160). -/
def State.leaveCore (t : Nat) (s : State) : State :=
  let tm := s.team t
  if tm.resident then
    let n := s.ticksOf (intervalStart s.now) tm
    let s1 := s.modCtx tm.ctx (fun c =>
      { c with gticks := [tm.cluster / 8, 16, 17, 18].foldl (fun m d => addTo m d n) c.gticks })
    let s2 := s1.setCore tm.coreId ((s1.core tm.coreId).forget t tm.groups)
    { s2 with groups := s2.groups.filter (fun x => x.2.team != t) }
  else s

/-! ### Node teams (R395, R399) -/

/-- The records of a full team, those in the buffer, and whether a node's buffer holds some but fewer (R395, R399). -/
def Node.full (n : Node) : Nat := 32 * n.kernel.cgrp
def Node.count (n : Node) : Nat := n.buf.length + (n.formed.map List.length).foldl (· + ·) 0
def Node.short (n : Node) : Bool := Nat.blt 0 n.count && Nat.blt n.count n.full

/-- The coalescing timer runs while the buffer holds between 1 and F - 1 records (R399). -/
def Node.clock (now : Nat) (n : Node) : Node :=
  { n with since := if n.short then (match n.since with | some x => some x | none => some now) else none }

/-- A team of the first `k` records is formed. -/
def Node.form (k : Nat) (n : Node) : Node := { n with buf := n.buf.drop k, formed := n.formed ++ [n.buf.take k] }

/-- Teams are formed while F records are present. -/
def Node.formAll : Nat → Node → Node
  | 0, n => n
  | k + 1, n => if n.full != 0 && Nat.ble n.full n.buf.length then Node.formAll k (n.form n.full) else n

/-- A node stays active until its buffer and its ring are empty (R399). -/
def Node.rest (n : Node) : Node := { n with active := n.active && !(n.count == 0 && n.spill.isEmpty) }

def Launch.modNode (l : Launch) (k : Nat) (f : Node → Node) : Launch :=
  { l with nodes := (List.range l.nodes.length).zip l.nodes |>.map (fun x => if x.1 = k then f x.2 else x.2) }

/-- Whether a team of a launch is resident, saved or awaits dispatch. -/
def State.launchBusy (s : State) (l : Nat) (x : Launch) : Bool :=
  s.teams.any (fun t => t.2.launch == l) || x.nodes.any (fun n => !n.formed.isEmpty)

/-- The contexts of a partition. -/
def State.ctxIds (s : State) (p : Nat) : List Nat := (s.ctxs.filter (fun x => x.2.part == p && x.2.live)).map Prod.fst

/-- Whether a launch has a team that awaits dispatch (R157, R446). -/
def Launch.awaits (x : Launch) : Bool := x.nodes.any (fun n => !n.formed.isEmpty) || (!x.graph && (x.next != x.teams || !x.again.isEmpty))

/-- Whether a launch has a team that has not ended: on a core, saved, entered for dispatch, or of a replay's next pass (R157). -/
def State.launchLives (s : State) (l : Nat) (x : Launch) : Bool := s.launchBusy l x || x.awaits || x.replay

/-- Whether a context is active: a team of one of its launches has not ended (R157). -/
def State.active (s : State) (c : Nat) : Bool := s.launches.any (fun x => x.2.ctx == c && s.launchLives x.1 x.2)

/-- The least FAIR among a partition's active contexts, besides one. -/
def State.leastFair (s : State) (p : Nat) (but : Option Nat) : Nat :=
  match ((s.ctxIds p).filter (fun c => s.active c && but != some c)).map (fun c => (s.ctx c).fair) with
  | [] => 0
  | a :: r => r.foldl min a

/-- A context that becomes active takes the least FAIR of the others (R157). -/
def State.activate (c : Nat) (s : State) : State :=
  if s.active c then s else s.modCtx c (fun k => { k with fair := s.leastFair k.part (some c) })

/-- The context of a graph whose first team is formed becomes active (R157, R388). -/
def State.activateFor (l : Nat) (x : Launch) (s : State) : State :=
  if s.launchLives l x then s.activate x.ctx else s

/-- Formation in a graph: full teams, and once nothing of the graph runs or waits and its rings are empty, a partial team of
every buffer that is not empty; then the timers (R399). -/
def State.formTeams (l : Nat) (s : State) : State :=
  match s.launch l with
  | none => s
  | some x =>
    if !x.graph then s
    else
      let n1 := x.nodes.map (fun n => Node.formAll n.buf.length n)
      let x1 := { x with nodes := n1 }
      let n2 := if !s.launchBusy l x1 && n1.all (fun n => n.spill.isEmpty) && !s.emissions.any (fun e => e.2.launch == l) then
          n1.map (fun n => if n.buf.isEmpty then n else n.form n.buf.length)
        else n1
      let n3 := n2.map (Node.clock s.now)
      let grown := ((List.range n3.length).zip (x.nodes.zip n3)).flatMap (fun y =>
        List.replicate (y.2.2.formed.length - y.2.1.formed.length) y.1)
      let x3 := { x with nodes := n3.map Node.rest, line := x.line ++ grown }
      let s0 := s.activateFor l x3
      let s1 := { s0 with launches := SMap.set s0.launches l x3 }
      ((List.range n3.length).zip (x.nodes.zip n3)).foldl (fun s y =>
        if y.2.1.since != y.2.2.since then
          match y.2.2.since with
          | some a => s.post (a + (if y.2.2.timer = 0 then 4096 else y.2.2.timer) - s.now) (.coalesceTimerExpiry l y.1)
          | none => s
        else s) s1

/-! ### The completion of launches (R389, R393, R447) -/

/-- Whether every team of a launch has ended and, for a graph, no record is left. -/
def State.launchDone (s : State) (l : Nat) (x : Launch) : Bool :=
  !s.launchBusy l x &&
    (if x.graph then x.nodes.all (fun n => n.buf.isEmpty && n.spill.isEmpty) && !s.emissions.any (fun e => e.2.launch == l)
     else x.next == x.teams && x.again.isEmpty)

/-- A launch that may have completed: its completion, or the end of its pass, is called. -/
def State.checkLaunch (l : Nat) (s : State) : State :=
  let s := s.formTeams l
  match s.launch l with
  | some x => if s.launchDone l x then s.post 0 (if x.replay then .replayPassEnd x.part else .launchCompletion l) else s
  | none => s

/-! ### The end of a team (R15, R136, R217, R345) -/

/-- A team leaves the device: its attachments are released, its core and its scratchpad allocation are free, and halves that await
its groups cease to count (R289). -/
def State.removeTeam (t : Nat) (s : State) : State :=
  let tm := s.team t
  let s1 := (tm.attach.foldl (fun s i => s.detach i t) s).leaveCore t
  { s1 with teams := SMap.erase s1.teams t, mem := Memory.clear s1.mem (scratchKey t) 1048576 }.tuneHalves

/-- The exchange numbers that are dead for the groups of a team (R289). -/
def Team.seats (t : Team) : List Nat := (List.range 32).map (seatOf t.launch t.teamid)
def State.dropDead (t : Nat) (s : State) : State :=
  { s with deadNums := s.deadNums.filter (fun d => !(s.team t).seats.contains d.1) }

/-- A team ends (R15); the launch may then be complete. -/
def State.finishTeam (t : Nat) (s : State) : State :=
  let l := (s.team t).launch
  (((s.dropDead t).removeTeam t).modLaunch l (fun x => { x with ended := x.ended + 1 })).checkLaunch l

/-- A replay ends early with a result (R449, R453, R454). -/
def Replay.stop (res : Nat) (r : Replay) : Replay := { r with state := 5, result := res, arm := false, copying := [] }

/-- A replay whose team, grid or context the monitor ends is over; its launch goes on as an ordinary one (R454). -/
def State.breakReplay (l : Nat) (s : State) : State :=
  match s.launch l with
  | some x =>
    if x.replay then
      (s.modPart x.part (fun p => { p with replay := p.replay.stop 4 })).modLaunch l (fun x => { x with replay := false })
    else s
  | none => s

/-- A team is ended by the monitor: what it has in flight is discarded (R345). -/
def State.killTeam (t : Nat) (s : State) : State :=
  if (SMap.find s.teams t).isSome then ((s.breakReplay (s.team t).launch).discardWork t).finishTeam t else s

/-- The teams of a launch. -/
def State.teamsOf (s : State) (l : Nat) : List Nat := (s.teams.filter (fun x => x.2.launch == l)).map Prod.fst

/-- A launch with nothing left to dispatch. -/
def Node.drop (n : Node) : Node := { n with buf := [], spill := [], formed := [], since := none, active := false }
def Launch.drop (x : Launch) : Launch :=
  { x with next := x.teams, again := [], line := [], nodes := x.nodes.map Node.drop }

/-- The spill counts of a context, less the records that a launch had in rings (R398). -/
def State.unspill (l : Nat) (s : State) : State :=
  match s.launch l with
  | some x => (x.nodes.flatMap (fun n => n.spill)).foldl (fun s r => s.modCtx r.1 (fun c => { c with spcnt := c.spcnt - 1 })) s
  | none => s

/-- A launch is ended: nothing of it is dispatched any more and its teams end (R345). -/
def State.killLaunch (l : Nat) (s : State) : State :=
  let s1 := ((s.breakReplay l).unspill l).modLaunch l Launch.drop
  let s2 := { s1 with emissions := s1.emissions.filter (fun e => e.2.launch != l) }
  ((s2.teamsOf l).foldl (fun s t => s.killTeam t) s2).checkLaunch l

/-- The unnamed segments of a launch are deleted (R473). -/
def State.dropAllocs (l : Nat) (s : State) : State :=
  { s with segs := s.segs.filter (fun x => x.2.launch != some l) }

/-- A launch leaves the device without a signal (R404, R424). -/
def State.removeLaunch (l : Nat) (s : State) : State :=
  let s1 := s.killLaunch l
  { s1.dropAllocs l with launches := SMap.erase s1.launches l }

/-! ### Teardown (R277, R403, R404) -/

/-- The key of a queue's entry, and of a context's record write: 4,096 queues and 1,024 contexts to a partition. -/
def queueKey (p q : Nat) : Nat := p * 4096 + q

/-- Bits `lo` to `lo + n - 1` of a record. -/
def fld (x lo n : Nat) : Nat := x / 2 ^ lo % 2 ^ n

/-- The number that a context of a partition has in the state. -/
def ctxKey (p c : Nat) : Nat := 1024 * p + c

/-- A queue as its descriptor in memory gives it (R387). -/
def queueOf (p x : Nat) : Queue :=
  { ring := fld x 448 64, rptr := fld x 416 32, wptr := fld x 384 32, pasid := fld x 364 20, gen := fld x 356 8,
    ctx := ctxKey p (fld x 346 10), vf := fld x 340 6, log2 := fld x 336 4, prio := fld x 334 2, st := fld x 331 3, err := fld x 323 8,
    wait := none }

/-- A descriptor with the fields that the device writes; the others stand as software has them (R387). -/
def Queue.bits (x : Nat) (q : Queue) : Nat :=
  fld x 448 64 * 2 ^ 448 + q.rptr % 2 ^ 32 * 2 ^ 416 + q.wptr % 2 ^ 32 * 2 ^ 384 + fld x 364 20 * 2 ^ 364 + q.gen % 256 * 2 ^ 356 +
    fld x 334 22 * 2 ^ 334 + q.st % 8 * 2 ^ 331 + q.err % 256 * 2 ^ 323 + fld x 0 323

/-- The place of a queue's descriptor in its partition's table (R387). -/
def State.descAt (s : State) (p q : Nat) : Nat := (s.part p).qtab + 64 * q

/-- Whether a queue is mapped in a slot of the firmware processor. -/
def State.mapped (s : State) (p q : Nat) : Bool := (s.part p).slots.contains (q + 1)

/-- The queue of a number: as its slot holds it, else as its descriptor stands in the queue table, with the fields that the device keeps
(R387, R401). -/
def State.queue (s : State) (p q : Nat) : Queue :=
  match SMap.find s.queues (queueKey p q) with
  | some x =>
    if s.mapped p q then x
    else { queueOf p (Memory.readN s.mem (s.descAt p q) 64) with rptr := x.rptr, wptr := x.wptr, gen := x.gen, st := x.st, err := x.err, wait := x.wait }
  | none => queueOf p (Memory.readN s.mem (s.descAt p q) 64)

/-- A queue with its descriptor: the write takes the fields of the device alone (R273, R387, R448, R449). -/
def State.setQueue (p q : Nat) (x : Queue) (s : State) : State :=
  let a := s.descAt p q
  let s1 := (s.foreignWrite none (a / 65536)).writeHome a (x.bits (Memory.readN s.mem a 64)) 64
  { s1 with queues := SMap.set s1.queues (queueKey p q) x }

/-- Whether a replay copies the page of a queue's descriptor (R448). -/
def State.queueBusy (s : State) (p q : Nat) : Bool := !s.mayWrite (s.descAt p q) 64

/-- Whether no page of a partition's queue table is being copied (R448). -/
def State.tableFree (s : State) (p : Nat) : Bool := ((List.range 5).map ((s.part p).qtab / 65536 + ·)).all (fun g => !s.pageBusy g)

/-- The monitor entries of a queue's wait. -/
def State.dropWait (p q : Nat) (s : State) : State := { s with mons := s.mons.filter (fun m => m.queue != some (queueKey p q)) }

/-- A queue that is dying: what it has not processed is discarded. -/
def Queue.die (q : Queue) : Queue := { q with st := 3, rptr := q.wptr, wait := none }

/-- The generation of a PASID in a partition (R403). -/
def State.genOf (s : State) (p pasid : Nat) : Nat := SMap.getD s.gens (p * 1048576 + pasid) 0

/-- The queues that a partition's table describes, or that the device holds (R387). -/
def State.knownQueues (s : State) (p : Nat) : List Nat :=
  let t := (s.part p).qtab
  let cells := List.filter (fun (c : Host.Cell) => Nat.ble t c.1 && Nat.blt c.1 (t + 262144)) s.mem
  (cells.map (fun (c : Host.Cell) => (c.1 - t) / 64) ++ ((s.queues.map Prod.fst).filter (fun k => k / 4096 == p)).map (fun k => k % 4096)).eraseDups

/-- The queues of a context (R404). -/
def State.queuesOf (s : State) (c : Nat) : List Nat :=
  (s.knownQueues (s.ctx c).part).filter (fun q => (s.queue (s.ctx c).part q).ctx == c)

/-- A context is torn down: its queues die, its launches end and its PASID's generation advances. Its locks stand until it is
destroyed (R277, R345, R404). -/
def State.tearDown (c : Nat) (s : State) : State :=
  let k := s.ctx c
  let ls := (s.launches.filter (fun x => x.2.ctx == c)).map Prod.fst
  let s1 := (s.queuesOf c).foldl (fun s q => (s.dropWait k.part q).setQueue k.part q (s.queue k.part q).die) s
  let s2 := ls.foldl (fun s l => s.removeLaunch l) s1
  let key := k.part * 1048576 + k.crec.pasid
  ({ s2 with gens := SMap.set s2.gens key ((s2.genOf k.part k.crec.pasid + 1) % 256) }.modCtx c
    (fun x => { x with tdown := true })).post 0 (.teardownComplete c)

/-- The sums of a context that ceases to exist stay for the correction of the interval (R160, R161). -/
def State.keepSums (c : Nat) (s : State) : State :=
  let k := s.ctx c
  let all := fun (m : List (Nat × Nat)) (l : List (Nat × Nat)) => l.foldl (fun m x => addTo m x.1 x.2) m
  { s with fleet := { s.fleet with gone := all s.fleet.gone k.charged, goneTicks := all s.fleet.goneTicks k.gticks } }

/-- A context ceases to exist, and its line locks with it (R277, R404). -/
def State.destroyCtx (c : Nat) (s : State) : State :=
  let mine := fun (e : Ev) => match e with
    | .stopTakesEffect x => x.ctx == c
    | .resumeTakesEffect x => x.ctx == c
    | .chargeArrival k => k == c
    | _ => false
  let s1 := (s.keepSums c).unpost mine
  let orphan := fun (x : Nat × Line) =>
    if x.2.dirty = some c then (x.1, { x.2 with dirty := some (goneCtx (s.ctx c).part (s.ctx c).crec.vf) }) else x
  { s1 with locks := s1.locks.filter (fun x => x.2.ctx != c), l2 := s1.l2.map orphan }.modCtx c (fun k =>
    { k with live := false, tdown := false, charged := [], gticks := [], held := [], arriving := [] })

end Sys2Proof.Machine
end

