-- ==== Sys2Proof/Machine/Completion.lean ====
section
/-! DEFINITION. Steps that let a group go on: ready paths, clearance of memory words, completions, acknowledgements, and the
faults that come back (R43, R62, R105 to R129, R255, R297, R332 to R341). -/

namespace Sys2Proof.Machine

/-! ### Ready paths (R42, R43) -/

/-- Whether what a blocked path awaits has come. The completion of an instance frees its paths itself (R46). -/
def State.blockMet (s : State) (t : Nat) (b : Block) : Bool :=
  match b.on with
  | .member _ => false
  | .barWait bar n => phasePassed (s.bar t bar).phase n
  | .barArr bar ph => (s.bar t bar).phase != ph
  | .waitc op => (SMap.find s.ops op).isNone
  | .batch n => batchDone (s.team t).batch n

def State.optMet (s : State) (t : Nat) (b : Option Block) : Bool := match b with | some b => s.blockMet t b | none => false

/-- Whether some path of a group may go on. -/
def State.anyMet (s : State) (g : Group) : Bool := s.optMet g.team g.block || g.stack.any (fun e => s.optMet g.team e.block)

/-- A stack entry whose path is ready stands at the word after its blocking word (R43). -/
def State.readyEntry (s : State) (t : Nat) (e : StackEntry) : StackEntry :=
  match e.block with
  | some b => if s.blockMet t b then { e with block := none, pos := b.after } else e
  | none => e

/-- The group with its ready paths ready (R43). -/
def State.readyPaths (s : State) (g : Group) : Group :=
  let g1 := { g with stack := g.stack.map (s.readyEntry g.team) }
  match g.block with
  | some b => if s.blockMet g.team b then { g1 with block := none }.moveTo b.after else g1
  | none => g1

/-- PATH_READY (R43). -/
def execPathReady (g : Nat) (s : State) : Host.Outcome State Fault Refusal :=
  evStep ((SMap.find s.groups g).isSome && s.anyMet (s.grp g)) true (fun s => s.setGrp g (s.readyPaths (s.grp g))) s

/-- The groups of a team that may go on are called (R43). -/
def State.callReady (t : Nat) (s : State) : State :=
  (s.team t).groups.foldl (fun s g => if s.anyMet (s.grp g) then s.post 0 (.pathReady g) else s) s

/-! ### Completion (R62, R120, R143, R297, R336) -/

/-- A loaded value in its register width: the narrow signed forms extend their sign (R257). -/
def MemKind.extend (k : MemKind) (x : DWord) : DWord :=
  match k with
  | .ld 1 true => (x.setWidth 8).signExtend 64
  | .ld 2 true => (x.setWidth 16).signExtend 64
  | _ => x

/-- The result of a lane, 0 for a lane that made no access. -/
def MemOp.value (o : MemOp) (i : Nat) : DWord := match o.lane i with | some r => o.kind.extend r.res | none => 0
def MemOp.status (o : MemOp) (i : Nat) : Word := match o.lane i with | some r => r.stat | none => 0

/-- A register of a group takes the lanes' values and becomes full (R55, R62). -/
def Group.take (g : Group) (o : MemOp) (r : RegFile × Nat) (f : Nat → Word) : Group :=
  match r.1 with
  | .v => g.wrV r.2 (g.tag r.2) (maskOf (fun i => (o.lane i).isSome)) f
  | .s => g.wrS r.2 (f 0)

/-- Every destination of a completed operation is written, or marked errored where its service failed (R62, R336). -/
def Group.deliver (g : Group) (o : MemOp) : Group :=
  match o.fail with
  | some f => (o.dst ++ o.stat.toList).foldl (fun g r => g.errReg r.1 r.2 f) g
  | none =>
    let g1 := match o.dst with
      | [a, b] => (g.take o a (fun i => lo32 (o.value i))).take o b (fun i => hi32 (o.value i))
      | l => l.foldl (fun g r => g.take o r (fun i => lo32 (o.value i))) g
    match o.stat with
    | some r => g1.take o r o.status
    | none => g1

/-- An operation leaves, and the releases that waited for it are looked at again (R297). -/
def State.finishOp (id : Nat) (o : MemOp) (s : State) : State :=
  let bars := ((s.team o.team).barOwed.filter (fun b => b.2 == id)).map Prod.fst
  let s1 := { s with ops := SMap.erase s.ops id }
  let s2 := s1.modTeam o.team (fun t => { t with barOwed := t.barOwed.filter (fun b => b.2 != id) })
  bars.foldl (fun s b => if Nat.blt b 32 then s.barCheck o.team b else s) s2

/-- What a read of the home energy unit answers: bits 71:8 of the account, or the integer part of the level (R164). -/
def Ctx.metered (c : Ctx) (bucket : Bool) : DWord := if bucket then BitVec.ofInt 64 (c.level / 256) else BitVec.ofNat 64 (c.acct / 256)

/-- A read of the home unit is served: the value goes back to the core's facet, where it arrives in cycle D(e') + X + 6 (R164,
R429). -/
def State.serveMeter (id : Nat) (o : MemOp) (bucket : Bool) (s : State) : State :=
  let p := (s.ctx o.ctx).part
  let f := (s.grp o.gid).facet
  let r := fun (x : LaneReq) => { x with st := .done, res := (s.ctx o.ctx).metered bucket }
  { s with ops := SMap.set s.ops id { o with lanes := o.lanes.map r } }.postAt (.facets p)
    (s.homeCycle p f + (if f = (s.part p).home then 0 else 1)) (.longLatencyCompletion id)

/-- Whether an operation is a read of the home unit that is still to be served. -/
def MemOp.unserved (o : MemOp) : Option Bool :=
  match o.kind with
  | .meter b => if o.lanes.any (fun r => r.st != .done) then some b else none
  | _ => none

/-- LONG_LATENCY_COMPLETION: the answer of a unit reaches the core, where its service is charged; with the last of them the word completes (R62, R143,
R336, R385). A completed WAITC frees its path (R272); a read of the home unit is served first (R164), and a
segment word is served here, in the unit's order (R318, R363). -/
def execLongLatencyCompletion (op : Nat) (s : State) : Host.Outcome State Fault Refusal :=
  match SMap.find s.ops op with
  | some o => evStep true (s.mayAnswer o && (!o.reattach || s.segTurn op)) (fun s =>
      match o.unserved with
      | some b => s.serveMeter op o b
      | none =>
        if o.reattach then s.serveSegatt op
        else
        let s0 := s.answered op o
        match SMap.find s0.ops op with
        | none => s0
        | some o =>
          if !o.whole then s0
          else
            let s1 := (s0.modGrp o.gid (fun g => g.deliver o)).finishOp op o
            match o.kind with
            | .waitc _ => s1.post 0 (.pathReady o.gid)
            | _ => s1) s
  | none => match SMap.find s.segReqs op with
    | some r => evStep true (s.segTurn op) (State.serveSegment op r) s
    | none => evStep false false id s

/-! ### Clearance (R105 to R129, R255, R278, R333, R334) -/

/-- What the checks of a lane come to: its fault, the wait for a peer, with its place there, no access at all, a fault that comes in
service, or its place. -/
inductive Cleared where
  | fault (c : FaultClass) (cause : Nat)
  | ask (handle key : Nat)
  | drop
  | pool
  | ok (key : Nat) (home : Home) (slot : Option Nat) (page : Option (Nat × Nat × Bool))

/-- Kinds that no lane-private address accepts (R107). -/
def MemKind.noPrivate : MemKind → Bool
  | .ld _ _ => false
  | .st _ => false
  | .pref => false
  | .lflush => false
  | _ => true

/-- The check of the lane's space (R107, R119, R255); the scope is the word's. -/
def spaceFault (k : MemKind) (unif : Bool) (scope : Nat) (a : DWord) : Bool :=
  !adWin a &&
    ((adSpace a == 4 && (unif || k.noPrivate)) || (adSpace a != 0 && scope == 3) ||
      ((adSpace a == 1 || adSpace a == 2) &&
        (match k with | .waitc _ => true | .lkl => true | .ulkl => true | _ => false)))

/-- Whether a hint acts on the space of an address (R255, R261, R262). -/
def hintSpace (a : DWord) : Bool := adWin a || adSpace a == 0

/-- The late checks of a lane that has a place: live barrier words, then range locks (R127, R129). -/
def State.lateFault (s : State) (o : MemOp) (r : LaneReq) : Option (FaultClass × Nat) :=
  let n := o.kind.bytes
  let g := s.grp o.gid
  if o.kind.writes && !adWin r.addr && adSpace r.addr == 1 && s.hitsLive o.team (adOfs r.addr) (adOfs r.addr + n) then
    some (.barrierWord, 0)
  else if o.kind == .pref then none
  else (s.rangeCause g.coreId o.team r.addr n o.kind.writes).map (fun c => (.rangeLock, c))

/-- Whether the fabric port of an address admits a master's requests (R416). -/
def State.mayLeave (s : State) (part vf : Nat) (a : DWord) : Bool :=
  match s.planeOf a with
  | some n => (s.accEntry (512 + n) (masterOf part vf)).v
  | none => true

/-- The checks of one lane in the order of R333. -/
def State.clearLane (s : State) (id : Nat) (o : MemOp) (r : LaneReq) : Cleared :=
  match decodeFault r.addr o.kind.bytes with
  | some c => .fault c 0
  | none =>
    if spaceFault o.kind o.unif (polScope o.pol) r.addr then .fault .illegalOperand 0
    else if o.kind.isPool && !hintSpace r.addr then .pool
    else
      let late := fun (ok : Cleared) => match s.lateFault o r with
        | some (c, k) => .fault c k
        | none => ok
      match s.placeOf o.team (s.grp o.gid).gnum r.lane r.addr o.kind.bytes o.kind.acc with
      | .fault c k => .fault c k
      | .at' key home slot page => late (if o.kind.isHint && !hintSpace r.addr then .drop else .ok key home slot page)
      | .peer h key =>
        if !s.mayLeave (s.team o.team).part (s.vfOf o.ctx) r.addr then .fault .access 0
        else late
          (if (s.ctx o.ctx).verified.contains h then .ok key (.peer h) none none
          else if o.kind = .pref || Config.peerAccepts (id * 65536 + h) then .ask h key
          else .fault .window 2)

/-- The lane after its checks: a lane of a hint that has no effect makes no access, and one of PREF asks the peer as it goes
(R255, R261). -/
def LaneReq.cleared (k : MemKind) (r : LaneReq) (c : Cleared) : LaneReq :=
  match c with
  | .ok key home slot _ => { r with st := .cleared, key := key, home := home, slot := slot }
  | .ask h key => if k = .pref then { r with st := .cleared, key := key, home := .peer h } else r
  | .pool => { r with st := .cleared, key := peerKey * 2 + r.lane }
  | _ => if k.isHint then { r with st := .done } else r

/-- The first fault of a list of checked lanes, in lane order (R333). -/
def firstFault : List (LaneReq × Cleared) → Option (LaneReq × FaultClass × Nat)
  | [] => none
  | (r, c) :: l => match c with
    | .fault cl k => some (r, cl, k)
    | _ => firstFault l

/-- The handles whose acceptance is awaited. -/
def asked (l : List (LaneReq × Cleared)) : List Nat :=
  (l.filterMap (fun x => match x.2 with | .ask h _ => some h | _ => none)).eraseDups

/-- A read of a table through the L2, charged to a team's context. A walk has no policy operand: its line is of class normal (R111, R143, R411;
DESIGN CHOICE, log entry 7). An entry that may not be read is only asked for. -/
def State.readTable (t a : Nat) (s : State) : State :=
  let tm := s.team t
  let ev := some (s.inReplay t)
  let f := tm.cluster / 8
  let h := [(9, 2 * s.hopsTo t (sliceOf a))]
  if !s.tableOk a then s.chargeShared tm.ctx f 16 h ev
  else if (SMap.find s.l2 (lineOf a)).isSome then (s.chargeShared tm.ctx f 16 (h ++ [(8, 1)]) ev).touch (lineOf a) .normal none none .home
  else (((s.chargeShared tm.ctx f 16 h ev).chargeShared tm.ctx f 17 [(10, 1)] ev).fillLine (lineOf a) none).touch (lineOf a) .normal none none .home

/-- The entry that a TLB keeps of a leaf (R411, R415). -/
def TlbEntry.of (tm : Team) (va : Nat) (p : Nat × Nat × Bool) (place host : Nat) : TlbEntry :=
  { part := tm.part, pasid := tm.crec.pasid, gen := tm.crec.gen, page := va / 2 ^ p.2.1, size := p.2.1, pte := p.1, place := place, host := host }

/-- A TLB takes an entry; a full one, of 256 or 4,096, loses its oldest (R411; DESIGN CHOICE, log entry 7). -/
def State.keepEntry (e : TlbEntry) (s : State) : State :=
  let here := s.tlb.filter (fun x => x.place == e.place)
  let room := if Nat.blt e.place 128 then 256 else 4096
  if s.tlb.contains e then s
  else { s with tlb := (if Nat.blt here.length room then s.tlb else match here with | x :: _ => s.tlb.erase x | [] => s.tlb) ++ [e] }

/-- Whether an address's translation is already in both TLBs of a team's cluster: another of its set's has walked for it (R411). -/
def State.held (s : State) (tm : Team) (va : Nat) (p : Nat × Nat × Bool) : Bool :=
  s.tlb.any (fun e => e.place == 128 + tm.cluster / 8 && { e with place := 0, host := 0 } == TlbEntry.of tm va p 0 0)

/-- The TLBs of a team's cluster and facet keep the leaf that serves an access; a walk's reads are charged to its context (R411). -/
def State.walked (t va : Nat) (p : Nat × Nat × Bool) (s : State) : State :=
  let tm := s.team t
  let host := match s.tlb.find? (fun e => e.covers tm.part tm.crec va && e.pte == p.1) with | some e => e.host | none => s.hosted
  let s1 := if p.2.2 || s.held tm va p then s else (s.walkOf tm.crec va).foldl (fun s a => s.readTable t a) s
  (s1.keepEntry (TlbEntry.of tm va p tm.cluster host)).keepEntry (TlbEntry.of tm va p (128 + tm.cluster / 8) host)

/-- An address is walked for whose translation then fails: the walk is charged (R411). -/
def State.walkFailed (t va : Nat) (s : State) : State :=
  let tm := s.team t
  if (s.tlbFor tm.cluster tm.part tm.crec va).isSome then s else (s.walkOf tm.crec va).foldl (fun s a => s.readTable t a) s

/-- The units of apertures that the reads of walks take (R158). -/
def State.readUnits (s : State) (reads : List Nat) : List (Nat × Nat) :=
  (reads.filter s.tableOk).flatMap (fun a => (sliceOf a, 1) :: if (SMap.find s.l2 (lineOf a)).isNone then [(768 + sliceOf a, 1)] else [])

/-- The units of apertures that the walks of a list of translations take; addresses on one page share a walk (R158, R411). -/
def State.walkUnits (s : State) (tm : Team) (l : List (Nat × Nat × Nat × Bool)) : List (Nat × Nat) :=
  s.readUnits ((l.flatMap (fun x => if x.2.2.2 || s.held tm x.1 x.2 then [] else s.walkOf tm.crec x.1)).eraseDups)

/-- The device-virtual address that a lane's access translates (R474). -/
def State.lanePage (s : State) (o : MemOp) (r : LaneReq) : Nat :=
  if adSpace r.addr = 4 then
    laneArea (s.team o.team) (s.team o.team).crec (s.grp o.gid).gnum r.lane + adOfs r.addr
  else adOfs r.addr

/-- The step that serves a cleared lane first. -/
def MemKind.service (k : MemKind) (home : Home) (id lane : Nat) : Ev :=
  match k with
  | .atom _ => .homeAtomicService id lane
  | .fatom _ => .homeAtomicService id lane
  | .cadd => .homeAtomicService id lane
  | .crd _ => .homeAtomicService id lane
  | .lkl => .homeAtomicService id lane
  | .ulkl => .homeAtomicService id lane
  | .qpush => .reflectorEntry id lane
  | .qpop => .reflectorEntry id lane
  | .waitc _ => .conditionMonitorTest id lane
  | .ldmc true => match home with | .slice _ => .mergeRequestPass id lane | _ => .sliceAccessService id lane
  | _ => .sliceAccessService id lane

/-- Whether one service takes every lane of a line together (log entry 21). -/
def MemKind.byLine : MemKind → Bool
  | .ld _ _ => true
  | .ldmc _ => true
  | .st _ => true
  | .pref => true
  | .lflush => true
  | _ => false

/-- The lanes whose service is called for: every lane, or the first of each line and key slot (R418). -/
def MemOp.called (o : MemOp) : List LaneReq :=
  o.lanes.filter (fun r => r.st == .cleared &&
    !(o.kind.byLine && o.lanes.any (fun q => q.st == .cleared && Nat.blt q.lane r.lane && q.key / 64 == r.key / 64 && q.home == r.home &&
        q.slot == r.slot)))

/-- A cleared word: its lanes have their places and their service begins, once its requests have crossed to their homes; a pool word on chip
fails in service (R132, R333, R429). -/
def State.cleared (id : Nat) (o : MemOp) (l : List (LaneReq × Cleared)) (s : State) : State :=
  let o1 := { o with lanes := l.map (fun x => x.1.cleared o.kind x.2), cleared := true }
  let s1 := (s.modOp id (fun _ => o1)).modGrp o.gid (fun g => if g.clear = some id then { g with clear := none } else g)
  let s2 := { s1 with rest := if (SMap.find s.snaps id).isSome then some id else s1.rest }
  let s3 := l.foldl (fun s x => match x.2 with | .ok _ _ _ (some p) => s.walked o.team (s.lanePage o x.1) p | _ => s) s2
  let s4 := l.foldl (fun s x => match x.2 with | .pool => s.laneFail id x.1.lane .poolObject 0 | _ => s) s3
  let o2 := (SMap.find s4.ops id).getD o1
  (o2.called.foldl (fun s r => s.post (s.upTicks (s.team o.team).part r.home) (o.kind.service r.home id r.lane)) s4).settle id

/-- Whether a lane's check translates a device-virtual address: those of a device address or lane-private memory (R333). -/
def LaneReq.translates (r : LaneReq) : Bool := !adWin r.addr && (adSpace r.addr == 0 || adSpace r.addr == 4)

/-- A word that fails its checks: its registers are full again and its fault is taken before its set; the walks of its checks are charged
(R332, R333, R411). -/
def State.uncleared (id : Nat) (o : MemOp) (f : FaultInfo) (s : State) : State :=
  let walks := o.lanes.filter (fun r => Nat.ble r.lane f.lane && r.translates && (decodeFault r.addr o.kind.bytes).isNone)
  let s := ((walks.map (s.lanePage o)).map (fun va => va / 65536 * 65536)).eraseDups.foldl (fun s va => s.walkFailed o.team va) s
  let s1 := { s with ops := SMap.erase s.ops id, snaps := SMap.erase s.snaps id }
  (s1.modGrp o.gid (fun g => { g.undo o.undo with clear := none })).takeFault o.gid f o.start

/-- MEMORY_WORD_CLEARANCE: the checks of every lane; no lane makes its access unless all pass, and the lowest-numbered faulting
lane is reported once every awaited peer has answered (R333, R334). -/
def execMemoryWordClearance (op : Nat) (s : State) : Host.Outcome State Fault Refusal :=
  match SMap.find s.ops op with
  | none => evStep false false id s
  | some o =>
    let l := o.lanes.map (fun r => (r, s.clearLane op o r))
    let hs := if o.kind = .pref then [] else asked l
    let waiting := fun (h : Nat) => s.agenda.any (fun x => x.2 == .peerKeyAccept o.ctx h)
    if !hs.isEmpty then
      evStep true (!hs.all waiting) (fun s =>
        ((hs.filter (fun h => !waiting h)).foldl (fun s h => s.post 0 (.peerKeyAccept o.ctx h)) s).post 0
          (.memoryWordClearance op)) s
    else
      match (if o.kind = .pref then none else firstFault l) with
      | some (r, c, k) => .next (s.uncleared op o (o.faultAt c k r.lane (some r.addr)))
      | none =>
        let pages := l.filterMap (fun x => match x.2 with | .ok _ _ _ (some p) => some (s.lanePage o x.1, p) | _ => none)
        (s.drawUnits (s.opVf o) op 64 (s.walkUnits (s.team o.team) pages) (.memoryWordClearance op)).run (State.cleared op o l) s

/-- PEER_KEY_ACCEPT: the entry is verified for its context (R334). -/
def execPeerKeyAccept (c handle : Nat) (s : State) : Host.Outcome State Fault Refusal :=
  evStep ((SMap.find s.ctxs c).isSome && !(s.ctx c).verified.contains handle) true
    (fun s => s.modCtx c (fun k => { k with verified := k.verified ++ [handle] })) s

/-! ### Faults that come back (R337, R338, R341) -/

/-- A deferred fault joins those that a group holds; a second of its class only marks the first, where another word caused it
(R337). -/
def Group.defer (g : Group) (f : FaultInfo) : Group :=
  if g.deferred.any (fun d => d.info.cls == f.cls) then
    { g with deferred := g.deferred.map (fun d =>
        if d.info.cls = f.cls then { d with ovf := d.ovf || d.info.src != f.src } else d) }
  else { g with deferred := g.deferred ++ [{ info := f, ovf := false }] }

/-- A team's last report carries the mark of a further fault of its class (R337, R341). -/
def markLast : List Report → List Report
  | [] => []
  | [r] => [{ r with ovf := true }]
  | r :: l => r :: markLast l
def Team.markOvf (t : Team) : Team := { t with reports := markLast t.reports }
def State.markOvf (t : Nat) (on : Bool) (s : State) : State := if on then s.modTeam t Team.markOvf else s

/-- DEFERRED_FAULT_REPORT: the fault is held at the core for the group's next boundary (R337). -/
def execDeferredFaultReport (g : Nat) (f : FaultInfo) (s : State) : Host.Outcome State Fault Refusal :=
  evStep (SMap.find s.groups g).isSome true (fun s => s.modGrp g (fun g => g.defer f)) s

/-- Whether a ring has a free slot, and the place of its next record of `n` bytes (R402). -/
def Ring.room (r : Ring) : Bool := Nat.blt ((r.wptr + 4294967296 - r.rptr) % 4294967296) (2 ^ r.log2)
def Ring.slot (r : Ring) (n : Nat) : Nat := r.base + n * (r.wptr % 2 ^ r.log2)
def Ring.push (r : Ring) : Ring := { r with wptr := (r.wptr + 1) % 4294967296 }

/-- A fault record (R341). -/
def Report.record (r : Report) (teamid ctx : Nat) : Nat :=
  r.tick % 2 ^ 64 * 2 ^ 448 + teamid % 2 ^ 32 * 2 ^ 416 + r.info.tcode % 4096 * 2 ^ 392 + r.ovf.toNat * 2 ^ 384 +
    (r.info.addr.getD 0).toNat * 2 ^ 192 + r.info.src.pa.toNat * 2 ^ 128 + r.bound.pa.toNat * 2 ^ 64 +
    (syndromeOf r.info r.hact).toNat * 2 ^ 32 + r.bound.w % 4 * 2 ^ 24 + r.gnum % 32 * 2 ^ 19 + ctx % 1024

/-- The report list with its first unsent report sent. -/
def sendFirst : List Report → List Report
  | [] => []
  | r :: l => if r.sent then r :: sendFirst l else { r with sent := true } :: l

/-- FAULT_REPORT: once nothing of the team is outstanding and its groups have stopped, a record is written to the partition's
fault ring; a full ring holds it back (R338, R341, R402). -/
def execFaultReport (t : Nat) (s : State) : Host.Outcome State Fault Refusal :=
  let tm := s.team t
  let p := s.part tm.part
  let stopped := match tm.stopAt with | some x => Nat.ble x (s.cycle (.facets tm.part)) | none => true
  match tm.reports.find? (fun r => !r.sent) with
  | some r => evStep true (!s.busy t && stopped && p.ring.room && s.mayWrite (p.ring.slot 64) 64) (fun s =>
      let s0 := (s.foreignWrite none (p.ring.slot 64 / 65536)).writeHome (p.ring.slot 64) (r.record tm.teamid tm.ctx) 64
      let s1 := (s0.modPart tm.part (fun p => { p with ring := p.ring.push })).modTeam t
        (fun x => { x with reports := sendFirst x.reports })
      if (s1.team t).reports.any (fun r => !r.sent) then s1.post 0 (.faultReport t) else s1) s
  | none => evStep false false id s

end Sys2Proof.Machine
end

