-- ==== Sys2Proof/Machine/Service.lean ====
section
/-! DEFINITION. Service at home units: slices, scratchpads and cluster memories, atomics, line locks, pool words, condition
monitors, windowed accesses of this device, and accesses of peers and of the host (R101, R102, R108, R111 to R126, R158,
R263 to R277, R334, R368 to R372, R376, R377, R384, R406, R418, R468). -/

namespace Sys2Proof.Machine

/-! ### Errors (R471) -/

/-- An error record. -/
def errorRecord (tick addr unit kind part ctx : Nat) : Nat :=
  tick % 2 ^ 64 + addr % 2 ^ 64 * 2 ^ 64 + unit % 65536 * 2 ^ 128 + kind % 256 * 2 ^ 144 + part % 256 * 2 ^ 152
    + ctx % 65536 * 2 ^ 160

/-- Held error records go to their ring as far as it has room (R402, R471). -/
def State.flushErrors (s : State) : State :=
  s.fleet.errHeld.foldl (fun s r =>
    let f := s.fleet
    if f.errors.room && s.mayWrite (f.errors.slot 32) 32 then
      let s := (s.foreignWrite none (f.errors.slot 32 / 65536)).writeHome (f.errors.slot 32) r 32
      { s with fleet := { s.fleet with errors := s.fleet.errors.push, errHeld := s.fleet.errHeld.drop 1 } }
    else s) s

/-- An error is logged. -/
def State.logError (addr unit kind part ctx : Nat) (s : State) : State :=
  { s with fleet := { s.fleet with errHeld := s.fleet.errHeld ++ [errorRecord s.now addr unit kind part ctx] } }.flushErrors

/-! ### What lets a request be served -/

/-- A write to a page passes the capture of a replay; the first write of a replay to a page starts its copy (R448). -/
def State.passGate (s : State) (replay writer : Option Nat) (key : Nat) (ev : Ev) : Pass :=
  match s.writeGate replay writer key with
  | .go s1 => .go s1
  | .wait => .stay
  | .copy p page => if s.awaits (.pageCapture p page) then .stay else .again ((s.post 0 (.pageCapture p page)).post 0 ev)

/-- The replay that an operation belongs to, and the context that it acts for. -/
def State.opReplay (s : State) (o : MemOp) : Option Nat := if o.origin.isSome then none else s.replayOf o.team
def MemOp.actor (o : MemOp) : Option Nat := if o.origin.isSome then none else some o.ctx

/-- The units of apertures that a request takes: at a slice one, and the bursts of the HBM4 behind it; at a fabric port its flit, where
no local copy answers (R158, R159). -/
def State.unitsAt (s : State) (r : LaneReq) (fills : Nat) (kept : Bool) : List (Nat × Nat) :=
  match r.home with
  | .slice k => [(k, 1), (768 + k, fills)]
  | .peer _ => if kept then [] else match s.planeOf r.addr with | some n => [(512 + n, 1)] | none => []
  | _ => []

/-- Whether a windowed access needs no message: a load or hint on a line that is held, or a store to one held in state M; a WAITC, an atomic, a
pool word and a line lock are always the owner's (R263, R273, R276, R371). -/
def State.kept (s : State) (o : MemOp) (r : LaneReq) : Bool :=
  match SMap.find s.l2 (lineOf r.key), o.kind with
  | some l, .st _ => l.whose == .owned
  | some _, k => k.byLine
  | none, k => k == .lflush

/-- A lane's access passes the order of its group, the capture of its page and the apertures on its way. -/
def State.pass (s : State) (id : Nat) (o : MemOp) (r : LaneReq) (writes : Bool) (fills : Nat) (ev : Ev) : Pass :=
  if (o.mates r).any (s.orderWaits id o) then .stay
  else
    match (if writes then s.passGate (s.opReplay o) o.actor r.key ev else .go s) with
    | .go s1 => s1.drawUnits (s.opVf o) id r.lane (s1.unitsAt r fills (s1.kept o r)) ev
    | x => x

/-! ### The L2 line of a lane (R111, R112, R143, R144, R371, R418, R470) -/

/-- Whether a line of HBM4 is absent from the L2. -/
def State.absent (s : State) (key : Nat) : Bool := isHbm key && (SMap.find s.l2 (lineOf key)).isNone

/-- Whether a resident line records another key slot than an access's (R418). -/
def State.slotClash (s : State) (r : LaneReq) : Bool := s.otherSlot r.key r.slot

/-- The target of an address of a slice or of a bank of chip scratchpad, and the 64 KiB unit there (R368, R406, R416). -/
def targetOfKey (key slice : Nat) : Nat × Nat :=
  if isHbm key then (slice, key / 65536) else (256 + slice, bankUnit (key - chipKey 0))

/-- Whether the access table of a slice or bank, as it stands when the request arrives, admits it (R416). -/
def State.admitted (s : State) (o : MemOp) (r : LaneReq) : Bool :=
  match r.home with
  | .slice k => (s.accEntry (targetOfKey r.key k).1 (masterOf (s.opPart o) (s.opVf o))).admits (if o.kind = .own then .store else o.kind.acc)
      (targetOfKey r.key k).2
  | _ => true

/-- Whether the home does not perform an access: its table admits it no more, or its line records another key slot (R416, R418). -/
def State.barred (s : State) (o : MemOp) (r : LaneReq) : Bool := s.slotClash r || !s.admitted o r

/-- Bytes of which nothing is known. -/
def State.freeLine (line : Nat) (s : State) : State :=
  { s with mem := Memory.writeBytes s.mem (64 * line) ((List.range 64).map (Config.peerFill s.ticket)) }.tick

/-- A line that a peer owns is taken back with what the owner wrote, before any other access: it comes into the L2 whole, and the monitors on
it are tested (R273, R371; log entry 10). -/
def State.takeBack (line : Nat) (s : State) : State :=
  match SMap.find s.dir line with
  | some d =>
    if d.st = .modified then
      let dirtied := fun (l : Line) => { l with dirty := some (peerCtx d.vf (d.ids.headD 0) 0) }
      let s0 := { s with dir := SMap.erase s.dir line }
      let s1 := if s0.absent (64 * line) then (s0.putKey line d.slot).touch line .normal d.slot none .home else s0
      (((({ s1 with l2 := SMap.modify s1.l2 line dirtied }).freeLine line).chargePeers d.vf 2 [(11, 1)]).countFlits (BitVec.ofNat 64 (64 * line))
        d.vf 1).wake (64 * line) 64
    else s
  | none => s

/-- The access of a line's own M owner: its copy goes without a message (R371). -/
def State.yieldDir (o : MemOp) (line : Nat) (s : State) : State :=
  match o.origin, SMap.find s.dir line with
  | some x, some d => if d.st = .modified && d.ids == [x.peer] then { s with dir := SMap.erase s.dir line } else s
  | _, _ => s

/-- A line of HBM4 is present afterwards, with the class of the access and the context that wrote it (R112, R143, R144). -/
def State.bringLine (ctx key : Nat) (cls : EvClass) (slot : Option Nat) (writes : Bool) (s : State) : State :=
  if isHbm key then
    let line := lineOf key
    let s1 := s.takeBack line
    let s2 := if s1.absent key then s1.fillLine line slot else s1
    s2.touch line cls slot (if writes then some ctx else none) .home
  else s.takeBack (lineOf key)

/-- The line of a lane's access. -/
def State.useLine (o : MemOp) (r : LaneReq) (writes : Bool) (s : State) : State :=
  (s.yieldDir o (lineOf r.key)).bringLine o.ctx r.key (evClassOf o.pol r.addr) r.slot writes

/-- Whether the lanes of a store write every byte of a line (R143). -/
def coversLine (n line : Nat) (l : List LaneReq) : Bool :=
  (List.range 64).all (fun k => l.any (fun r => Nat.ble r.key (64 * line + k) && Nat.blt (64 * line + k) (r.key + n)))

/-- The classes of the service of one line at its home; `fill` where HBM4 is read for it. The spec gives the memory of the host no class and
no hops (R143; DESIGN CHOICE, log entry 47). -/
def State.lineCost (s : State) (o : MemOp) (r : LaneReq) (fill : Bool) : List (Nat × Nat) :=
  match r.home with
  | .scratch _ => [(6, ((o.mates r).map (fun q => q.key / 32)).eraseDups.length)]
  | .cluster _ => [(7, 1)]
  | .slice k => [(9, 2 * s.opHops o r k), (if fill then 10 else 8, 1)]
  | .host => []
  | .peer _ => []

/-- The lanes of a list fail with one fault. -/
def State.failLanes (id : Nat) (l : List LaneReq) (c : FaultClass) (cause : Nat) (s : State) : State :=
  l.foldl (fun s r => s.laneFail id r.lane c cause) s

/-- The lanes of a list are served without a value. -/
def State.doneLanes (id : Nat) (l : List LaneReq) (s : State) : State := l.foldl (fun s q => s.laneDone id q.lane 0 0) s

/-- The CTX of an error record: the context within its partition, none for a peer's access (R471). -/
def MemOp.errCtx (o : MemOp) : Nat := if o.origin.isSome then 65535 else o.ctx % 1024

/-- A read of a bad line reaches its consumer as a data error (R470, R471). -/
def State.badRead (id : Nat) (o : MemOp) (l : List LaneReq) (s : State) : State :=
  match l with
  | [] => s
  | r :: _ => (s.failLanes id l .dataError (if isHbm r.key then 0 else 1)).logError r.key
      (match r.home with | .slice k => k | _ => (s.team o.team).cluster) 3 (s.opPart o) o.errCtx

/-- The invalidations of peers' copies that writes at some keys send are acknowledged later: an operation or a copy of a group owes them
(R122). -/
def State.oweInvals (id gid : Nat) (keys : List Nat) (s : State) : State :=
  if keys.any (fun k => (SMap.find s.dir (lineOf k)).isSome) && !s.invals.any (fun x => x.1 == id) then
    { s with invals := SMap.set s.invals id gid }.post 0 (.storeAcknowledgement id)
  else s

/-- The bytes of loads or stores of the lanes of one line, in ascending lane order, so that the highest lane's store stays
(R114, R257, R258). -/
def State.moveBytes (id : Nat) (o : MemOp) (l : List LaneReq) (s : State) : State :=
  let n := o.kind.bytes
  if o.kind.writes then
    let s1 := (s.oweInvals id o.gid (if o.origin.isNone then l.map (fun r => r.key) else [])).writeAll (l.map (fun r => (r.key, r.data.toNat, n)))
    (l.foldl (fun s r => match r.home with | .scratch t => s.fixBar t r.key | _ => s) s1).doneLanes id l
  else l.foldl (fun s r => s.laneDone id r.lane (BitVec.ofNat 64 (Memory.readN s.mem r.key n)) 0) s

/-! ### The directory (R371) -/

/-- The directory of a slice holds 16,384 entries; a new one takes the place of another, whose copies are invalidated
(R371). -/
def State.dirRoom (line : Nat) (s : State) : State :=
  let here := s.dir.filter (fun x => sliceOf (64 * x.1) == sliceOf (64 * line) && x.1 != line)
  match here with
  | x :: _ => if Nat.blt here.length 16384 || (SMap.find s.dir line).isSome then s else (s.takeBack x.1).invalidatePeers x.1
  | [] => s

/-- The entry of a line after a peer has read it: up to four sharers are recorded, a fifth makes it a broadcast (R371). -/
def DirEntry.share (x : Origin) (slot : Option Nat) : Option DirEntry → DirEntry
  | none => { st := .shared, ids := [x.peer], vf := x.vf, seen := [x.peer], slot := slot }
  | some d =>
    let e := if d.seen.contains x.peer then d else { d with seen := d.seen ++ [x.peer] }
    if d.ids.contains x.peer then e
    else if Nat.blt d.ids.length 4 then { e with ids := d.ids ++ [x.peer] }
    else { e with st := .broadcast }

/-- What a peer's access leaves in the directory (R371). -/
def State.noteDir (o : MemOp) (line : Nat) (slot : Option Nat) (s : State) : State :=
  match o.origin with
  | none => s
  | some x =>
    match o.kind with
    | .ld _ _ => { s.dirRoom line with dir := SMap.set (s.dirRoom line).dir line (DirEntry.share x slot (SMap.find (s.dirRoom line).dir line)) }
    | .own =>
      let s1 := (s.invalidatePeers line).dirRoom line
      { s1 with dir := SMap.set s1.dir line { st := .modified, ids := [x.peer], vf := x.vf, seen := [x.peer], slot := slot } }
    | _ => s

/-- Loads, stores and hints on the lanes of one line of the L2, a bank or a memory of the host, and a peer's request to own a line,
which the home refuses while a monitor is on it (R273, R371). -/
def State.serveLine (id : Nat) (o : MemOp) (r : LaneReq) (s : State) : State :=
  let l := o.mates r
  let line := lineOf r.key
  let hops := match r.home with | .slice k => [(9, 2 * s.opHops o r k)] | _ => []
  if s.barred o r then
    match o.kind with
    | .pref => (s.cost id r.lane hops).doneLanes id l
    | _ => (s.cost id r.lane hops).failLanes id l .access 0
  else match o.kind with
  | .lflush => ((s.cost id r.lane (hops ++ [(8, 1)])).dropLine line).doneLanes id l
  | .pref => ((s.cost id r.lane (if s.absent r.key then hops ++ [(10, 1)] else hops)).useLine o r false).doneLanes id l
  | .own =>
    let s1 := (s.cost id r.lane (s.lineCost o r (s.absent r.key))).useLine o r false
    (if s1.mons.any (fun m => lineOf m.key == line) then s1 else s1.noteDir o line r.slot).doneLanes id l
  | k =>
    let whole := k.writes && coversLine k.bytes line l
    let s1 := s.cost id r.lane (s.lineCost o r (s.absent r.key && !whole))
    if !k.writes && s.isBad line then s1.badRead id o l
    else
      let s2 := (if whole then s1.clearBad line else s1).useLine o r k.writes
      (s2.moveBytes id o l).noteDir o line r.slot

/-! ### Windowed accesses of this device (R146, R278, R334, R371, R468) -/

/-- `n` bytes of a peer's answer. -/
def peerValue (ticket n : Nat) : Nat :=
  (List.range n).foldl (fun x k => x + (Config.peerByte (64 * ticket + k)).toNat * 256 ^ k) 0

/-- A flit has passed the port of an address: its retries are over (R469). -/
def State.flitSent (a : DWord) (s : State) : State :=
  match s.planeOf a with
  | some n => { s with fleet := { s.fleet with retries := SMap.erase s.fleet.retries n } }
  | none => s

/-- A window entry becomes verified for a context, or is so no more (R334). -/
def State.verify (c h : Nat) (s : State) : State :=
  s.modCtx c (fun k => { k with verified := if k.verified.contains h then k.verified else k.verified ++ [h] })
def State.distrust (c h : Nat) (s : State) : State := s.modCtx c (fun k => { k with verified := k.verified.filter (· != h) })

/-- The classes of a windowed access: a request and its answer are a flit each, and cross the hops to the port (R143, R146). -/
def State.peerCost (s : State) (o : MemOp) (r : LaneReq) : List (Nat × Nat) := [(9, 2 * s.portHops o r), (11, 2)]

/-- What becomes of a windowed message of some classes: the plane may be down, and the peer may reject the key, which leaves the entry
unverified (R146, R334, R468). -/
def State.toPeer (id : Nat) (o : MemOp) (r : LaneReq) (cost : List (Nat × Nat)) (eff : State → State) (s : State) : State :=
  let l := o.mates r
  match r.home with
  | .peer h =>
    if (s.planeOf r.addr).isNone then s.failLanes id l .dataError 2
    else
      let s1 := s.cost id r.lane cost
      if Config.peerAccepts s.ticket then eff ((s1.tick.flitSent r.addr).verify o.ctx h)
      else (s1.tick.distrust o.ctx h).failLanes id l .window 2
  | _ => s

/-- A peer's line comes into the L2 in state S, or in state M for a context that writes it; the bytes of a line that was not here are
the peer's (R144, R371; log entry 10). -/
def State.bringPeer (line : Nat) (cls : EvClass) (writer : Option Nat) (s : State) : State :=
  match SMap.find s.l2 line with
  | some l => s.touch line cls none writer (if writer.isSome then .owned else l.whose)
  | none => (s.freeLine line).touch line cls none writer (if writer.isSome then .owned else .shared)

/-- Loads, stores and hints on the lanes of one windowed line: a read is served from a local copy or makes one; a store makes the line
this device's own, unless the peer performs it at the home, as it does while a monitor is on the line (R261, R262, R273, R371; log
entry 10). -/
def State.peerLine (id : Nat) (o : MemOp) (r : LaneReq) (s : State) : State :=
  let l := o.mates r
  let line := lineOf r.key
  let cls := evClassOf o.pol r.addr
  match o.kind with
  | .lflush => ((s.cost id r.lane (s.copyCost o.team line)).dropLine line).doneLanes id l
  | .pref =>
    if (SMap.find s.l2 line).isSome then
      ((s.cost id r.lane [(9, 2 * s.hopsTo o.team (l2Place line).1)]).bringPeer line cls none).doneLanes id l
    else if (s.planeOf r.addr).isNone then s.doneLanes id l
    else if !Config.peerAccepts s.ticket then (s.tick.cost id r.lane (s.peerCost o r)).doneLanes id l
    else ((s.tick.cost id r.lane (s.peerCost o r)).bringPeer line cls none).doneLanes id l
  | k =>
    if s.kept o r then ((s.cost id r.lane (s.copyCost o.team line)).bringPeer line cls (if k.writes then some o.ctx else none)).moveBytes id o l
    else if k.writes then
      s.toPeer id o r (s.peerCost o r) (fun s =>
        if peerValue s.ticket 1 % 2 = 0 then (s.tick.bringPeer line cls (some o.ctx)).moveBytes id o l
        else (s.tick.dropLine line).doneLanes id l)
    else s.toPeer id o r (s.peerCost o r) (fun s => (s.bringPeer line cls none).moveBytes id o l)

/-! ### SLICE_ACCESS_SERVICE (R108, R143, R254, R257 to R262) -/

/-- The lanes of one line that are not waiting for another's answer are served at their home. -/
def State.serveAccess (id : Nat) (o : MemOp) (r : LaneReq) (s : State) : State :=
  (match r.home with | .peer _ => s.peerLine id o r | _ => s.serveLine id o r).settle id

/-- The bursts that a line's service fills. -/
def State.fillsOf (s : State) (o : MemOp) (r : LaneReq) : Nat :=
  match o.kind with
  | .lflush => 0
  | k => if s.absent r.key && !(k.writes && coversLine k.bytes (lineOf r.key) (o.mates r)) then 1 else 0

/-- The lanes that a merged request stands for take their bytes of the line's answer; they fail where the line is bad, or where their leaf
names another key slot than the line records (R131, R259, R374, R418, R470). -/
def State.takeLine (t : Nat × Nat) (val : LineAns) (s : State) : State :=
  match SMap.find s.ops t.1 with
  | some o =>
    match o.lane t.2 with
    | some r =>
      (if !s.admitted o r || r.slot != val.slot then s.failLanes t.1 (o.mates r) .access 0
       else if val.bad then s.failLanes t.1 (o.mates r) .dataError 0
       else (o.mates r).foldl (fun s q => s.laneDone t.1 q.lane (BitVec.ofNat 64 (val.val / 256 ^ (q.key % 64) % 4294967296)) 0) s).settle t.1
    | none => s
  | none => s

/-- The answer that the merge entry `m` holds from now on. -/
def MergeEntry.answer (val : LineAns) (m : MergeEntry) : MergeEntry := { m with val := some val }

/-- A line's answer is on its way to the point where a request stands: an entry that the request opened there splits it when it leaves,
`dt` router cycles on, else the request's lanes take it (R373, R374). -/
def State.answerAt (place : Nat) (t : Nat × Nat) (val : LineAns) (dt : Nat) (s : State) : State :=
  match s.merges.find? (fun m => m.place == place && m.opens t) with
  | some m =>
    let f := fun (x : MergeEntry) => if x.id = m.id then x.answer val else x
    { s with merges := s.merges.map f }.postAt .uncore (s.cycle .uncore + dt) (.mergedResponseSplit m.id)
  | none => s.takeLine t val

/-- A hop of a message of a merged read, charged when it is made (R375). -/
def State.hop (id : Nat) (s : State) : State :=
  match SMap.find s.ops id with
  | some o => s.chargeShared o.ctx (s.grp o.gid).facet 16 [(9, 1)] (some (s.inReplay o.team))
  | none => s

/-- A copy's hop over a link, charged to the first of the tags that it carries over it (R375). -/
def State.crossLink (id a b : Nat) (x : State × List (Nat × Nat)) : State × List (Nat × Nat) :=
  if x.2.contains (a, b) then x else (x.1.hop id, (a, b) :: x.2)

/-- A tag's answer on its way from router `n` down the places left of its request's route, at most two hops; the links that copies of
this split have crossed stand beside the state (R374, R375). -/
def State.descend (n : Nat) (t : Nat × Nat) (val : LineAns) (route : List Nat) (x : State × List (Nat × Nat)) : State × List (Nat × Nat) :=
  match route.getLast? with
  | none => (x.1.takeLine t val, x.2)
  | some m =>
    let y := State.crossLink t.1 n m x
    if y.1.merges.any (fun e => e.place == m && e.opens t) then (y.1.answerAt m t val 8, y.2)
    else match route.dropLast.getLast? with
      | none => (y.1.takeLine t val, y.2)
      | some k =>
        let z := State.crossLink t.1 m k y
        (z.1.answerAt k t val 16, z.2)

/-- The slice's answer to a line request: of a request that it does not perform what the line records, so that it fails, and with it the
tags that share its fault (R374, R418, R470). -/
def State.lineAns (s : State) (o : MemOp) (r : LaneReq) : LineAns :=
  let line := lineOf r.key
  if s.barred o r then
    { val := Memory.readN s.mem (64 * line) 64, slot := (match SMap.find s.l2 line with | some l => l.slot | none => r.slot), bad := s.isBad line }
  else { val := Memory.readN (s.useLine o r false).mem (64 * line) 64, slot := r.slot, bad := s.isBad line }

/-- The service of a line request of a merging LDMC: its answer, be it a fault, leaves in the next router cycle for every requester, over the
hops that it crosses (R131, R373 to R375). -/
def State.serveMerging (id : Nat) (o : MemOp) (r : LaneReq) (k : Nat) (s : State) : State :=
  let t := (id, r.lane)
  let ans := s.lineAns o r
  let s1 := if s.barred o r then s else (s.cost id r.lane [(if s.absent r.key then 10 else 8, 1)]).useLine o r false
  let s2 := if ans.bad then s1.logError r.key k 3 (s.opPart o) o.errCtx else s1
  if s2.merges.any (fun m => m.place == 128 + k && m.opens t) then s2.answerAt (128 + k) t ans 1
  else (State.descend (routerOf k) t ans (s2.mergeRoute o k) (s2, [])).1

/-- SLICE_ACCESS_SERVICE. -/
def execSliceAccessService (op lane : Nat) (s : State) : Host.Outcome State Fault Refusal :=
  match SMap.find s.ops op with
  | none => evStep false false id s
  | some o =>
    match o.lane lane with
    | none => evStep false false id s
    | some r =>
      if r.st != .cleared then evStep false false id s
      else
        let serve := match o.kind, r.home with
          | .ldmc true, .slice k => State.serveMerging op o r k
          | _, _ => State.serveAccess op o r
        (s.pass op o r o.kind.writes (s.fillsOf o r) (.sliceAccessService op lane)).run serve s

/-! ### Merged reads (R131, R373 to R375, R383) -/

/-- The entries of a table. -/
def State.mergeTable (s : State) (place : Nat) : List MergeEntry := s.merges.filter (fun m => m.place == place)

/-- A request joins the open entry of its line and network, or opens one where a table has room, or passes (R373). -/
inductive Merge where
  | joined (s : State)
  | passes (s : State)

/-- An entry is open until its response leaves (R373). -/
def State.mergeAt (s : State) (place room net : Nat) (t : Nat × Nat) (line : Nat) : Merge :=
  match (s.mergeTable place).find? (fun m => m.line == line && m.net == net) with
  | some m =>
    if Nat.blt m.tags.length 32 then
      .joined { s with merges := s.merges.map (fun x => if x.id = m.id then { x with tags := x.tags ++ [t] } else x) }
    else .passes s
  | none =>
    if Nat.blt (s.mergeTable place).length room then
      let m : MergeEntry := { id := s.ticket, place := place, line := line, net := net, tags := [t], val := none }
      .passes { s with merges := s.merges ++ [m] }.tick
    else .passes s

/-- MERGE_REQUEST_PASS: at the next router of its route, or at the slice. A request that joins has its answer from the one it joins, and
waits for no earlier access; one that is served in the end waits then (R115, R131). -/
def execMergeRequestPass (op lane : Nat) (s : State) : Host.Outcome State Fault Refusal :=
  match SMap.find s.ops op with
  | none => evStep false false id s
  | some o =>
    match o.lane lane with
    | none => evStep false false id s
    | some r =>
      match r.st, r.home with
      | .cleared, .slice k =>
        let route := s.mergeRoute o k
        let net := (s.team o.team).part
        let wait := fun (s : State) => (o.mates r).foldl (fun s q => s.modLane op q.lane (fun r => { r with place := 255 })) s
        evStep (r.place != 255) (Nat.ble r.since (s.cycle .uncore)) (fun s =>
          match route[r.place]? with
          | some n =>
            (match s.mergeAt n 16 net (op, lane) (lineOf r.key) with
             | .joined t => wait t
             | .passes t =>
               let c := s.cycle .uncore + 8
               ((t.modLane op lane (fun r => { r with place := r.place + 1, since := c })).hop op).postAt .uncore c
                 (.mergeRequestPass op lane))
          | none =>
            (match s.mergeAt (128 + k) 64 net (op, lane) (lineOf r.key) with
             | .joined t => wait t
             | .passes t => t.post 0 (.sliceAccessService op lane))) s
      | _, _ => evStep false false id s

/-- The places that a tag's answer still has to pass below a place. -/
def State.below (s : State) (place : Nat) (t : Nat × Nat) : List Nat :=
  match SMap.find s.ops t.1 with
  | some o =>
    let full := match (o.lane t.2).map (fun r => r.home) with | some (.slice k) => s.mergeRoute o k | _ => []
    if Nat.ble 128 place then full else full.takeWhile (fun n => n != place)
  | none => []

/-- MERGED_RESPONSE_SPLIT: the closing entry's answer goes on to every requester it holds, one copy to a port (R374, R375). -/
def execMergedResponseSplit (id : Nat) (s : State) : Host.Outcome State Fault Refusal :=
  match s.merges.find? (fun m => m.id == id && m.val.isSome) with
  | none => evStep false false (fun s => s) s
  | some m =>
    evStep true true (fun s =>
      let s1 := { s with merges := s.merges.filter (fun x => x.id != id) }
      let n := if Nat.ble 128 m.place then routerOf (m.place - 128) else m.place
      (m.tags.foldl (fun x t => match m.val with | some v => State.descend n t v (s.below m.place t) x | none => x) (s1, [])).1) s

end Sys2Proof.Machine
end

