-- ==== Sys2Proof/Machine/Homes.lean ====
section
/-! DEFINITION. The units at the homes of addresses: atomics, line locks, pool words and their reflectors, condition monitors, and
the accesses of peers and of the host (R101, R102, R113, R114, R125, R132 to R135, R263 to R277, R370, R371, R376, R377,
R384). -/

namespace Sys2Proof.Machine

/-! ### Atomics (R101, R102, R263 to R267) -/

/-- The new word of an ATOM from the old word, the operand and the comparand (R264). -/
def atomNew (o : AtomOp) (m v c : Word) : Word :=
  match o with
  | .add => m + v
  | .sub => m - v
  | .and => m &&& v
  | .or => m ||| v
  | .xor => m ^^^ v
  | .mins => minS m v
  | .maxs => maxS m v
  | .minz => minZ m v
  | .maxz => maxZ m v
  | .exch => v
  | .cas => if m = c then v else m

/-- The new word of an FATOM (R265). -/
def fatomNew (o : FAtomOp) (m v : Word) : Word :=
  match o with
  | .add => add32 m v
  | .min => BitVec.ofNat 32 (fminmax false .fp32 m.toNat v.toNat)
  | .max => BitVec.ofNat 32 (fminmax true .fp32 m.toNat v.toNat)

/-- What an atomic does with the bytes at its home: its answer, and the new bytes where it writes (R101, R102, R263). -/
def MemKind.atomic (k : MemKind) (old : Nat) (r : LaneReq) : DWord × Option Nat :=
  let m : Word := BitVec.ofNat 32 old
  let v : Word := r.data.setWidth 32
  let e : Word := BitVec.ofNat 32 (old / 4294967296)
  match k with
  | .atom o => (BitVec.ofNat 64 m.toNat, some (atomNew o m v r.cmp).toNat)
  | .fatom o => (BitVec.ofNat 64 m.toNat, some (fatomNew o m v).toNat)
  | .cadd =>
    let p := caddPair m e v
    (0, some (p.1.toNat + p.2.toNat * 4294967296))
  | .crd rst => (BitVec.ofNat 64 (crdValue m e).toNat, if rst then some 0 else none)
  | _ => (0, none)

/-- The classes of an atomic at its home; `fill` where HBM4 is read for it (R143, R277). -/
def State.rmwCost (s : State) (o : MemOp) (r : LaneReq) (fill : Bool) : List (Nat × Nat) :=
  match r.home with
  | .scratch _ => [(6, 2)]
  | .cluster _ => [(7, 1)]
  | .slice k => [(9, 2 * s.opHops o r k), (12, 1), (10, fill.toNat)]
  | .host => []
  | .peer _ => []

/-- The classes of a request that its home does not perform: the hops of both messages (R143, R416, R418). -/
def State.denyCost (s : State) (o : MemOp) (r : LaneReq) : List (Nat × Nat) :=
  match r.home with | .slice k => [(9, 2 * s.opHops o r k)] | _ => []

/-- An atomic of one lane, performed as one action at its home; on the L2 it brings the line in, and the copies of peers go first (R125,
R143, R263). -/
def State.serveAtomic (id : Nat) (o : MemOp) (r : LaneReq) (s : State) : State :=
  let line := lineOf r.key
  let s1 := s.cost id r.lane (if s.barred o r then s.denyCost o r else s.rmwCost o r (s.absent r.key))
  if s.barred o r then s1.laneFail id r.lane .access 0
  else if s.isBad line then s1.badRead id o [r]
  else
    let s2 := (s1.useLine o r o.kind.writes).invalidatePeers line
    let a := o.kind.atomic (Memory.readN s2.mem r.key o.kind.bytes) r
    let s3 := match a.2 with
      | some x =>
        let t := s2.writeHome r.key x o.kind.bytes
        (match r.home with | .scratch tm => t.fixBar tm r.key | _ => t)
      | none => s2
    s3.laneDone id r.lane a.1 0

/-! ### Line locks (R275 to R277) -/

/-- The locks of a slice, and those that a virtual function holds there; slice 256 stands for the tables of peers. -/
def State.locksAt (s : State) (k : Nat) : List (Nat × Lock) := s.locks.filter (fun x => x.2.slice == k)

/-- A lock is taken. -/
def State.takeLock (line ctx vf k : Nat) (s : State) : State :=
  { s with locks := SMap.set s.locks line { ctx := ctx, vf := vf, slice := k } }

/-- LKL at its slice: 2 busy, 3 quota or table full, else 1 and the lock is taken (R275, R277, R423). -/
def State.serveLkl (id : Nat) (o : MemOp) (r : LaneReq) (k : Nat) (s : State) : State :=
  let line := lineOf r.key
  let vf := s.opVf o
  if (SMap.find s.locks line).isSome then s.laneDone id r.lane 2 0
  else if Nat.ble (s.aper k vf).lkq ((s.locksAt k).filter (fun x => x.2.vf == vf)).length || Nat.ble 512 (s.locksAt k).length then
    s.laneDone id r.lane 3 0
  else (s.takeLock line o.ctx vf k).laneDone id r.lane 1 0

/-- ULKL: the lock goes where its context holds it, else the lane faults (R276). -/
def State.serveUlkl (id : Nat) (o : MemOp) (r : LaneReq) (s : State) : State :=
  let line := lineOf r.key
  match SMap.find s.locks line with
  | some l =>
    if l.ctx = o.ctx then { s with locks := SMap.erase s.locks line }.laneDone id r.lane 0 0
    else s.laneFail id r.lane .access 2
  | none => s.laneFail id r.lane .access 2

/-- An atomic or a line lock at a peer, which first takes this device's copy of the line; what it answers is free but for the locks that
this device's contexts are known to hold there (R125, R263, R275, R276; log entry 10). -/
def State.peerRmw (id : Nat) (o : MemOp) (r : LaneReq) (s : State) : State :=
  let line := lineOf r.key
  match o.kind with
  | .lkl =>
    let n := peerValue s.ticket 1 % 3 + 1
    if (SMap.find s.locks line).isSome then s.laneDone id r.lane 2 0
    else if n = 1 then ((s.takeLock line o.ctx (s.opVf o) 256).laneDone id r.lane 1 0).tick
    else (s.laneDone id r.lane (BitVec.ofNat 64 n) 0).tick
  | .ulkl => s.serveUlkl id o r
  | .cadd => (s.dropLine line).laneDone id r.lane 0 0
  | _ => ((s.dropLine line).laneDone id r.lane (BitVec.ofNat 64 (peerValue s.ticket 4)) 0).tick

/-- An atomic or a line lock of one lane at its home (R125, R263, R275, R276). A page of the host has no line-lock table: an LKL there is
not performed, and no context holds a lock for a ULKL (DESIGN CHOICE, log entry 47). -/
def State.serveRmw (id : Nat) (o : MemOp) (r : LaneReq) (s : State) : State :=
  (if s.barred o r then (s.cost id r.lane (s.denyCost o r)).laneFail id r.lane .access 0
   else match r.home, o.kind with
   | .peer _, _ => s.toPeer id { o with lanes := [r] } r (s.peerCost o r) (State.peerRmw id o r)
   | .slice k, .lkl => (s.cost id r.lane (s.rmwCost o r false)).serveLkl id o r k
   | .slice _, .ulkl => (s.cost id r.lane (s.rmwCost o r false)).serveUlkl id o r
   | .host, .ulkl => s.serveUlkl id o r
   | _, _ => s.serveAtomic id o r).settle id

/-- The bursts that an atomic's line fills: a lock reads no line. -/
def State.rmwFills (s : State) (o : MemOp) (r : LaneReq) : Nat :=
  match o.kind with
  | .lkl => 0
  | .ulkl => 0
  | _ => (s.absent r.key).toNat

/-- Whether an atomic from the core side has reached the home of one from the fabric in this cycle (R126). -/
def State.coreTie (s : State) (r : LaneReq) : Bool :=
  s.agenda.any (fun x => match x.2 with
    | .homeAtomicService op lane =>
      (match SMap.find s.ops op with
       | some o => (match o.lane lane with
         | some q => o.origin.isNone && q.st == .cleared && q.home == r.home &&
             Nat.ble (x.1.tick + Config.latency x.2 x.1.tick) s.now && !s.orderWaits op o q
         | none => false)
       | none => false)
    | _ => false)

/-- HOME_ATOMIC_SERVICE: an input from the fabric that meets one from the core side waits for the next cycle, at most four times in a row
(R125, R126, R263). -/
def execHomeAtomicService (op lane : Nat) (s : State) : Host.Outcome State Fault Refusal :=
  match SMap.find s.ops op with
  | none => evStep false false id s
  | some o =>
    match o.lane lane with
    | none => evStep false false id s
    | some r =>
      if r.st != .cleared then evStep false false id s
      else if o.origin.isSome && Nat.blt r.place 4 && s.coreTie r then
        evStep true true (fun s => (s.modLane op lane (fun r => { r with place := r.place + 1 })).postAt .uncore (s.cycle .uncore + 1)
          (.homeAtomicService op lane)) s
      else (s.pass op { o with lanes := [r] } r o.kind.writes (s.rmwFills o r) (.homeAtomicService op lane)).run
        (State.serveRmw op o r) s

/-! ### Pool words (R132 to R135, R268 to R271, R376, R377, R384) -/

/-- An object header (R268). -/
structure PoolHeader where
  kind  : Nat
  cap   : Nat
  count : Nat
  base  : Nat

def poolHeader (m : Memory) (key : Nat) : PoolHeader :=
  { kind := Memory.readN m key 1, cap := Memory.readN m (key + 4) 4, count := Memory.readN m (key + 8) 4,
    base := Memory.readN m (key + 16) 8 }

/-- A header that makes every pool word fault (R269). -/
def PoolHeader.bad (h : PoolHeader) : Bool :=
  (h.kind != 1 && h.kind != 2) || Nat.blt h.cap h.count || h.base % 8 != 0

/-- The address of the slot that a pool word reads or writes, none where the object is full or empty. -/
def PoolHeader.slot (h : PoolHeader) (push : Bool) : Option Nat :=
  if push then (if h.count = h.cap then none else some (h.base + 8 * h.count))
  else if h.count = 0 then none else some (h.base + 8 * (h.count - 1))

/-- A live context of a virtual function, whose tables translate for it (R268, R370; log entry 10). -/
def State.ctxOfVf (s : State) (p v : Nat) : Option Nat :=
  (s.ctxs.find? (fun x => x.2.part == p && x.2.live && x.2.crec.vf == v)).map Prod.fst

/-- The tables under which an operation's slot addresses are translated: its team's, or for a peer's those of the virtual function that
exported the object (R268). -/
def State.slotTables (s : State) (o : MemOp) : CtxRec :=
  match o.origin with
  | some x => (match s.ctxOfVf x.part x.vf with | some c => (s.ctx c).crec | none => CtxRec.zero)
  | none => (s.team o.team).crec

/-- The cluster whose TLBs serve an operation: its team's, or for a peer's the first of the partition's home facet (R411; DESIGN CHOICE, log
entry 7). -/
def State.tlbCluster (s : State) (o : MemOp) : Nat := match o.origin with | some x => 8 * (s.part x.part).home | none => (s.team o.team).cluster

/-- Where a pool word's slot lies: it needs R and W as its header does (R410). -/
def State.slotAt (s : State) (o : MemOp) (va : Nat) : XRes := s.mapVa (s.tlbCluster o) (s.opPart o) (s.slotTables o) va .rmw

/-- The slot that a pool word at its home reads or writes: its key, where the header has one and it can be reached. -/
def State.slotKey (s : State) (o : MemOp) (r : LaneReq) : Option Nat :=
  let h := poolHeader (s.takeBack (lineOf r.key)).mem r.key
  if h.bad then none
  else match h.slot (o.kind == .qpush) with
  | some va => (match s.slotAt o va with | .ok key _ _ _ _ _ => some key | _ => none)
  | none => none

/-- A pool word at the home slice's atomic unit: the header's line, then that of its slot, and only what is written becomes dirty (R134,
R143, R144, R269). -/
def State.servePool (id : Nat) (o : MemOp) (r : LaneReq) (s : State) : State :=
  let push := o.kind == .qpush
  let s0 := s.cost id r.lane (if s.barred o r then s.denyCost o r else s.rmwCost o r (s.absent r.key))
  if s.barred o r then s0.laneFail id r.lane .access 0
  else if s.isBad (lineOf r.key) then s0.badRead id o [r]
  else
    let s1 := (s0.useLine o r false).invalidatePeers (lineOf r.key)
    let h := poolHeader s1.mem r.key
    if h.bad then s1.laneFail id r.lane .poolObject 0
    else match h.slot push with
    | none => s1.laneDone id r.lane 0 3
    | some va =>
      match s1.slotAt o va with
      | .fault c k => s1.laneFail id r.lane c k
      | .ok key _ slot _ _ _ =>
        let q : LaneReq := { r with key := key, slot := slot }
        if s1.slotClash q then s1.laneFail id r.lane .access 0
        else
          let s2 := s1.cost id r.lane (if s1.absent key then [(10, 1)] else [])
          if !push && s2.isBad (lineOf key) then s2.badRead id o [q]
          else
            let s3 := (s2.useLine o q push).useLine o r true
            let got := if push then 0 else Memory.readN s3.mem key 8
            let count := if push then h.count + 1 else h.count - 1
            (s3.writeAll ((if push then [(key, r.data.toNat, 8)] else []) ++ [(r.key + 8, count, 4)])).laneDone id r.lane
              (BitVec.ofNat 64 got) 1

/-- A windowed pool word at its owner: it is performed, refused as full or empty, reflected in a switch or at a router of the owner's,
or fails there. A reflected one is charged class 13 and its own hops (R133, R145, R269, R271; log entry 10). -/
def State.peerPool (id : Nat) (o : MemOp) (r : LaneReq) (s : State) : State :=
  let n := peerValue s.ticket 1 % 8
  let own := s.portHops o r
  s.toPeer id { o with lanes := [r] } r (if n = 2 || n = 3 then [(9, own), (11, 2), (13, 1)] else s.peerCost o r) (fun s =>
    let v := if n = 1 || o.kind == .qpush then 0 else peerValue (s.ticket + 1) 8
    let done := fun (st : Nat) => (s.laneDone id r.lane (BitVec.ofNat 64 v) (BitVec.ofNat 32 st)).tick.tick
    match n with
    | 0 => done 1
    | 1 => done 3
    | 2 => done 6
    | 3 => done (2 + 256 * (peerValue (s.ticket + 2) 1 % 128))
    | 4 => s.laneFail id r.lane .poolObject 0
    | 5 => s.laneFail id r.lane .translation 0
    | 6 => s.laneFail id r.lane .access 0
    | _ => s.laneFail id r.lane .dataError 0)

/-- What lets a pool word act at its home: its group's order, the captures of the pages that it writes and the apertures of its header's
and its slot's lines (R158, R159, R448). -/
def State.passPool (s : State) (id : Nat) (o : MemOp) (r : LaneReq) : Pass :=
  let ev : Ev := .poolWordAtHome id r.lane
  let slot := s.slotKey o r
  let gate := match slot with
    | some key => if (o.kind == MemKind.qpush : Bool) then s.passGate (s.opReplay o) o.actor key ev else .go s
    | none => .go s
  match gate with
  | .go s1 =>
    (match s1.passGate (s.opReplay o) o.actor r.key ev with
     | .go s2 =>
       let more := match slot with
         | some key => if s2.absent key && lineOf key != lineOf r.key then [(768 + sliceOf key, 1)] else []
         | none => []
       s2.drawUnits (s.opVf o) id r.lane (s2.unitsAt r (s2.absent r.key).toNat false ++ more) ev
     | x => x)
  | x => x

/-- The routers whose reflectors a pool word passes on this device: from its cluster, or from the port by which a peer's comes, to its home
slice, or to the port of its address (R376, R422; log entry 10). -/
def State.poolRoute (s : State) (o : MemOp) (r : LaneReq) : List Nat :=
  let from' := match o.origin with | some _ => s.portOf r.addr | none => (s.team o.team).cluster
  match r.home with
  | .slice k => routeOf (s.opPart o) from' (routerOf k)
  | .peer _ => routeOf (s.opPart o) from' (s.portOf r.addr)
  | _ => [from']

/-- Whether a pool word of an earlier router cycle for the same header is still to act at a home (R384). -/
def State.poolBehind (s : State) (op lane : Nat) (r : LaneReq) : Bool :=
  s.ops.any (fun x => x.2.kind.isPool && x.2.lanes.any (fun q =>
    (x.1 != op || q.lane != lane) && q.st == .moving && q.home == r.home && q.key == r.key && Nat.ble (s.poolRoute x.2 q).length q.place &&
      Nat.blt q.since r.since))

/-- POOL_WORD_AT_HOME: words for one header act in the order of their cycles (R134, R269, R384). A windowed one writes outside its device, which
a replay marks (R449). -/
def execPoolWordAtHome (op lane : Nat) (s : State) : Host.Outcome State Fault Refusal :=
  match SMap.find s.ops op with
  | none => evStep false false id s
  | some o =>
    match o.lane lane with
    | none => evStep false false id s
    | some r =>
      if r.st != .moving then evStep false false id s
      else match r.home with
      | .peer _ =>
        (match s.passGate (s.opReplay o) o.actor r.key (.poolWordAtHome op lane) with
         | .go s1 => s1.drawUnits (s.opVf o) op lane (s1.unitsAt r 0 false) (.poolWordAtHome op lane)
         | x => x).run (fun s => (s.peerPool op o r).settle op) s
      | _ => (if s.poolBehind op lane r then .stay else s.passPool op o r).run (fun s => (s.servePool op o r).settle op) s

/-- The router cycles of a hop of a pool word that is held (R376, R384). -/
def holdCycles (pol : Word) : Nat := 8 + 4 * polLinger pol

/-- The header that a held entry is for, its network, and whether it pushes. -/
def State.heldFor (s : State) (e : RefEntry) : Option (Nat × Nat × Bool) :=
  match SMap.find s.ops e.op with
  | some o => (o.lane e.lane).map (fun r => (r.key, s.opPart o, o.kind == .qpush))
  | none => none

/-- The older of two entries: the earlier router cycle, then the lower port, then the lower slot, which is the earlier in the list
(R132). -/
def RefEntry.older (a b : RefEntry) : Bool := Nat.blt a.cyc b.cyc || (a.cyc == b.cyc && Nat.blt a.port b.port)

/-- Whether an entry is still in its window in a router cycle (R376). -/
def RefEntry.holds (e : RefEntry) (cyc : Nat) : Bool := Nat.ble cyc e.until'

/-- The oldest entry of a reflector for a header and network that pushes, or pops. -/
def State.oldest (s : State) (place key net : Nat) (push : Bool) : Option RefEntry :=
  match s.refl.filter (fun e => e.place == place && e.holds (s.cycle .uncore) && s.heldFor e == some (key, net, push)) with
  | [] => none
  | x :: r => some (r.foldl (fun b e => if e.older b then e else b) x)

/-- The classes of a party of a pair: class 13 and the hops that its message took (R145). -/
def pairCost (r : LaneReq) : List (Nat × Nat) := [(9, r.place), (13, 1)]

/-- A party of a pair is answered. -/
def State.reflected (e : RefEntry) (val : DWord) (st : Word) (s : State) : State :=
  match (SMap.find s.ops e.op).bind (fun o => o.lane e.lane) with
  | some r => (s.cost e.op e.lane (pairCost r)).laneDone e.op e.lane val st
  | none => s

/-- The invalidations that a reflected pair waits for: where one of its words is of system scope, or a peer's, those of the push's group that are
earlier than the push must be acknowledged before the pop's answer is taken (R120, R122, R135). -/
def State.pairOwes (s : State) (a b : RefEntry) : List Nat :=
  let wide := fun (e : RefEntry) => match SMap.find s.ops e.op with | some o => o.origin.isSome || polScope o.pol == 3 | none => false
  match SMap.find s.ops a.op with
  | some o => if wide a || wide b then (s.invals.filter (fun x => Nat.blt x.1 a.op && x.2 == o.gid)).map Prod.fst else []
  | none => []

/-- A pair formed in router `n`: the pop takes the push's value, both the status of the reflector (R133, R135, R271, R377). -/
def State.pair (n : Nat) (a b : RefEntry) (s : State) : State :=
  let val := match SMap.find s.ops a.op with | some o => ((o.lane a.lane).map (fun r => r.data)).getD 0 | none => 0
  let st := BitVec.ofNat 32 (2 + 256 * n)
  let s1 := { s with refl := s.refl.filter (fun e => e != a && e != b) }.modOp b.op (fun o => { o with behind := o.behind ++ s.pairOwes a b })
  (((s1.reflected a 0 st).reflected b val st).settle a.op).settle b.op

/-- Whatever may pair in a router pairs, the oldest push with the oldest pop, as often as both are held (R132, R377). -/
def State.pairAll (n key net : Nat) : Nat → State → State
  | 0, s => s
  | k + 1, s =>
    match s.oldest n key net true, s.oldest n key net false with
    | some a, some b => State.pairAll n key net k (s.pair n a b)
    | _, _ => s

/-- A pool word comes to a router of its route: it is held in the slot set of its input port, and whatever may pair in this cycle does once
every word of the cycle has come; with the set full it passes unheld (R270, R376, R377). -/
def State.enterWindow (op lane : Nat) (o : MemOp) (r : LaneReq) (s : State) : State :=
  let route := s.poolRoute o r
  match route[r.place]? with
  | none => s
  | some n =>
    let c := s.cycle .uncore
    let port := if r.place = 0 then (if o.origin.isSome then 129 else 0) else (route[r.place - 1]?.getD 0) + 1
    let room := Nat.blt (s.refl.filter (fun e => e.place == n && e.port == port && e.holds c)).length 16
    let go := c + (if room then holdCycles o.pol else 8)
    let s1 := (s.modLane op lane (fun r => { r with st := .moving, since := go })).postAt .uncore go (.reflectorForward op lane)
    if room then
      let e : RefEntry := { place := n, port := port, op := op, lane := lane, cyc := c, until' := go - 1 }
      { s1 with refl := s1.refl ++ [e] }.post 0 (.reflectorForward op lane)
    else s1

/-- REFLECTOR_ENTRY: a cleared word whose group's order lets it go sets out, and comes to the first router of its route in the next router
cycle (R270, R376). -/
def execReflectorEntry (op lane : Nat) (s : State) : Host.Outcome State Fault Refusal :=
  match SMap.find s.ops op with
  | none => evStep false false id s
  | some o =>
    match o.lane lane with
    | none => evStep false false id s
    | some r =>
      if r.st == .cleared then
        evStep true (!s.orderWaits op o r) (fun s =>
          (s.modLane op lane (fun r => { r with st := .moving, since := s.cycle .uncore + 1 })).postAt .uncore (s.cycle .uncore + 1)
            (.reflectorEntry op lane)) s
      else
        evStep (r.st == .moving && Nat.blt r.place (s.poolRoute o r).length && !s.refl.any (fun e => e.op == op && e.lane == lane))
          (Nat.ble r.since (s.cycle .uncore)) (State.enterWindow op lane o r) s

/-- A pool word leaves its window: it comes to the next router, or to its home, in the same cycle (R384). -/
def State.forward (op lane : Nat) (o : MemOp) (r : LaneReq) (s : State) : State :=
  let q := { r with place := r.place + 1 }
  let s1 := { s with refl := s.refl.filter (fun e => !(e.op == op && e.lane == lane)) }.modLane op lane (fun _ => q)
  if Nat.ble (s.poolRoute o r).length q.place then s1.postAt .uncore (s.cycle .uncore) (.poolWordAtHome op lane)
  else s1.enterWindow op lane o q

/-- REFLECTOR_FORWARD: in the cycle in which its hold is over the word goes on; before that what may pair beside it pairs (R376, R377,
R384). -/
def execReflectorForward (op lane : Nat) (s : State) : Host.Outcome State Fault Refusal :=
  match SMap.find s.ops op with
  | none => evStep false false id s
  | some o =>
    match o.lane lane with
    | none => evStep false false id s
    | some r =>
      let route := s.poolRoute o r
      evStep (r.st == .moving && Nat.blt r.place route.length) true (fun s =>
        if Nat.ble r.since (s.cycle .uncore) then s.forward op lane o r
        else State.pairAll (route[r.place]?.getD 0) r.key (s.opPart o) s.refl.length s) s

/-! ### Condition monitors (R272 to R274) -/

/-- The slice that serves a key of device memory or chip scratchpad (R368, R406). -/
def sliceOfKey (key : Nat) : Nat :=
  if isHbm key then sliceOf key else (key - chipKey 0) / 16777216 * 16 + key / 4096 % 16

/-- The relation that a WAITC awaits. -/
def MemOp.holdsFor (o : MemOp) (r : LaneReq) (x : Nat) : Bool :=
  match o.kind with | .waitc cc => intCond cc (BitVec.ofNat 32 x) r.cmp | _ => false

/-- A test that has failed without an entry: it is charged as its answer comes, and the core repeats it 512 router cycles later
(R274). -/
def State.pollLater (id : Nat) (o : MemOp) (r : LaneReq) (cost : List (Nat × Nat)) (s : State) : State :=
  (s.paySvc o cost).postAt .uncore (s.cycle .uncore + 512) (.waitcPoll id r.lane)

/-- A test at an owner: the value that it finds is the owner's; where it does not satisfy, the owner registers an entry and answers once a
value does, or has no entry to give (R273, R274; log entry 10). -/
def State.testPeer (id : Nat) (o : MemOp) (r : LaneReq) (s : State) : State :=
  let x := peerValue s.ticket 4
  if o.holdsFor r x then (s.laneDone id r.lane (BitVec.ofNat 64 x) 0).tick
  else if peerValue (s.ticket + 1) 1 % 2 = 0 then
    ((s.modLane id r.lane (fun q => { q with st := .waiting })).post 0 (.conditionMonitorTest id r.lane)).tick.tick
  else
    ((s.modLane id r.lane (fun q => { q with cost := r.cost })).pollLater id o r (s.peerCost o r)).tick.tick

/-- A test: the lane is answered, or an entry is registered, or the core polls (R273, R274). A page of the host has no monitors, so that the
core polls it (DESIGN CHOICE, log entry 47). -/
def State.testCond (id : Nat) (o : MemOp) (r : LaneReq) (s : State) : State :=
  let s0 := s.cost id r.lane (if s.barred o r then s.denyCost o r else s.lineCost { o with lanes := [r] } r (s.absent r.key))
  if s.barred o r then (s0.laneFail id r.lane .access 0).settle id
  else if s.isBad (lineOf r.key) then (s0.badRead id o [r]).settle id
  else
    match r.home with
    | .peer _ => (s.toPeer id { o with lanes := [r] } r (s.peerCost o r) (State.testPeer id o r)).settle id
    | h =>
      let s1 := s0.useLine o r false
      let x := Memory.readN s1.mem r.key 4
      if o.holdsFor r x then (s1.laneDone id r.lane (BitVec.ofNat 64 x) 0).settle id
      else
        let poll := (s.useLine o r false).pollLater id o r (s.lineCost { o with lanes := [r] } r (s.absent r.key))
        match h with
        | .slice k =>
          let here := s1.mons.filter (fun m => sliceOfKey m.key == k)
          if Nat.blt here.length 4096 then { s1 with mons := s1.mons ++ [{ key := r.key, op := id, lane := r.lane, queue := none }] }
          else poll
        | _ => poll

/-- CONDITION_MONITOR_TEST (R272, R273). An entry at an owner answers with a later value. -/
def execConditionMonitorTest (op lane : Nat) (s : State) : Host.Outcome State Fault Refusal :=
  match SMap.find s.ops op with
  | none => evStep false false id s
  | some o =>
    match o.lane lane with
    | none => evStep false false id s
    | some r =>
      if r.st == .waiting then
        evStep true true (fun s =>
          let x := peerValue s.ticket 4
          if o.holdsFor r x then ((s.laneDone op lane (BitVec.ofNat 64 x) 0).settle op).tick
          else (s.post 0 (.conditionMonitorTest op lane)).tick) s
      else if r.st != .cleared || s.mons.any (fun m => m.queue.isNone && m.op == op && m.lane == lane) then evStep false false id s
      else (s.pass op { o with lanes := [r] } r false (s.absent r.key).toNat (.conditionMonitorTest op lane)).run
        (State.testCond op o r) s

/-- WAITC_POLL: the core repeats the test (R274). -/
def execWaitcPoll (op lane : Nat) (s : State) : Host.Outcome State Fault Refusal :=
  let open' := match SMap.find s.ops op with
    | some o => (match o.lane lane with | some r => r.st == .cleared | none => false)
    | none => false
  evStep (open' && !s.mons.any (fun m => m.queue.isNone && m.op == op && m.lane == lane)) true
    (fun s => s.post 0 (.conditionMonitorTest op lane)) s

/-! ### Peers and the host (R113, R370 to R372) -/

/-- What a peer's kind of access asks of an export entry (R370). -/
def MemKind.grantedBy (k : MemKind) (e : Export) : Bool :=
  match k with
  | .ld _ _ => e.rd
  | .waitc _ => e.rd
  | .st _ => e.wr
  | .own => e.wr
  | _ => e.at'

/-- The bytes of a peer's access: a request to own a line is for all of it. -/
def MemKind.peerBytes (k : MemKind) : Nat := match k with | .own => 64 | k => k.bytes

/-- The kinds and sizes that a peer sends: words' accesses, whole lines, and requests to own a line (R370, R371). -/
def MemKind.fromPeer (k : MemKind) : Bool :=
  match k with
  | .ld n _ => n == 1 || n == 2 || n == 4 || n == 8 || n == 64
  | .st n => n == 1 || n == 2 || n == 4 || n == 8 || n == 64
  | .waitc _ => true
  | .own => true
  | .qpush => true
  | .qpop => true
  | k => k.atUnit

/-- Whether an export entry admits an access (R370). -/
def Export.admits (e : Export) (key addr : Nat) (k : MemKind) : Bool :=
  e.valid && e.key == key && Nat.ble e.lo addr && Nat.ble (addr + k.peerBytes) (e.hi + 1) && k.grantedBy e

/-- The virtual function of a partition whose export table admits an access, and one whose table knows the key at all (R370). -/
def State.exporter (s : State) (p key addr : Nat) (k : MemKind) : Option Nat :=
  ((List.range 64).filter (fun v => (s.part p).vfs.testBit v)).find? (fun v =>
    (SMap.getD s.exports v []).any (fun e => e.admits key addr k))
def State.keyOwner (s : State) (p key : Nat) : Option Nat :=
  ((List.range 64).filter (fun v => (s.part p).vfs.testBit v)).find? (fun v =>
    (SMap.getD s.exports v []).any (fun e => e.valid && e.key == key))

/-- A peer has presented a key of a virtual function: the entries of its lines remember the peer (R371). -/
def DirEntry.noticed (peer vf : Nat) (d : DirEntry) : DirEntry :=
  if d.vf = vf && !d.seen.contains peer then { d with seen := d.seen ++ [peer] } else d
def State.presented (peer vf : Nat) (s : State) : State := { s with dir := s.dir.map (fun x => (x.1, x.2.noticed peer vf)) }

/-- The lanes of a peer's access: one, or eight of 8 bytes for a whole line. -/
def peerLanes (addr : DWord) (key : Nat) (home : Home) (slot : Option Nat) (data : Nat) (cmp : Word) (n : Nat) : List LaneReq :=
  (List.range n).map (fun i =>
    { lane := i, addr := addr, data := BitVec.ofNat 64 (data / 2 ^ (64 * i)), cmp := cmp, st := .cleared, key := key + 8 * i,
      home := home, slot := slot, res := 0, stat := 0, place := 0, since := 0, cost := [], paid := false })

/-- The kind with which a line's bytes are moved. -/
def MemKind.byEight : MemKind → MemKind
  | .ld 64 _ => .ld 8 false
  | .st 64 => .st 8
  | k => k

/-- A peer's access as an operation of no group at this device's homes. Its message carries no eviction class: its line takes that of a policy
operand of zeros, stream (R111, R132, R370, R371; DESIGN CHOICE, log entry 10). -/
def peerOp (id : Nat) (x : Origin) (who : Nat) (k : MemKind) (linger : Nat) (lanes : List LaneReq) : MemOp :=
  { gid := id, path := [], origin := some x, team := id, ctx := peerCtx x.vf x.peer who, kind := k.byEight, unif := true, dst := [],
    stat := none, mask := 1, pol := BitVec.ofNat 32 (linger % 64), pos := { pa := 0, w := 0 }, start := { pa := 0, w := 0 }, next := { pa := 0, w := 0 },
    lanes := lanes, cleared := true, undo := [], fail := none }

/-- PEER_ACCESS: a peer's key is checked against the exports of the partition on its network; an access that they allow and that its
tables translate goes to its home, any other is rejected without effect (R370, R371). -/
def execPeerAccess (peer net key : Nat) (addr : DWord) (who : Nat) (kind : MemKind) (word : PeerWord) (s : State) :
    Host.Outcome State Fault Refusal :=
  let knows := fun (s : State) => match s.keyOwner net key with | some v => s.presented peer v | none => s
  let whole := kind.peerBytes == 64 && !kind.isPool
  if !kind.fromPeer || addr.toNat % kind.peerBytes != 0 then evStep false false id s
  else match s.exporter net key addr.toNat kind with
  | none => evStep true true knows s
  | some v =>
    match s.ctxOfVf net v with
    | none => evStep true true knows s
    | some c =>
      match s.mapVa (8 * (s.part net).home) net (s.ctx c).crec addr.toNat (if kind = .own then .store else kind.acc) with
      | .ok k home slot _ _ _ =>
        evStep true true (fun s =>
          let id := s.ticket
          let n := if whole && kind != .own then 8 else 1
          let o := peerOp id { peer := peer, part := net, vf := v } who kind word.linger (peerLanes addr k home slot word.data word.cmp n)
          ({ knows s with ops := SMap.set s.ops id o }.tick).post 0 (o.kind.service home id 0)) s
      | .fault _ _ => evStep true true knows s

/-- Bytes that the host writes to one line, at its home: a line that is only written in part is read first (R113, R371). -/
def State.hostLine (line key : Nat) (data : List Nat) (s : State) : State :=
  let here := ((List.range data.length).zip data).filter (fun x => (key + x.1) / 64 == line)
  let s1 := if isHbm (64 * line) && s.absent (64 * line) then s.fillLine line none else s
  (s1.takeBack line).writeAll (here.map (fun x => (key + x.1, x.2 % 256, 1)))
def State.hostWrite (key : Nat) (data : List Nat) (s : State) : State :=
  (linesOf key data.length).foldl (fun s l => s.hostLine l key data) s

/-- HOST_ACCESS: the host reads or writes its own memory or device memory through the host interface (R113, R414). A write that
meets a page being copied waits; one to a captured page makes the replay unsafe (R448, R449). -/
def execHostAccess (write host : Bool) (addr : Nat) (data : List Nat) (s : State) : Host.Outcome State Fault Refusal :=
  let pages := ((List.range data.length).map (fun i => (addr + i) / 65536)).eraseDups
  let inside := host || (paOk addr && paOk (addr + data.length - 1))
  let ready := host || pages.all (fun g => !s.pageBusy g)
  if !write then
    evStep inside true (fun s => if host then s else (linesOf addr (max 1 data.length)).foldl (fun s l => s.takeBack l) s) s
  else evStep inside ready (fun s =>
    let whole := (linesOf addr data.length).filter (fun l => Nat.ble addr (64 * l) && Nat.ble (64 * l + 64) (addr + data.length))
    if host then s.hostWrite (hostKey + addr) data
    else ((pages.foldl (fun s g => s.foreignWrite none g) (whole.foldl (fun s l => s.clearBad l) s))).hostWrite addr data) s

/-- PEER_INVALIDATION: this device's copy of a peer's line is dropped; a line it has modified is written back to its owner
first (R371). -/
def execPeerInvalidation (line : Nat) (s : State) : Host.Outcome State Fault Refusal :=
  evStep (match SMap.find s.l2 line with | some l => l.whose != .home | none => false) true (State.dropLine line) s

end Sys2Proof.Machine
end

