-- ==== Sys2Proof/Machine/Units.lean ====
section
/-! DEFINITION. The exchange unit, the end of barrier phases, and the copy engine at work (R129, R130, R286 to R305, R380). -/

namespace Sys2Proof.Machine

/-! ### The exchange unit (R286 to R290) -/

/-- The exchange of a group whose half is on its way or waits. -/
def State.exchangeOf (s : State) (gid : Nat) : Option (Nat × MemOp) :=
  s.ops.find? (fun x => x.2.gid == gid && x.2.kind == .xchg)

/-- The exchange of a group is over: its number advances and another XCHG may issue (R287, R288). -/
def Group.exchanged (g : Group) : Group := { g with xnum := (g.xnum + 1) % 65536, xchg := false }

/-- The hops between a group's cluster and the exchange unit of its pair, in the lower-numbered cluster (R288, R290). -/
def State.exchangeHops (s : State) (gid : Nat) : Nat :=
  let tm := s.team (s.grp gid).team
  hopsOf tm.part tm.cluster (min tm.cluster (s.mateCluster (s.grp gid).team))

/-- The exchange of a group fails: its destination becomes errored (R289, R336). -/
def State.failExchange (gid : Nat) (s : State) : State :=
  let s1 := { s with halves := s.halves.filter (fun h => h.gid != gid) }.modGrp gid Group.exchanged
  match s1.exchangeOf gid with
  | some (id, o) => s1.failOp id (o.faultAt .exchangeTimeout 0 0 none)
  | none => s1

/-- The half that waits for a group's half of a number (R288). -/
def State.halfFor (s : State) (gid num : Nat) : Option Half := s.halves.find? (fun x => x.seat == s.mateSeat gid && x.num == num)

/-- EXCHANGE_HALF_ARRIVAL: the half waits for its partner, meets it, or finds its number dead (R288, R289). -/
def execExchangeHalfArrival (g : Nat) (s : State) : Host.Outcome State Fault Refusal :=
  match s.exchangeOf g with
  | some (_, o) =>
    let num := (s.grp g).xnum
    evStep (!s.halves.any (fun h => h.gid == g)) true (fun s =>
      if s.deadNums.contains (s.seat g, num) then
        { s with deadNums := s.deadNums.filter (fun d => d != (s.seat g, num)) }.failExchange g
      else
        let h : Half := { gid := g, seat := s.seat g, num := num, mask := o.mask, vals := o.lanes.map (fun r => lo32 r.data), tick := 0,
                          since := none }
        let s1 := { s with halves := s.halves ++ [h] }
        match s.halfFor g num with
        | some p => s1.post 0 (.xchgHalvesMeet g p.gid)
        | none => s1.tuneHalves) s
  | none => evStep false false id s

/-- One side of a meeting: the members take the partner's values, or their own where the partner has none (R288). -/
def State.giveHalf (mine other : Half) (s : State) : State :=
  match s.exchangeOf mine.gid with
  | some (id, o) =>
    let val := fun (i : Nat) => if bitOf other.mask i then other.vals.getD i 0 else mine.vals.getD i 0
    let o1 := { o with lanes := (o.lanes.filter (fun r => bitOf mine.mask r.lane)).map (fun r =>
      { r with st := .done, res := (val r.lane).setWidth 64 }) }
    let hops := 2 * s.exchangeHops mine.gid
    let s1 := s.modGrp mine.gid (fun g => (g.deliver o1).exchanged)
    (if hops = 0 then s1 else s1.chargeShared o.ctx (s.grp mine.gid).facet 16 [(9, hops)] (some (s.inReplay o.team))).finishOp id o1
  | none => s

/-- XCHG_HALVES_MEET: both destinations are written in one step (R288). -/
def execXchgHalvesMeet (g h : Nat) (s : State) : Host.Outcome State Fault Refusal :=
  match s.halves.find? (fun x => x.gid == g), s.halves.find? (fun x => x.gid == h) with
  | some a, some b =>
    evStep (a.seat == s.mateSeat h && b.seat == s.mateSeat g && a.num == b.num) true (fun s =>
      ({ s with halves := s.halves.filter (fun x => x.gid != g && x.gid != h) }.giveHalf a b).giveHalf b a) s
  | _, _ => evStep false false id s

/-- EXCHANGE_TIMEOUT: a half that has waited more than XTO counted ticks, its partner's being absent, fails, and its number is dead for its
partner; one whose time is not yet over is looked at again (R289). -/
def execExchangeTimeout (g : Nat) (s : State) : Host.Outcome State Fault Refusal :=
  match s.halves.find? (fun x => x.gid == g) with
  | some h =>
    let tooLate := Nat.blt (s.part (s.team (s.grp g).team).part).xto (h.waited s.now)
    evStep (s.counting g && (s.halfFor g h.num).isNone) true (fun s =>
      if tooLate then { s with deadNums := s.deadNums ++ [(s.mateSeat g, h.num)] }.failExchange g
      else if s.awaits (.exchangeTimeout g) then s else s.watchHalf h) s
  | none => evStep false false id s

/-! ### Barriers (R296, R297) -/

/-- Whether a barrier's phase is complete: every participant has arrived and been performed, and no byte is pending (R296). -/
def State.phaseOver (s : State) (t bar : Nat) : Bool :=
  let x := s.bar t bar
  x.cnt != 0 && x.arr == x.cnt && x.pend == 0 && !(s.team t).barOwed.any (fun b => b.1 == bar)

/-- The word after its phase completes (R296). -/
def Bar.next (x : Bar) : Bar :=
  { x with phase := (x.phase + 1) % 256, arr := 0, cnt := if x.fixed then x.cnt else 0 }

/-- BARRIER_PHASE_COMPLETE: while the team is saved no phase completes (R296, R298). -/
def execBarrierPhaseComplete (t bar : Nat) (s : State) : Host.Outcome State Fault Refusal :=
  evStep ((SMap.find s.teams t).isSome && (s.team t).resident && s.phaseOver t bar) true
    (fun s => (s.setBar t bar (s.bar t bar).next).callReady t) s

/-! ### What an engine does at a place (R130, R143, R145, R300, R305, R335, R371, R380) -/

/-- An engine's access to `n` bytes of one line: of its translation, the page and the address that it translates. -/
structure Touch where
  addr  : DWord
  key   : Nat
  n     : Nat
  home  : Home
  slot  : Option Nat
  wr    : Bool
  page  : Option (Nat × Nat × Bool)
  va    : Nat

/-- Where an engine's access leads, or its fault. -/
def State.enginePlace (s : State) (tid gnum lane : Nat) (a : DWord) (n : Nat) (wr : Bool) : Except (FaultClass × Nat) Touch :=
  let tm := s.team tid
  match s.placeOf tid gnum lane a n (if wr then .store else .load) with
  | .fault c k => .error (c, k)
  | .at' key home slot page =>
    let va := if adSpace a = 4 then laneArea tm tm.crec gnum lane + adOfs a else adOfs a
    .ok { addr := a, key := key, n := n, home := home, slot := slot, wr := wr, page := page, va := va }
  | .peer h key =>
    if !s.mayLeave tm.part (s.vfOf tm.ctx) a then .error (.access, 0)
    else .ok { addr := a, key := key, n := n, home := .peer h, slot := none, wr := wr, page := none, va := 0 }

/-- Whether a line of HBM4 is resident under another key slot than an access's (R418). -/
def State.touchClash (s : State) (t : Touch) : Bool := s.otherSlot t.key t.slot

/-- The fault that an access meets at its line: resident under another key slot, or bad and read (R418, R470). -/
def State.touchFault (s : State) (t : Touch) : Option (FaultClass × Nat) :=
  if s.touchClash t then some (.access, 0)
  else if !t.wr && s.isBad (lineOf t.key) then some (.dataError, if isHbm t.key then 0 else 1)
  else none

/-- Whether a peer's line answers here: any copy a read, one in state M a write (R371). -/
def State.peerHolds (s : State) (t : Touch) : Bool :=
  match SMap.find s.l2 (lineOf t.key) with
  | some l => !t.wr || l.whose == .owned
  | none => false

/-- The bank words that accesses touch (R143). -/
def bankWords (ts : List Touch) : Nat :=
  ((ts.flatMap (fun t => (List.range ((t.key + t.n + 31) / 32 - t.key / 32)).map (t.key / 32 + ·))).eraseDups).length

/-- Whether accesses write every byte of their line (R143). -/
def wholeLine (ts : List Touch) : Bool :=
  match ts with
  | [] => false
  | t :: _ => (List.range 64).all (fun k => ts.any (fun x => x.wr && Nat.ble x.key (64 * lineOf t.key + k) &&
      Nat.blt (64 * lineOf t.key + k) (x.key + x.n)))

/-- The classes of accesses to one line by a team's engine, one service at one unit (R143, R146, R380). -/
def State.sideCost (s : State) (tid : Nat) (ts : List Touch) : List (Nat × Nat) :=
  match ts with
  | [] => []
  | t :: _ => match t.home with
    | .scratch _ => [(6, bankWords ts)]
    | .cluster _ => [(7, 1)]
    | .slice k => (9, 2 * s.hopsTo tid k) :: if s.touchClash t then [] else [(if s.absent t.key && !wholeLine ts then 10 else 8, 1)]
    | .host => []
    | .peer _ => if s.peerHolds t then s.copyCost tid (lineOf t.key)
      else [(9, 2 * hopsOf (s.team tid).part (s.team tid).cluster (s.portOf t.addr)), (11, 2)]

/-- The units of apertures that accesses to one line take (R158, R159). -/
def State.sideUnits (s : State) (ts : List Touch) : List (Nat × Nat) :=
  match ts with
  | [] => []
  | t :: _ => match t.home with
    | .slice k => (k, 1) :: if s.absent t.key && !wholeLine ts then [(768 + k, 1)] else []
    | .peer _ => if s.peerHolds t then [] else match s.planeOf t.addr with | some n => [(512 + n, 1)] | none => []
    | _ => []

/-- The writes of a list of accesses pass their pages' captures in turn (R448). -/
def gateGo (replay writer : Option Nat) (ev : Ev) : List Touch → State → Pass
  | [], s => .go s
  | t :: r, s =>
    if t.wr then
      match s.passGate replay writer t.key ev with
      | .go s1 => gateGo replay writer ev r s1
      | x => x
    else gateGo replay writer ev r s

/-- The lines of one engine word's step pass all that may hold them: captures, then the apertures of walks, slices and ports (R158,
R159, R411, R448). -/
def State.enginePass (s : State) (tid id : Nat) (ev : Ev) (l : List (List Touch)) : Pass :=
  match gateGo (s.replayOf tid) (some (s.team tid).ctx) ev (l.flatMap (fun x => x)) s with
  | .go s1 =>
    let pages := (l.flatMap (fun x => x)).filterMap (fun t => t.page.map (fun p => (t.va, p)))
    s1.drawUnits (s.vfOf (s.team tid).ctx) id 0 (s.walkUnits (s.team tid) pages ++ l.flatMap s.sideUnits) ev
  | x => x

/-- Whether an earlier access of the group that issued an engine word, on whichever of its paths, is still to reach bytes that a step of it
touches; a WAITC of another path orders nothing before it (R130). -/
def State.engineWaits (s : State) (id gid : Nat) (path : List Nat) (ts : List Touch) : Bool :=
  let orders := fun (o : MemOp) => related o.path path || (match o.kind with | .waitc _ => false | _ => true)
  s.ops.any (fun x => Nat.blt x.1 id && x.2.gid == gid && orders x.2 && x.2.kind.isAccess && !x.2.kind.isHint &&
    x.2.lanes.any (fun q => !q.over && ts.any (fun t => Nat.blt q.key (t.key + t.n) && Nat.blt t.key (q.key + x.2.kind.bytes))))

/-- A peer's line is reached: here, or by a request, which finds the port down, or which the peer rejects, or answers. What is written is
then this device's own, unless the peer performs it at the home (R334, R371, R468; log entry 10). -/
def State.reachPeer (c h : Nat) (cls : EvClass) (t : Touch) (s : State) : State × Option (FaultClass × Nat) :=
  let line := lineOf t.key
  if s.peerHolds t then (s.bringPeer line cls (if t.wr then some c else none), none)
  else if !Config.peerAccepts s.ticket then (s.tick.distrust c h, some (.window, 2))
  else
    let s1 := (s.tick.flitSent t.addr).verify c h
    if !t.wr then (s1.bringPeer line cls none, none)
    else if peerValue s1.ticket 1 % 2 = 0 then (s1.tick.bringPeer line cls (some c), none)
    else (s1.tick.dropLine line, none)

/-- A line is reached by a team's engine: the service is charged, and the line brought in, or there is a fault (R143, R305, R335). -/
def State.reachSide (tid : Nat) (pol : Word) (ts : List Touch) (s : State) : State × Option (FaultClass × Nat) :=
  match ts with
  | [] => (s, none)
  | t :: _ =>
    let tm := s.team tid
    let cls := evClassOf pol t.addr
    let paid := s.payOwn tm.ctx (tm.cluster / 8) (s.sideCost tid ts) (some (s.inReplay tid))
    match t.home with
    | .peer h => if !s.peerHolds t && (s.planeOf t.addr).isNone then (s, some (.dataError, 2)) else paid.reachPeer tm.ctx h cls t
    | _ =>
      let s1 := ts.foldl (fun s x => match x.page with | some p => s.walked tid x.va p | none => s) paid
      match s.touchFault t with
      | some f => (s1, some f)
      | none => ((if wholeLine ts then s1.clearBad (lineOf t.key) else s1).bringLine tm.ctx t.key cls t.slot t.wr, none)

/-- Writes to a line that has been reached: together, and where the line lies (R114, R291). -/
def State.landSide (t : Touch) (l : List (Nat × Nat × Nat)) (s : State) : State :=
  match t.home with
  | .peer _ => if (SMap.find s.l2 (lineOf t.key)).isSome then s.writeAll l else s
  | .scratch tm => l.foldl (fun s x => s.fixBar tm x.1) (s.writeAll l)
  | _ => s.writeAll l

/-! ### Copies (R295, R300 to R305, R380) -/

/-- The source and destination of one lane's part of a transfer: for lanes of 64 bytes and more one line. -/
def Xfer.ends (x : Xfer) (e : Nat × DWord × DWord) : DWord × DWord :=
  let o := BitVec.ofNat 64 (64 * x.chunk)
  (e.2.1 + o, e.2.2 + o)

/-- The lanes of a transfer with their ends. -/
def Copy.lanesOf (k : Copy) (x : Xfer) : List (Nat × DWord × DWord) := k.ends.filter (fun e => x.lanes.contains e.1)

/-- Whether a 4-byte word of lane `i`'s destination is left to a higher lane's; lane-private memory is each lane's own (R302, R474). -/
def Copy.yields (k : Copy) (i : Nat) (a : DWord) : Bool :=
  !ownAddr a && k.ends.any (fun e => Nat.blt i e.1 && adRegion e.2.2 == adRegion a && Nat.ble (adPlace e.2.2) (adPlace a) &&
    Nat.blt (adPlace a) (adPlace e.2.2 + k.size))

/-- Whether a line of a lane lies past the last offset of its window (R278, R302, R369). -/
def Xfer.passes (x : Xfer) (a : DWord) : Bool := adWin a && Nat.ble (2 ^ 47) (adWofs a + 64 * x.chunk)

/-- The place of a lane's part at `p`, where the lane's own address is `a`; a line past the end of a window's offsets fails its limit step. -/
def State.chunkPlace (s : State) (k : Copy) (x : Xfer) (i n : Nat) (a p : DWord) (wr : Bool) : Except (FaultClass × Nat) Touch :=
  let gnum := (s.grp k.gid).gnum
  if x.passes a then (s.enginePlace k.team gnum i a n wr).bind (fun _ => .error (.window, 1)) else s.enginePlace k.team gnum i p n wr

/-- The places of a transfer: of each lane its source and its destination, or the fault there. -/
def State.xferPlaces (s : State) (k : Copy) (x : Xfer) : List (Nat × DWord × Except (FaultClass × Nat) Touch) :=
  let n := min k.size 64
  (k.lanesOf x).flatMap (fun e =>
    let p := x.ends e
    [(e.1, p.1, s.chunkPlace k x e.1 n e.2.1 p.1 false), (e.1, p.2, s.chunkPlace k x e.1 n e.2.2 p.2 true)])

/-- The first fault of a list of places. -/
def placeFault : List (Nat × DWord × Except (FaultClass × Nat) Touch) → Option (Nat × DWord × FaultClass × Nat)
  | [] => none
  | (i, a, .error (c, k)) :: _ => some (i, a, c, k)
  | (_, _, .ok _) :: r => placeFault r

/-- The accesses of a list of places on one side. -/
def sideOf (wr : Bool) (l : List (Nat × DWord × Except (FaultClass × Nat) Touch)) : List (Nat × Touch) :=
  l.filterMap (fun x => match x.2.2 with | .ok t => if t.wr = wr then some (x.1, t) else none | .error _ => none)

/-- A fault of an engine word in service, deferred (R305, R317, R335). -/
def engineFault (pos : Pos) (i : Nat) (a : DWord) (c : FaultClass) (cause : Nat) : FaultInfo :=
  { cls := c, cause := cause, lane := i, addr := some a, src := pos, cons := false, defer := true, tcode := 0 }

/-- A copy that fails in service ends, its locks go and its group is told (R305); its token stays empty without a mark, for its fault is deferred
(R332, R339) where R62 and R336 would mark the register of a failed producer (DESIGN CHOICE, log entry 47). One that meets a page that may be
resolved halts with its locks, to be made again as a whole (R349). -/
def State.failCopy (id : Nat) (k : Copy) (i : Nat) (a : DWord) (c : FaultClass) (cause : Nat) (s : State) : State :=
  let f := engineFault k.pos i a c cause
  (if pageable f (s.team k.team).crec.pgpol then { s with copies := SMap.set s.copies id { k with halt := true } }
   else { s.unregister k.core id with copies := SMap.erase s.copies id }).post 0 (.deferredFaultReport k.gid f)

/-- The words that a transfer writes, but those that a higher lane writes (R302). -/
def Copy.words (k : Copy) (l : List ((Nat × Touch) × Nat)) : List (Nat × Nat × Nat) :=
  l.flatMap (fun x => (List.range (x.1.2.n / 4)).filterMap (fun w =>
    if k.yields x.1.1 (x.1.2.addr + BitVec.ofNat 64 (4 * w)) then none
    else some (x.1.2.key + 4 * w, x.2 / 256 ^ (4 * w) % 4294967296, 4)))

/-- The bytes of a transfer leave the barrier's count (R295). -/
def State.landed (k : Copy) (n : Nat) (s : State) : State :=
  match k.done with
  | .bar b =>
    let w := s.bar k.team b
    (s.setBar k.team b { w with pend := (w.pend + 16777216 - n % 16777216) % 16777216 }).barCheck k.team b
  | _ => s

/-- The bytes of a transfer land, or do so once the invalidations that its copy owes are acknowledged, where that completes at system
scope (R122, R295, R304). -/
def State.landBytes (id : Nat) (k : Copy) (n : Nat) (s : State) : State × Copy :=
  match k.done with
  | .bar _ => if k.scope == 3 && s.invals.any (fun x => x.1 == id) then (s, { k with late := k.late + n }) else (s.landed k n, k)
  | _ => (s, k)

/-- The invalidations that a copy owed are acknowledged, and the bytes that waited for it land. -/
def State.landLate (id : Nat) (s : State) : State :=
  match SMap.find s.copies id with
  | some k => if k.late = 0 then s else { s with copies := SMap.set s.copies id { k with late := 0 } }.landed k k.late
  | none => s

/-- STORE_ACKNOWLEDGEMENT: a unit's acknowledgement reaches the core, where its service is charged; a failed word without a destination sends its
fault to the core (R120, R143, R337). Where a store or a copy has invalidated copies of peers, their acknowledgements come as well: a store or a
copy of system scope waits for them (R122, R304). -/
def execStoreAcknowledgement (op : Nat) (s : State) : Host.Outcome State Fault Refusal :=
  let owes := fun (s : State) => s.invals.any (fun x => x.1 == op)
  let clear := fun (s : State) => { s with invals := SMap.erase s.invals op }
  match SMap.find s.ops op with
  | some o => evStep true (s.mayAnswer o) (fun s =>
      let s0 := if o.unpaid.isEmpty then clear s else s.answered op o
      match SMap.find s0.ops op with
      | none => s0
      | some o =>
        if !o.whole || (polScope o.pol == 3 && owes s0) then s0
        else
          let s1 := s0.finishOp op o
          match o.fail with
          | some f => s1.post 0 (.deferredFaultReport o.gid { f with defer := true })
          | none => s1) s
  | none => evStep (owes s) true (fun s => (clear s).landLate op) s

/-- A copy has sent its first transfer: its next one follows, or its completion; the coalescer is free in the next cycle (R304, R380). With the
last one its last write is performed, and its range locks go (R128). -/
def State.nextXfer (id : Nat) (k : Copy) (s : State) : State :=
  let rest := k.xfers.drop 1
  let s0 := if rest.isEmpty then s.unregister k.core id else s
  let c := s0.core k.core
  let s1 := s0.setCore k.core { c with xferAt := s0.cycle (s0.clockOf (k.core / 12)) + 1 }
  { s1 with copies := SMap.set s1.copies id { k with xfers := rest } }.post 0
    (if rest.isEmpty then .copyCompletion id else .copyLineTransfer id)

/-- One transfer is made: its source is reached and read, its destination reached and written (R295, R305, R380). -/
def State.doXfer (id : Nat) (k : Copy) (srcs dsts : List (Nat × Touch)) (s : State) : State :=
  let fail := fun (l : List (Nat × Touch)) (c : FaultClass) (cause : Nat) (s : State) =>
    match l with | (i, t) :: _ => s.failCopy id k i t.addr c cause | [] => s
  let x := s.reachSide k.team k.pol (srcs.map Prod.snd)
  match x.2 with
  | some (c, cause) => fail srcs c cause x.1
  | none =>
    let got := srcs.map (fun y => Memory.readN x.1.mem y.2.key y.2.n)
    let y := x.1.reachSide k.team k.pol (dsts.map Prod.snd)
    match y.2 with
    | some (c, cause) => fail dsts c cause y.1
    | none =>
      let s0 := y.1.oweInvals id k.gid (dsts.map (fun d => d.2.key))
      let s1 := match dsts with | (_, t) :: _ => s0.landSide t (k.words (dsts.zip got)) | [] => s0
      let z := s1.landBytes id k (dsts.foldl (fun a d => a + d.2.n) 0)
      z.1.nextXfer id z.2

/-- COPY_LINE_TRANSFER: the core's coalescer sends the next line of a copy, one transfer to a cycle (R380). -/
def execCopyLineTransfer (k : Nat) (s : State) : Host.Outcome State Fault Refusal :=
  match SMap.find s.copies k with
  | none => evStep false false id s
  | some c =>
    match c.xfers with
    | [] => evStep false false id s
    | x :: _ =>
      let clk := s.clockOf (c.core / 12)
      if c.halt then evStep false false id s
      else if Nat.blt (s.cycle clk) (s.core c.core).xferAt then
        evStep true true (fun s => s.postAt clk (s.core c.core).xferAt (.copyLineTransfer k)) s
      else
        let l := s.xferPlaces c x
        match placeFault l with
        | some (i, a, cl, cause) => evStep true true (State.failCopy k c i a cl cause) s
        | none =>
          let srcs := sideOf false l
          let dsts := sideOf true l
          if s.engineWaits k c.gid c.path ((srcs ++ dsts).map Prod.snd) then .next (s.verd .held)
          else (s.enginePass c.team k (.copyLineTransfer k) [srcs.map Prod.snd, dsts.map Prod.snd]).run (State.doXfer k c srcs dsts) s

/-- The increment of a copy's counter: an atomic of its group at the counter's home. It keeps the copy's number, so that it stands among the
group's accesses where the ACP does, and it orders nothing but the copy's writes, which are performed (R125, R130, R304). -/
def Copy.counter (k : Copy) (a : DWord) (key : Nat) (home : Home) (slot : Option Nat) : MemOp :=
  { gid := k.gid, path := k.path, origin := none, team := k.team, ctx := k.ctx, kind := .atom .add, unif := true, dst := [], stat := none,
    mask := 1, pol := 0, pos := k.pos, start := k.pos, next := k.pos, cleared := true, undo := [], fail := none,
    lanes := [{ lane := 0, addr := a, data := 1, cmp := 0, st := .cleared, key := key, home := home, slot := slot, res := 0, stat := 0,
                place := 0, since := 0, cost := [], paid := false }] }

/-- The counter's place, its fault, or its port closed to the context (R304). -/
def State.counterPlace (s : State) (k : Copy) (a : DWord) : Place :=
  match s.placeOf k.team (s.grp k.gid).gnum 0 a 4 .rmw with
  | .peer h key => if s.mayLeave (s.team k.team).part (s.vfOf k.ctx) a then .peer h key else .fault .access 0
  | x => x

/-- The counter's atomic sets out (R304). -/
def State.sendCounter (id : Nat) (k : Copy) (a : DWord) (key : Nat) (home : Home) (slot : Option Nat) (page : Option (Nat × Nat × Bool)) (s : State) :
    State :=
  let s1 := match page with | some p => s.walked k.team (adOfs a) p | none => s
  { s1 with ops := SMap.set s1.ops id (k.counter a key home slot) }.post 0 (.homeAtomicService id 0)

/-- COPY_COMPLETION: the locks have been released, and the completion is published; at system scope once the invalidations that the copy owes are
acknowledged (R122, R304). -/
def execCopyCompletion (k : Nat) (s : State) : Host.Outcome State Fault Refusal :=
  match SMap.find s.copies k with
  | none => evStep false false id s
  | some c =>
    let drop := fun (s : State) => { s.unregister c.core k with copies := SMap.erase s.copies k }
    if !c.xfers.isEmpty || c.halt then evStep false false id s
    else if c.scope == 3 && s.invals.any (fun x => x.1 == k) then .next (s.verd .held)
    else match c.done with
    | .token v m => evStep true true (fun s => (drop s).modGrp c.gid (fun g => g.wrV v .i32 m (fun _ => BitVec.ofNat 32 c.size))) s
    | .bar b => evStep true true (fun s => (drop s).barCheck c.team b) s
    | .ctr a =>
      match s.counterPlace c a with
      | .fault cl cause => evStep true true (State.failCopy k c 0 a cl cause) s
      | .at' key home slot page =>
        let walks := match page with | some p => s.walkUnits (s.team c.team) [(adOfs a, p)] | none => []
        (s.drawUnits (s.vfOf c.ctx) k 0 walks (.copyCompletion k)).run (fun s => (drop s).sendCounter k c a key home slot page) s
      | .peer h key => evStep true true (fun s => (drop s).sendCounter k c a key (.peer h) none none) s

end Sys2Proof.Machine
end

