-- ==== Sys2Proof/Machine/Matrix.lean ====
section
/-! DEFINITION. The matrix unit of a cluster at work: the tile port, the step pipeline, the arithmetic of a step, batches and the
discard after a fault (R59, R71, R97 to R100, R307 to R317, R378, R379). -/

namespace Sys2Proof.Machine

/-! ### Tiles -/

def Tile.zero (t : Tag) : Tile := { cells := [], tag := t }
def Team.tile (t : Team) (n : Nat) : Tile := t.tiles.getD n (Tile.zero .raw)
def Tile.cell (t : Tile) (m c : Nat) : Word := SMap.getD t.cells (128 * m + c) 0

/-- A tile whose cells are a list of words, row by row. -/
def tileOf (tag : Tag) (ws : List Word) : Tile :=
  { cells := ((List.range ws.length).zip ws).filter (fun x => x.2 != 0), tag := tag }

/-- The words of one row. -/
def Tile.row (t : Tile) (m : Nat) : List Word :=
  let here := t.cells.filter (fun x => x.1 / 128 == m)
  (List.range 128).map (fun c => SMap.getD here (128 * m + c) 0)

/-- The elements of words in k order. -/
def elemsOf (e : Nat) (ws : List Word) : List Nat := ws.flatMap (fun w => (List.range e).map (elemOf w e))

/-- The 128 elements of slice `s` of a tile's row (R314). -/
def Tile.slice (t : Tile) (m s : Nat) : List Nat :=
  let e := elems t.tag
  elemsOf e (((t.row m).drop (128 * s / e)).take (128 / e))

/-! ### One step (R98 to R100, R314) -/

/-- The FP32 scale at a place of a scale buffer. -/
def scale32 (b : List Byte) (k : Nat) : FVal :=
  f32 (BitVec.ofNat 32 ((List.range 4).foldl (fun a i => a + (b.getD (4 * k + i) 0).toNat * 256 ^ i) 0))

/-- The E8M0 scale at a place of a scale buffer. -/
def scale8 (b : List Byte) (k : Nat) : FVal := fval .e8m0 (b.getD k 0).toNat

/-- The scales of A for row `m` and of B for column `n` in block `b` (R98). -/
def Team.scaleA (t : Team) (m b : Nat) : FVal :=
  match t.mode with
  | 1 => scale32 t.ascale m
  | 2 => scale8 t.ascale (4 * m + b)
  | _ => .fin false 1 0
def Team.scaleB (t : Team) (b n : Nat) : FVal :=
  match t.mode with
  | 1 => scale32 t.bscale 0
  | 2 => scale8 t.bscale (128 * b + n)
  | _ => .fin false 1 0

/-- The accumulator after one block: the exact sum of products, scaled exactly and added with the only rounding; a NaN anywhere
gives the canonical NaN (R98, R99). -/
def blockAcc (as' bs : List FVal) (sa sb : FVal) (acc : Word) : Word :=
  if (f32 acc).isNan || as'.any FVal.isNan || bs.any FVal.isNan || sa.isNan || sb.isNan then 0x7FC00000
  else r32 (fsum [f32 acc, fmulE (fmulE (fsum (List.zipWith fmulE as' bs) .near) sa) sb] .near)

/-- The k values of a block: 128 of FP8 in modes 0 and 1, else 32 (R97). -/
def blockLen (tag : Tag) (mode : Nat) : Nat :=
  match tag with
  | .e4m3x4 => if mode = 2 then 32 else 128
  | .e5m2x4 => if mode = 2 then 32 else 128
  | _ => 32

/-- An accumulator cell after a step of float formats. -/
def stepFloat (t : Team) (len m n : Nat) (as' bs : List FVal) (acc : Word) : Word :=
  (List.range (128 / len)).foldl (fun acc b =>
    blockAcc ((as'.drop (len * b)).take len) ((bs.drop (len * b)).take len) (t.scaleA m b) (t.scaleB b n) acc) acc

/-- An accumulator cell after a step of INT8 (R100). -/
def stepInt (as' bs : List Nat) (acc : Word) : Word :=
  acc + BitVec.ofInt 32 ((List.zipWith (fun a b => elemInt 8 a * elemInt 8 b) as' bs).foldl (· + ·) 0)

/-- The accumulator tile after step `j` of a word (R314). -/
def Team.step (t : Team) (td ta tb sl : Nat) : Tile :=
  let a := t.tile ta
  let b := t.tile tb
  let acc := t.tile td
  let rows := List.range 128
  let ae := rows.map (fun m => a.slice m sl)
  let be := rows.map (fun n => b.slice n sl)
  let fa := (fmtOf? a.tag).getD .fp32
  let fb := (fmtOf? b.tag).getD .fp32
  let len := blockLen a.tag t.mode
  let av := ae.map (fun l => l.map (fval fa))
  let bv := be.map (fun l => l.map (fval fb))
  tileOf acc.tag (rows.flatMap (fun m => rows.map (fun n =>
    if a.tag = .i8x4 then stepInt (ae.getD m []) (be.getD n []) (acc.cell m n)
    else stepFloat t len m n (av.getD m []) (bv.getD n []) (acc.cell m n))))

/-- The energy class and the cycles of a step on a tag (R142, R314). -/
def stepCost (tag : Tag) : Nat × Nat :=
  match tag with
  | .bf16x2 => (15, 64)
  | .fp16x2 => (15, 64)
  | .e2m1x8 => (16, 16)
  | _ => (14, 32)

/-! ### The queue and its two servers (R307, R378, R379) -/

/-- The head word of a team in a cluster's queue. -/
def ClusterSt.head (c : ClusterSt) (t : Nat) : Option MxWord := c.queue.find? (fun w => w.team == t)

/-- Whether a word is served by the tile port, and by the step pipeline. -/
def MxKind.onPort : MxKind → Bool
  | .steps .. => false
  | .fence _ => false
  | _ => true
def MxKind.isSteps : MxKind → Bool
  | .steps .. => true
  | _ => false

/-- The distance from the slot served last to a slot, ascending and wrapping around. -/
def slotAfter (last slot : Nat) : Nat := (slot + 15 - last % 16) % 16

/-- The head word that a server takes next: of the team that follows the last team served (R379). -/
def State.nextWord (s : State) (cl last : Nat) (p : MxWord → Bool) : Option MxWord :=
  let c := s.cluster cl
  let heads := c.queue.filter (fun w => c.head w.team == some w && !w.halt && p w)
  match heads with
  | [] => none
  | x :: r => some (r.foldl (fun b w =>
      if Nat.blt (slotAfter last (s.team w.team).tslot) (slotAfter last (s.team b.team).tslot) then w else b) x)

/-- The word that the tile port goes on with, or takes next. -/
def State.portWord (s : State) (cl : Nat) : Option MxWord :=
  match (s.cluster cl).queue.find? (fun w => w.row != 0 && w.kind.onPort) with
  | some w => some w
  | none => s.nextWord cl (s.cluster cl).lastPort (fun w => w.kind.onPort && Nat.ble (s.team w.team).mxFree (s.cycle (s.clockOf cl)))

def State.modCluster (cl : Nat) (f : ClusterSt → ClusterSt) (s : State) : State := s.setCluster cl (f (s.cluster cl))

/-- The queue with one word changed, or without it. -/
def ClusterSt.putWord (w : MxWord) (c : ClusterSt) : ClusterSt :=
  let f := fun (x : MxWord) => if x.id = w.id then w else x
  { c with queue := c.queue.map f }
def ClusterSt.dropWord (id : Nat) (c : ClusterSt) : ClusterSt := { c with queue := c.queue.filter (fun w => w.id != id) }

/-- A server turns to a team. -/
def ClusterSt.portTurn (slot : Nat) (c : ClusterSt) : ClusterSt := { c with lastPort := slot }
def ClusterSt.stepTurn (slot free : Nat) (c : ClusterSt) : ClusterSt := { c with lastStep := slot, stepFree := free }

/-- The servers of a cluster and the batches of a team are called. -/
def State.callMatrix (cl t : Nat) (s : State) : State :=
  ((s.post 0 (.tilePortService cl)).post 0 (.matrixStep cl)).post 0 (.batchComplete t)

/-- A word has been served: it leaves the queue and its range locks are released (R310). -/
def State.wordDone (cl : Nat) (w : MxWord) (s : State) : State :=
  ((s.modCluster cl (ClusterSt.dropWord w.id)).unregister (s.team w.team).coreId w.id).callMatrix cl w.team

/-- The tag that an MLD has given its tile as it issued (R310). -/
def MxWord.mark (w : MxWord) (ts : List Tile) : List Tile :=
  match w.kind with
  | .load td _ _ tag => ts.set td { (ts.getD td (Tile.zero .raw)) with tag := tag }
  | _ => ts

/-- A team whose queued words are discarded; the tags of its MLDs stand, and what is tracked for later words is what its tiles hold (R308,
R310, R317; log entry 47). -/
def Team.mxDead (q : List MxWord) (t : Team) : Team :=
  let ts := q.foldl (fun ts w => w.mark ts) t.tiles
  { t with mdead := true, tiles := ts, track := ts.map (fun x => x.tag), trackMode := t.mode }

/-- A matrix word faults in service: every later word of the team goes with it (R317). At a page that may be resolved it halts instead, to
be made again as a whole (R349). -/
def State.mxFail (cl : Nat) (w : MxWord) (a : DWord) (c : FaultClass) (cause : Nat) (s : State) : State :=
  let f := engineFault w.pos 0 a c cause
  if pageable f (s.team w.team).crec.pgpol then
    (s.modCluster cl (ClusterSt.putWord { w with row := 0, buf := [], halt := true })).post 0 (.deferredFaultReport w.gid f)
  else
    let mine := (s.cluster cl).queue.filter (fun x => x.team == w.team)
    let s1 := s.modCluster cl (fun c => { c with queue := c.queue.filter (fun x => x.team != w.team) })
    let s2 := mine.foldl (fun s x => s.unregister (s.team w.team).coreId x.id) s1
    ((s2.modTeam w.team (Team.mxDead mine)).post 0 (.deferredFaultReport w.gid f)).callMatrix cl w.team

/-! ### The tile port (R309 to R312, R378) -/

/-- The lines of a row of 512 bytes: their places, or the faults there. -/
def State.rowPlaces (s : State) (w : MxWord) (base : DWord) (wr : Bool) : List (Nat × DWord × Except (FaultClass × Nat) Touch) :=
  (List.range 8).map (fun k =>
    let a := base + BitVec.ofNat 64 (64 * k)
    (0, a, s.enginePlace w.team 0 0 a 64 wr))

/-- The words of 64 bytes. -/
def wordsOf (x n : Nat) : List Word := (List.range n).map (fun k => BitVec.ofNat 32 (x / 2 ^ (32 * k)))

/-- The bytes of words. -/
def bytesOf (ws : List Word) : List Byte := ws.flatMap (fun w => (List.range 4).map (fun k => BitVec.ofNat 8 (w.toNat / 256 ^ k)))

/-- The lines of a row are reached, and read as they are; the first that faults ends it (R309, R310). -/
def State.reachRow (tid : Nat) (pol : Word) : List Touch → List Word → State → State × Except (DWord × FaultClass × Nat) (List Word)
  | [], got, s => (s, .ok got)
  | t :: r, got, s =>
    let x := s.reachSide tid pol [t]
    match x.2 with
    | some (c, cause) => (x.1, .error (t.addr, c, cause))
    | none => State.reachRow tid pol r (got ++ wordsOf (Memory.readN x.1.mem t.key 64) 16) x.1

/-- The number of 64 bytes. -/
def lineNat (ws : List Word) : Nat := ((List.range 16).zip ws).foldl (fun a y => a + y.2.toNat * 2 ^ (32 * y.1)) 0

/-- A batch that holds a store of system scope (R119, R316). -/
def Team.stored (w : MxWord) (ts : List Touch) (t : Team) : Team :=
  { t with mstSys := t.mstSys || ts.any (fun x => effScope (polScope w.pol) x.addr == 3) }

/-- Whether a batch that ends, a release at system scope, waits for invalidations that earlier writes of its team owe (R122, R316). -/
def State.batchOwes (s : State) (w : MxWord) : Bool :=
  let tm := s.team w.team
  tm.mstSys && s.invals.any (fun x => Nat.blt x.1 w.id && tm.groups.contains x.2)

/-- A row is moved: a read row is kept with those read before, a row of a store is written, and peers' copies of its lines are invalidated
(R122, R310, R311). -/
def State.moveRow (cl : Nat) (w : MxWord) (ts : List Touch) (s : State) : State :=
  let x := s.reachRow w.team w.pol ts []
  match x.2 with
  | .error (a, c, cause) => x.1.mxFail cl w a c cause
  | .ok got =>
    match w.kind with
    | .store td _ _ =>
      let row := ((x.1.team w.team).tile td).row w.row
      let s1 := (x.1.oweInvals w.id w.gid (ts.map (fun t => t.key))).modTeam w.team (Team.stored w ts)
      (((List.range ts.length).zip ts).foldl (fun s y => s.landSide y.2 [(y.2.key, lineNat ((row.drop (16 * y.1)).take 16), 64)]) s1).modCluster
        cl (ClusterSt.putWord { w with row := w.row + 1 })
    | _ => x.1.modCluster cl (ClusterSt.putWord { w with row := w.row + 1, buf := w.buf ++ got })

/-- What a word leaves when its last row has been moved (R309 to R312). -/
def Team.served (w : MxWord) (t : Team) : Team :=
  match w.kind with
  | .zero td tag => { t with tiles := t.tiles.set td (Tile.zero tag) }
  | .load td _ _ tag => { t with tiles := t.tiles.set td (tileOf tag w.buf) }
  | .scale _ 0 => { t with mode := 0, ascale := [], bscale := [] }
  | .scale _ m => { t with mode := m, ascale := bytesOf (w.buf.take 128), bscale := bytesOf (w.buf.drop 128) }
  | _ => t

/-- The rows that a word moves, and the address of its next row. -/
def MxKind.rows : MxKind → Nat
  | .load .. => 128
  | .store .. => 128
  | .scale _ m => if m = 0 then 0 else 2
  | _ => 0
def MxKind.rowBase (k : MxKind) (row : Nat) : DWord :=
  match k with
  | .load _ base pitch _ => base + BitVec.ofNat 64 (64 * pitch * row)
  | .store _ base pitch => base + BitVec.ofNat 64 (64 * pitch * row)
  | .scale base _ => base + BitVec.ofNat 64 (512 * row)
  | _ => 0
def MxKind.isStore : MxKind → Bool
  | .store .. => true
  | _ => false

/-- A word with all its rows moved takes effect and leaves the queue. -/
def State.endPort (cl : Nat) (w : MxWord) (s : State) : State := (s.modTeam w.team (Team.served w)).wordDone cl w

/-- TILE_PORT_SERVICE: the port moves the next row of its word, or serves the next word (R378). -/
def execTilePortService (cl : Nat) (s : State) : Host.Outcome State Fault Refusal :=
  match s.portWord cl with
  | none => evStep false false id s
  | some w =>
    let turn := State.modCluster cl (ClusterSt.portTurn (s.team w.team).tslot)
    if Nat.ble w.kind.rows w.row then evStep true true (fun s => (turn s).endPort cl w) s
    else
      let l := s.rowPlaces w (w.kind.rowBase w.row) w.kind.isStore
      match placeFault l with
      | some (_, a, c, cause) => evStep true true (State.mxFail cl w a c cause) s
      | none =>
        let ts := (sideOf w.kind.isStore l).map Prod.snd
        if s.engineWaits w.id w.gid w.path ts then .next (s.verd .held)
        else (s.enginePass w.team w.id (.tilePortService cl) (ts.map (fun t => [t]))).run (fun s =>
          ((turn s).moveRow cl w ts).postAt (s.clockOf cl) (s.cycle (s.clockOf cl) + 1) (.tilePortService cl)) s

/-! ### The step pipeline (R314, R378, R379) -/

/-- A word with its next step done. -/
def MxKind.advance : MxKind → MxKind
  | .steps td ta tb ksl aring bring done total => .steps td ta tb ksl aring bring (done + 1) total
  | k => k

/-- One step: charged, and the accumulator tile updated (R314). -/
def State.oneStep (cl : Nat) (w : MxWord) (s : State) : State :=
  match w.kind with
  | .steps td ta tb ksl aring bring done total =>
    let t := s.team w.team
    let e := elems (t.tile ta).tag
    let cost := stepCost (t.tile ta).tag
    let a := stepTile ta e aring ksl done
    let b := stepTile tb e bring ksl done
    let acc := t.step td a b ((ksl + done) % e)
    let clk := s.clockOf cl
    let free := s.cycle clk + cost.2
    let s1 := (s.charge t.ctx (cl / 8) [(cost.1, 1)] (some (s.inReplay w.team))).count w.team 0x10 1
    let s2 := (s1.modTeam w.team (fun t => { t with tiles := t.tiles.set td acc, mxFree := free })).modCluster cl
      (ClusterSt.stepTurn t.tslot free)
    let s3 := if done + 1 = total then s2.modCluster cl (ClusterSt.dropWord w.id)
      else s2.modCluster cl (ClusterSt.putWord { w with kind := w.kind.advance })
    ((s3.postAt clk free (.matrixStep cl)).postAt clk free (.tilePortService cl)).postAt clk free (.batchComplete w.team)
  | _ => s

/-- MATRIX_STEP: at each step boundary the next team's step enters (R379). -/
def execMatrixStep (cl : Nat) (s : State) : Host.Outcome State Fault Refusal :=
  match s.nextWord cl (s.cluster cl).lastStep (fun w => w.kind.isSteps) with
  | none => evStep false false id s
  | some w => evStep (Nat.ble (s.cluster cl).stepFree (s.cycle (s.clockOf cl))) true (State.oneStep cl w) s

/-! ### Batches (R315 to R317) -/

/-- BATCH_COMPLETE: a fence that no earlier word precedes any more closes its batch: C advances and the fence's destination
becomes full; a batch that held a fault never completes. One with a store of system scope waits for the invalidations owed (R122, R315 to R317). -/
def execBatchComplete (t : Nat) (s : State) : Host.Outcome State Fault Refusal :=
  let cl := (s.team t).cluster
  match (s.cluster cl).head t with
  | some w =>
    match w.kind with
    | .fence sd => evStep (Nat.ble (s.team t).mxFree (s.cycle (s.clockOf cl))) (!s.batchOwes w) (fun s =>
        let s1 := s.modCluster cl (ClusterSt.dropWord w.id)
        if (s.team t).mdead then s1.callMatrix cl t
        else
          let n := ((s.team t).batch + 1) % 65536
          (((s1.modTeam t (fun x => { x with batch := n, mstSys := false })).modGrp w.gid (fun g => g.wrS sd (BitVec.ofNat 32 n))).callReady t).callMatrix
            cl t) s
    | _ => evStep false false id s
  | none => evStep false false id s

end Sys2Proof.Machine
end

