-- ==== Sys2Proof/Machine/SegmentUnit.lean ====
section
/-! DEFINITION. The segment unit's own steps: the end of a zeroing, eviction to the mirror and restore from it (R137, R147, R158, R320,
R363 to R365, R382). -/

namespace Sys2Proof.Machine

/-- The lines of a segment. -/
def Seg.lines (g : Seg) : Nat := 1024 * g.units

/-- The facet and the bank in which a line of a segment of the chip scratchpad lies (R368). -/
def State.chipBank (s : State) (g : Seg) (k : Nat) : Nat × Nat := chipPlace (s.part g.part) (g.off + 64 * k)

/-- The facet in which a line of a segment lies on chip (R368). -/
def State.lineFacet (s : State) (g : Seg) (k : Nat) : Nat := if g.chip then (s.chipBank g k).1 else g.cluster / 8

/-- The router beside a segment's line on chip (R368). -/
def State.lineRouter (s : State) (g : Seg) (k : Nat) : Nat :=
  if g.chip then 8 * (s.chipBank g k).1 + (s.chipBank g k).2 / 2 else g.cluster

/-- The place of a line in the mirror. -/
def Seg.mirrorLine (g : Seg) (k : Nat) : Nat := g.mirror + 64 * k

/-- The hops of a line between its place on chip and its mirror, one way (R406). -/
def State.mirrorHops (s : State) (g : Seg) (k : Nat) : Nat := hopsOf g.part (s.lineRouter g k) (routerOf (sliceOf (g.mirrorLine k)))

/-- Who pays for a segment's movement: a context, or the partition's idle account (R147). -/
def Seg.payer (g : Seg) : Option Nat := if Nat.ble 2 g.cause then some (g.cause - 2) else none

/-- The charge events of one line of a segment's movement: in its facet, at each slice, and of the burst (R141, R147). -/
def State.payLine (g : Seg) (facet : Nat) (slices : List (List (Nat × Nat))) (hbm : List (Nat × Nat)) (s : State) : State :=
  let core := (17, 1) :: if g.chip then [] else [(7, 1)]
  match g.payer with
  | some c =>
    let s1 := slices.foldl (fun s l => s.chargeShared c facet 16 l (some false)) (s.arrive c facet facet (s.facetUnits g.part core) (some false))
    if hbm.isEmpty then s1 else s1.chargeShared c facet 17 hbm (some false)
  | none =>
    s.chargeIdle g.part ((slices ++ [hbm]).foldl (fun a l => a + unitsOf (amountOf s.weights l)) (s.facetUnits g.part core))

/-- The apertures that a line of a segment takes at the slice of the chip scratchpad (R158, R368). -/
def State.chipUnit (s : State) (g : Seg) (k : Nat) : List (Nat × Nat) :=
  if g.chip then [(16 * (s.chipBank g k).1 + (s.chipBank g k).2, 1)] else []

/-- The apertures that a segment's movement takes at the slices of its mirror and of the chip scratchpad (R158, R159). -/
def State.segUnits (s : State) (g : Seg) (writes : Bool) : List (Nat × Nat) :=
  sumUnits ((List.range g.lines).flatMap (fun k =>
    let a := g.mirrorLine k
    (sliceOf a, 1) :: (if !writes && s.absent a then [(768 + sliceOf a, 1)] else []) ++ s.chipUnit g k))

/-- A line of the mirror is written, or read, through the L2, and charged. Its hops are counted one way for an eviction's write, and both ways for a
restore's request and response, where the spec says class 9 per hop; its line is of class normal, for no policy operand names one (R111, R143,
R147; DESIGN CHOICE, log entry 47). -/
def State.mirrorStep (g : Seg) (writes : Bool) (k : Nat) (s : State) : State :=
  let a := g.mirrorLine k
  let miss := !writes && s.absent a
  let far := (9, if writes then s.mirrorHops g k else 2 * s.mirrorHops g k) :: if miss then [] else [(8, 1)]
  let s1 := s.payLine g (s.lineFacet g k) (if g.chip then [far, [(8, 1)]] else [far]) (if miss then [(10, 1)] else [])
  (if writes then s1.clearBad (lineOf a) else s1).bringLine (g.payer.getD g.ctx) a .normal none writes

/-- All lines of a segment move. -/
def State.moveSeg (g : Seg) (writes : Bool) (s : State) : State :=
  (List.range g.lines).foldl (fun s k => s.mirrorStep g writes k) s

/-- The waiting SEGATT words of a segment are served again in the next cycle (R320, R363). -/
def State.retrySegatts (i : Nat) (s : State) : State :=
  match SMap.find s.segs i with
  | some g => g.waiters.foldl (fun s id =>
      let n := s.cycle .uncore + 1
      (s.modOp id (fun o => { o with lanes := o.lanes.map (fun r => { r with since := n }) })).postAt .uncore n (.longLatencyCompletion id))
      (s.modSeg i (fun g => { g with waiters := [] }))
  | none => s

/-- SEGCRT_ZEROING_DONE: every line of the new segment is 0 and the status of 1 is there to be read (R319, R382). -/
def execSegcrtZeroingDone (seg : Nat) (s : State) : Host.Outcome State Fault Refusal :=
  match SMap.find s.segs seg with
  | some g =>
    match g.zeroing with
    | some (gid, d) =>
      let units := sumUnits ((List.range g.lines).flatMap (s.chipUnit g))
      (s.drawUnits g.vf seg 0 units (.segcrtZeroingDone seg)).run (fun s =>
        let s1 := (s.zeroSeg g).chargeZero g ((s.grp gid).facet)
        (s1.modSeg seg (fun g => { g with zeroing := none })).modGrp gid (fun x => x.wrS d 1)) s
    | none => evStep false false id s
  | none => evStep false false id s

/-- Whether every team that holds a segment attached is saved (R137). -/
def State.attachedSaved (s : State) (g : Seg) : Bool := g.attached.all (fun t => (s.team t).st == .saved)

/-- Why a segment is evicted: facet pre-emption, a firmware request, or for a context's launch or attachment (R147, R364). -/
def evictFacet : Nat := 0
def evictFirmware : Nat := 1
def evictFor (c : Nat) : Nat := c + 2

/-- SEGMENT_EVICTION_START: a firmware request is refused while the segment is attached; any other eviction waits for the saves
of the attached teams (R137, R363, R364). -/
def execSegmentEvictionStart (seg cause : Nat) (s : State) : Host.Outcome State Fault Refusal :=
  match SMap.find s.segs seg with
  | some g =>
    evStep (g.st == .resident && (cause != evictFirmware || g.attached.isEmpty)) (s.attachedSaved g && g.zeroing.isNone)
      (fun s => (s.modSeg seg (fun g => { g with st := .evicting, cause := cause, reserved := !g.attached.isEmpty })).postAt .uncore
        (s.cycle .uncore + 1) (.segmentMirrored seg)) s
  | none => evStep false false id s

/-- SEGMENT_MIRRORED: the mirror holds the segment's contents (R137, R147, R363). -/
def execSegmentMirrored (seg : Nat) (s : State) : Host.Outcome State Fault Refusal :=
  match SMap.find s.segs seg with
  | some g =>
    if g.st != .evicting then evStep false false id s
    else (s.drawUnits g.vf seg 0 (s.segUnits g true) (.segmentMirrored seg)).run (fun s =>
      (((s.moveSeg g true).toMirror g).modSeg seg (fun g => { g with st := .mirrored })).retrySegatts seg) s
  | none => evStep false false id s

/-- The offset at which a segment would be restored on a cluster: while it is reserved its own, and on its own cluster, else the lowest free one
(R365). -/
def State.restorePlace (s : State) (g : Seg) (cl : Nat) : Option Nat :=
  if g.reserved then
    (if (g.chip || cl == g.cluster) && freeAt (if g.chip then s.takenChip g.part else s.takenCm cl) (if g.chip then s.chipBytes g.part else cmBytes)
        (unitBytes g.units) g.off then some g.off else none)
  else s.placeSeg g.part cl g.chip g.units

/-- A mirrored segment takes a place on chip, where there is one (R363, R365). -/
def State.beginRestore (seg cl : Nat) (s : State) : Option State :=
  match SMap.find s.segs seg with
  | some g =>
    if g.st != .mirrored then none
    else (s.restorePlace g cl).map (fun o =>
      (s.modSeg seg (fun g => { g with st := .restoring, cluster := if g.chip then g.cluster else cl, off := o })).postAt .uncore
        (s.cycle .uncore + 1) (.segmentResident seg))
  | none => none

/-- SEGMENT_RESTORE_START: firmware asks for a restore, which comes about as soon as there is a place (R363, R365). -/
def execSegmentRestoreStart (seg cl : Nat) (s : State) : Host.Outcome State Fault Refusal :=
  evStep (match SMap.find s.segs seg with | some g => g.st == .mirrored | none => false) (s.beginRestore seg cl).isSome
    (fun s => (s.beginRestore seg cl).getD s) s

/-- SEGMENT_RESIDENT: the segment holds exactly what it held at its eviction (R137, R147, R363). -/
def execSegmentResident (seg : Nat) (s : State) : Host.Outcome State Fault Refusal :=
  match SMap.find s.segs seg with
  | some g =>
    if g.st != .restoring then evStep false false id s
    else (s.drawUnits g.vf seg 0 (s.segUnits g false) (.segmentResident seg)).run (fun s =>
      (((s.moveSeg g false).fromMirror g).modSeg seg (fun g => { g with st := .resident, reserved := false })).retrySegatts seg) s
  | none => evStep false false id s

end Sys2Proof.Machine
end

