-- ==== Sys2Proof/Machine/Signing.lean ====
section
/-! DEFINITION. Signed records, their keys and certificates, and the meter rings (R402, R458 to R461). -/

namespace Sys2Proof.Machine

/-! ### Signed bytes (R459, R461) -/

/-- A number as `n` bytes, lowest first (R3). -/
def leBytes (n x : Nat) : List Byte := (List.range n).map (fun i => BitVec.ofNat 8 (x / 256 ^ i))

/-- A list of bytes filled with zeros to a length. -/
def padTo (n : Nat) (l : List Byte) : List Byte := l ++ List.replicate (n - l.length) 0

/-- The bytes of a signed record, and a signed body with its tail: the device's ECDSA signature, EPOCH and MKEY, and the LMS signature by a
key (R459; log entry 15). -/
def recordBytes : Nat := 3072
def signedBy (key : Config.SignKey) (epoch mkey : Nat) (body : List Byte) : List Byte :=
  body ++ (List.range 96).map (Config.sigByte .device body) ++ leBytes 4 epoch ++ leBytes 4 mkey ++ List.replicate 8 0 ++
    (List.range 2668).map (Config.sigByte key body)

/-- A body signed by the next leaf of the meter key (R459, R461). -/
def Fleet.signed (f : Fleet) (body : List Byte) : List Byte := signedBy (.meter f.epoch f.mkey f.leaf) f.epoch f.mkey body

/-- A new epoch key, certified by the next root leaf, with its first meter key (R461). -/
def Fleet.newEpoch (f : Fleet) : Fleet :=
  { f with epoch := f.rootLeaf, rootLeaf := f.rootLeaf + 1, mkey := 0, leaf := 0, epochLeaf := 1,
           certs := f.certs ++ [(1, f.rootLeaf, 0), (2, f.rootLeaf, 0)] }

/-- The next meter key of the epoch, or of a new one when its 32,768 leaves are used (R461). -/
def Fleet.nextKey (f : Fleet) : Fleet :=
  if Nat.ble 32768 f.epochLeaf then f.newEpoch
  else { f with mkey := f.mkey + 1, leaf := 0, epochLeaf := f.epochLeaf + 1, certs := f.certs ++ [(2, f.epoch, f.mkey + 1)] }

/-- A leaf for one signature: a meter key that has signed 32,768 records is replaced (R461). -/
def Fleet.fresh (f : Fleet) : Fleet := if Nat.ble 32768 f.leaf then f.nextKey else f
def Fleet.spend (f : Fleet) : Fleet := { f with leaf := f.leaf + 1 }

/-- The parent key's leaf that makes a certificate of a level, EPOCH and MKEY: the root leaf of an epoch key's number, the leaf of the epoch key
with a meter key's number (R459, R461). -/
def certKey (c : Nat × Nat × Nat) : Config.SignKey := if c.1 = 1 then .root c.2.1 else .epoch c.2.1 c.2.2

/-- The body of a key certificate: KIND 2, DEVID, BOOTNO, level, EPOCH, MKEY and the LMS public key (R461; log entry 15). -/
def certBody (bootno : Nat) (c : Nat × Nat × Nat) : List Byte :=
  leBytes 2 2 ++ leBytes 8 Config.deviceId ++ leBytes 4 bootno ++ leBytes 1 c.1 ++ leBytes 4 c.2.1 ++ leBytes 4 c.2.2 ++
    (List.range 56).map (Config.publicKey c.1 c.2.1 c.2.2)

/-- A key certificate as it stands in the ring (R459, R461). -/
def certRecord (bootno : Nat) (c : Nat × Nat × Nat) : List Byte := signedBy (certKey c) c.2.1 c.2.2 (certBody bootno c)

/-! ### Rings (R402, R460) -/

/-- The ring of a number: 64 for the physical function's, else a virtual function's. -/
def Fleet.ring (f : Fleet) (i : Nat) : Ring := if i = 64 then f.meter else SMap.getD f.vfMeters i Ring.zero
def Fleet.setRing (f : Fleet) (i : Nat) (r : Ring) : Fleet :=
  if i = 64 then { f with meter := r } else { f with vfMeters := SMap.set f.vfMeters i r }

/-- Whether a ring takes a record now: it has room, and no page of the slot is being copied (R402, R448, R460). -/
def State.ringTakes (s : State) (i : Nat) : Bool :=
  let r := s.fleet.ring i
  r.room && s.spanFree (r.slot recordBytes) recordBytes

/-- A record is written to a ring that takes it. -/
def State.toRing (i : Nat) (l : List Byte) (s : State) : State :=
  let r := s.fleet.ring i
  let a := r.slot recordBytes
  let s1 := s.writeSpan (Memory.writeBytes s.mem a (padTo recordBytes l)) a recordBytes none
  { s1 with fleet := s1.fleet.setRing i r.push }

/-- Key certificates go to the physical function's ring as far as it has room (R461). -/
def State.flushCerts (s : State) : State :=
  s.fleet.certs.foldl (fun s c =>
    if s.ringTakes 64 then
      let s1 := s.toRing 64 (certRecord s.boot.bootno c)
      { s1 with fleet := { s1.fleet with certs := s1.fleet.certs.drop 1 } }
    else s) s

/-! ### The meter record (R458, R460) -/

/-- The body of a meter record (R458). -/
def meterBody (m : MeterRec) (bootno monver polver devid : Nat) : Nat :=
  (m.flags + 32 * m.merged.toNat) * 2 ^ 1888 + polver % 65536 * 2 ^ 1872 + monver % 65536 * 2 ^ 1856 +
    ((List.range 16).map (fun i => m.optime.getD i 0 % 2 ^ 64 * 2 ^ (832 + 64 * i))).foldl (· + ·) 0 +
    m.peer % 2 ^ 128 * 2 ^ 704 + (m.total % 2 ^ 128).toNat * 2 ^ 576 + (m.corr % 2 ^ 128).toNat * 2 ^ 448 +
    m.charged % 2 ^ 128 * 2 ^ 320 + m.ticks % 2 ^ 64 * 2 ^ 256 + m.tstart % 2 ^ 64 * 2 ^ 192 + m.seq % 2 ^ 32 * 2 ^ 160 +
    bootno % 2 ^ 32 * 2 ^ 128 + devid % 2 ^ 64 * 2 ^ 64 + m.part % 256 * 2 ^ 24 + m.vf % 256 * 2 ^ 16 + 1

/-- The version of the policy image that a virtual function has pinned; 0 for an idle account and the physical function (R434, R458). -/
def State.policy (s : State) (vf : Nat) : Nat := if vf = 255 then 0 else SMap.getD s.boot.pins vf 0

/-- A record is signed and goes to its ring, or is held while the ring does not take it, and until BOOTOK, which brings the first certified
key and the number of the boot (R459 to R461; DESIGN CHOICE, log entry 15). -/
def State.deliver (x : Nat × MeterRec) (s : State) : State :=
  if s.boot.bootok && s.ringTakes x.1 then
    let s1 := { s with fleet := s.fleet.fresh }.flushCerts
    if s1.ringTakes x.1 then
      let body := leBytes 256 (meterBody x.2 s1.boot.bootno s1.boot.monver (s1.policy x.2.vf) Config.deviceId)
      { s1 with fleet := s1.fleet.spend }.toRing x.1 (s1.fleet.signed body)
    else { s1 with fleet := { s1.fleet with held := s1.fleet.held ++ [x] } }
  else { s with fleet := { s.fleet with held := s.fleet.held ++ [x] } }

/-- Held records go to their rings in their order (R402, R460). -/
def State.flushMeters (s : State) : State :=
  s.fleet.held.foldl (fun s x => s.deliver x) { s with fleet := { s.fleet with held := [] } }.flushCerts

end Sys2Proof.Machine
end

