-- ==== Sys2Proof/Machine/ReplayUnit.lean ====
section
/-! DEFINITION. The replay unit: arming, page capture, the reset between passes, the end of a pass and a pass that is run again
(R444 to R455). -/

namespace Sys2Proof.Machine

def State.replay (s : State) (p : Nat) : Replay := (s.part p).replay
def State.modReplay (s : State) (p : Nat) (f : Replay → Replay) : State := s.modPart p (fun x => { x with replay := f x.replay })

/-- A report to the monitor. -/
def State.tell (k : MonKind) (n : Nat) (s : State) : State := { s with monlog := s.monlog ++ [(k, n)] }

/-- A configuration register takes writes of the monitor, but not in minimal mode (R436). -/
def State.configs (s : State) : Bool := !s.boot.minimal

/-- Whether a capture area lies in the HBM4 of a partition's facets (R444). -/
def areaOk (p : Part) (area pages : Nat) : Bool :=
  Nat.ble 1 pages && Nat.ble pages 4096 &&
    (List.range pages).all (fun k => paOk ((area + k) * 65536 + 65535) && p.facets.testBit ((area + k) * 65536 / 34359738368))

/-- RPCTL after a write: ARM = 1 clears what the last replay left (R444, R455). -/
def Replay.write (v : Nat) (r : Replay) : Replay :=
  let r1 := { r with npass := v / 2 ^ 59 % 16, retry := v / 2 ^ 56 % 8, queue := v / 2 ^ 44 % 4096, areapg := v / 2 ^ 24 % 65536,
                     area := v % 2 ^ 24 }
  if v.testBit 63 then
    { r1 with arm := true, state := 1, result := 0, unsafeW := false, preempt := 0, mismatch := 0, pages := [], copying := [], full := false }
  else r1

/-- REPLAY_ARM: a write to RPCTL; while ARM is 1 it is ignored (R444). -/
def execReplayArm (p value : Nat) (s : State) : Host.Outcome State Fault Refusal :=
  let bad := value.testBit 63 && !areaOk (s.part p) (value % 2 ^ 24) (value / 2 ^ 24 % 65536)
  evStep (!(s.replay p).arm && s.configs) true (fun s =>
    if bad then s.tell .configError p else s.putPart p (fun x => { x with replay := x.replay.write value })) s

/-! ### Capture (R448, R449) -/

/-- The device-physical place of a captured page's copy. -/
def Replay.slotOf (r : Replay) (k : Nat) : Nat := (r.area + k) * 65536

/-- A page's 1,024 lines moved between its place and its slot, each charged to a context as a copy and counted in no event (R141, R147,
R447). -/
def State.chargePage (c part src dst : Nat) (s : State) : State :=
  let f := (s.part part).home
  let units := fun (l : List (Nat × Nat)) => unitsOf (amountOf s.weights l)
  (List.range 1024).foldl (fun s k =>
    let hops := hopsOf part (routerOf (sliceOf (src + 64 * k))) (routerOf (sliceOf (dst + 64 * k)))
    let s1 := (s.arrive c f f (s.facetUnits part [(17, 1)]) none).arrive c f 16 (units [(9, 2 * hops), (8, 1)]) none
    if s.absent (src + 64 * k) then s1.arrive c f 17 (units [(10, 1)]) none else s1.arrive c f 16 (units [(8, 1)]) none) s

/-- The context to which a partition's replay is charged. -/
def State.replayPayer (s : State) (p : Nat) : Nat := (s.replayCtx p).getD 0

/-- The units of apertures that the copy of a page takes: 64 lines read at each of the 16 slices of its facet, each filled by HBM4 where it is
absent, and 64 written at each slice of its new place (R158, R159, R406). -/
def State.pageUnits (s : State) (src dst : Nat) : List (Nat × Nat) :=
  (List.range 16).flatMap (fun b =>
    let k := src / 34359738368 % 16 * 16 + b
    let held := s.l2.filter (fun x => x.1 / 1024 == src / 65536 && sliceOf (64 * x.1) == k)
    [(k, 64), (768 + k, 64 - held.length), (dst / 34359738368 % 16 * 16 + b, 64)])

/-- The name under which a replay's page is deferred at an aperture; no operation has it. -/
def pageName (page : Nat) : Nat := 18446744073709551616 + page

/-- PAGE_CAPTURE: the copy of a page starts once the apertures on its way let it, or the full table lets this and later first writes pass
(R158, R448, R449). -/
def execPageCapture (p page : Nat) (s : State) : Host.Outcome State Fault Refusal :=
  let r := s.replay p
  let n := r.pages.length + r.copying.length
  if r.state == 2 && !r.pages.contains page && !r.copying.contains page && !r.full then
    if Nat.ble r.areapg n then .next ((s.modReplay p (fun r => { r with full := true })).verd .issued)
    else (s.drawUnits (s.vfOf (s.replayPayer p)) (pageName page) 0 (sumUnits (s.pageUnits (65536 * page) (r.slotOf n)))
      (.pageCapture p page)).run (fun s =>
        (s.modReplay p (fun r => { r with copying := r.copying ++ [page] })).post 1 (.pageCaptureComplete p page)) s
  else evStep false false id s

/-- A page's bytes are copied from one place to another; the copy lies in clear. -/
def State.copyPage (src dst : Nat) (s : State) : State :=
  { s with mem := Memory.copy s.mem src dst 65536
           crypt := s.crypt.filter (fun x => !(Nat.ble (dst / 64) x.1 && Nat.blt x.1 (dst / 64 + 1024))) }

/-- PAGE_CAPTURE_COMPLETE: the page stands in the table, and the writes to it that were held proceed (R448). -/
def execPageCaptureComplete (p page : Nat) (s : State) : Host.Outcome State Fault Refusal :=
  let r := s.replay p
  evStep (r.copying.contains page) true (fun s =>
    let slot := r.slotOf r.pages.length
    (((s.copyPage (65536 * page) slot).chargePage (s.replayPayer p) p (65536 * page) slot).modReplay p (fun r =>
      { r with pages := r.pages ++ [page], copying := r.copying.filter (· != page) })).flushErrors.flushMeters) s

/-! ### The reset before a pass (R450) -/

/-- Every L2 line of a partition is written back and dropped. -/
def State.flushPart (p : Nat) (s : State) : State :=
  ((s.l2.map Prod.fst).filter (s.lineIn p)).foldl (fun s l => s.dropLine l) s

/-- A context's translations, code and loop buffers are dropped. -/
def State.dropCtxCaches (c : Nat) (s : State) : State :=
  let k := s.ctx c
  let f := fun (x : Nat × Group) => if (s.team x.2.team).ctx = c then (x.1, { x.2 with loopBuf := none }) else x
  { (s.dropCode c) with tlb := s.tlb.filter (fun e => !(e.part == k.part && e.pasid == k.crec.pasid)), groups := s.groups.map f }

/-- The captured pages are put back, charged to the context (R447, R450). -/
def State.restorePages (p : Nat) (s : State) : State :=
  let r := s.replay p
  ((List.range r.pages.length).zip r.pages).foldl (fun s x =>
    let page := x.2 * 65536
    ({ s with mem := Memory.copy s.mem (r.slotOf x.1) page 65536 }.chargePage (s.replayPayer p) p (r.slotOf x.1) page)) s

/-- The allocations of a launch hold 0 in every pass (R450). -/
def State.zeroAllocs (l : Nat) (s : State) : State :=
  (s.segs.filter (fun x => x.2.launch == some l)).foldl (fun s x => s.zeroSeg x.2) s

/-- The selector that a pass gives to counter `n` (R445). -/
def passSel (sel n : Nat) : Word := BitVec.ofNat 32 (2147483648 + 2 * 536870912 + sel / 256 ^ n % 256)

/-- A pass starts: its counters at 0, its selectors set, and every team to be dispatched (R445, R447). -/
def State.startPass (p pass : Nat) (s : State) : State :=
  let r := s.replay p
  let s1 := s.modPart p (fun x =>
    { x with pmc := [0, 0, 0, 0], landed := none, selWas := none, pmsel := (List.range 4).map (passSel (r.sel.getD pass 0))
             replay := { x.replay with state := 2, pass := pass, grid := 0 } })
  (s1.zeroAllocs r.launch).modLaunch r.launch (fun l => { l with next := 0, again := [], ended := 0 })

/-- The replay reset begins, which leads to a pass: the caches are dropped, and the captured pages are put back before it ends (R450, R455). -/
def State.resetReplay (p pass : Nat) (s : State) : State :=
  (((s.flushPart p).dropCtxCaches (s.replayPayer p)).modReplay p (fun r => { r with state := 3, next := pass })).post 1 (.replayPassEnd p)

/-- The units of apertures that the captured pages take on their way back. -/
def State.restoreUnits (s : State) (p : Nat) : List (Nat × Nat) :=
  let r := s.replay p
  sumUnits (((List.range r.pages.length).zip r.pages).flatMap (fun x => s.pageUnits (r.slotOf x.1) (65536 * x.2)))

/-! ### The end of a pass (R445, R447, R449, R452) -/

/-- The selectors of a partition with EN cleared (R445). -/
def disable (w : Word) : Word := BitVec.ofNat 32 (w.toNat % 2147483648)

/-- A pass's counts and its signature are recorded (R445, R452). -/
def Part.record (x : Part) : Part :=
  let r := x.replay
  let cnt := (List.range 4).foldl (fun m n => SMap.set m (4 * r.pass + n) (x.pmc.getD n 0).toNat) r.cnt
  let differs := r.pass != 0 && SMap.getD r.sig 0 0 != r.grid
  { x with pmsel := x.pmsel.map disable
           replay := { r with cnt := cnt, sig := SMap.set r.sig r.pass r.grid,
                              mismatch := if differs then r.mismatch ||| 2 ^ r.pass else r.mismatch } }

/-- A replay is over; its launch completes as any other (R447). -/
def State.endReplay (p state result : Nat) (s : State) : State :=
  let l := (s.replay p).launch
  ((s.modReplay p (fun r => { r with state := state, result := result, arm := false, copying := [] })).modLaunch l
    (fun x => { x with replay := false })).post 0 (.launchCompletion l)

/-- Whether events of a partition's replay grid are still on their way to its counters, or energy to its account (R429, R443, R445). -/
def State.replayLands (s : State) (p : Nat) : Bool :=
  s.agenda.any (fun x => match x.2 with | .counterEvent q y _ => q == p && y.replay | _ => false) ||
    (s.ctx (s.replayPayer p)).arriving.any (fun l => l.ev == some true)

/-- REPLAY_PASS_END: a pass is recorded once all that it counts has been counted, and the replay ends or its next reset begins; a reset ends with
the captured pages put back and its pass begun (R445, R447, R449, R450). -/
def execReplayPassEnd (p : Nat) (s : State) : Host.Outcome State Fault Refusal :=
  let r := s.replay p
  match s.launch r.launch with
  | some l =>
    if r.state = 3 && l.replay then
      (s.drawUnits (s.vfOf l.ctx) (pageName p) 1 (s.restoreUnits p) (.replayPassEnd p)).run (fun s => (s.restorePages p).startPass p r.next) s
    else evStep (r.state == 2 && l.replay && s.launchDone r.launch l) (r.copying.isEmpty && !s.replayLands p) (fun s =>
      let s1 := s.modPart p Part.record
      if r.full then s1.endReplay p 5 3
      else if r.pass = r.npass then s1.endReplay p 4 1
      else (s1.modReplay p (fun r => { r with runs := 0 })).resetReplay p (r.pass + 1)) s
  | none => evStep false false id s

/-! ### A pass that is run again (R453) -/

/-- Every team of a pass leaves, without completing anything. -/
def State.dropPass (l : Nat) (s : State) : State := (s.teamsOf l).foldl (fun s t => (s.discardWork t).removeTeam t) s

/-- A pass is discarded and run again, or the replay ends when its retries are used up (R453). -/
def State.rerunPass (p : Nat) (s : State) : State :=
  let r := s.replay p
  let s1 := (s.dropPass r.launch).modReplay p (fun r => { r with runs := r.runs + 1, copying := [] })
  let s2 := s1.modLaunch r.launch (fun x => { x with next := x.teams, again := [] })
  if Nat.blt r.runs r.retry then (s2.modReplay p (fun r => { r with preempt := r.preempt ||| 2 ^ r.pass })).resetReplay p r.pass
  else s2.endReplay p 5 5

end Sys2Proof.Machine
end

