-- ==== Sys2Proof/Machine/Preempt.lean ====
section
/-! DEFINITION. What becomes of stopped and pre-empted teams: the end of a team, the monitor's disposition, the choice of a
pre-emption, the save with its image, the flush, the replays of attaches and page faults, and arrivals from a partner team (R75 to
R77, R217, R293, R298, R345 to R351). -/

namespace Sys2Proof.Machine

/-! ### Going on (R345, R348, R349) -/

/-- Halted engine words of a team fail, where their page is not resolved: the fault that halted them is the one reported (R305, R317, R349). -/
def State.failEngines (t : Nat) (s : State) : State :=
  let tm := s.team t
  let mine := s.copies.filter (fun x => x.2.team == t && x.2.halt)
  let s1 := mine.foldl (fun s x => { s.unregister x.2.core x.1 with copies := SMap.erase s.copies x.1 }) s
  let q := (s1.cluster tm.cluster).queue.filter (fun w => w.team == t)
  if q.any (fun w => w.halt) then
    ((q.foldl (fun s w => s.unregister tm.coreId w.id) s1).modCluster tm.cluster (ClusterSt.forget t)).modTeam t (Team.mxDead q)
  else s1

/-- The steps of a page-fault replay of a team. -/
def pageSteps (t : Nat) : Ev → Bool
  | .pageFaultReplay u => u == t
  | .pfholdExpiry u _ => u == t
  | _ => false

/-- A team whose groups have all retired may end (R217). -/
def State.callEnd (t : Nat) (s : State) : State :=
  if (s.team t).groups.all (fun i => (s.grp i).retired) then s.post 0 (.teamEnd t) else s

def Group.go (g : Group) : Group := { g with stopped := false }

/-- A group of a list goes on from its boundary. -/
def goOn (l : List Nat) (x : Nat × Group) : Nat × Group := if l.contains x.1 then (x.1, x.2.go) else x

/-- A team goes on: running, or again to be saved for an attach that missed. -/
def Team.goOn (now : Nat) (miss : Bool) (t : Team) : Team :=
  { t with st := if miss then .missed else .running, stopAt := none, reports := [], since := now }

/-- A stopped team issues again from its boundaries (R345). -/
def State.resumeTeam (t : Nat) (s : State) : State :=
  let gs := (s.team t).groups
  let miss := s.ops.any (fun x => x.2.team == t && x.2.missed)
  let s1 := ({ s with groups := s.groups.map (goOn gs) }.modTeam t (Team.goOn s.now miss)).unpost (pageSteps t)
  let s2 := if miss then s1.tick.post 0 (.attachMissReplay t (Config.saveArea s1.ticket)) else s1
  s2.tuneHalves.callEnd t

/-- TEAM_END: once every group has retired and nothing of the team is outstanding, no deferred fault either, it releases its segments and ends
(R15, R136, R217). -/
def execTeamEnd (t : Nat) (s : State) : Host.Outcome State Fault Refusal :=
  let tm := s.team t
  evStep ((SMap.find s.teams t).isSome && (tm.st == .running || tm.st == .draining) && tm.groups.all (fun i => (s.grp i).retired))
    (!s.busy t && tm.groups.all (fun i => (s.grp i).deferred.isEmpty)) (State.finishTeam t) s

/-- A team that is stopped and whose reports have all been sent: it awaits the monitor (R338, R345). -/
def Team.awaits (t : Team) : Bool :=
  (t.st == .faulted || t.st == .saved) && !t.reports.isEmpty && t.reports.all (fun r => r.sent)

/-- A team of which the monitor has disposed: it goes on, or may be restored where it has been saved meanwhile. -/
def State.dispose (t : Nat) (s : State) : State :=
  if (s.team t).st = .saved then s.modTeam t (fun x => { x with reports := [] }) else (s.failEngines t).resumeTeam t

/-- MONITOR_RESUME: at BPC and BWORD (R345). -/
def execMonitorResume (t : Nat) (s : State) : Host.Outcome State Fault Refusal :=
  evStep (s.team t).awaits true (State.dispose t) s

/-- A fault that is not of the set at the boundary: a software trap or a deferred fault (R345). -/
def Report.past (r : Report) : Bool := r.info.cls == .softwareTrap || r.info.defer

/-- MONITOR_RESUME_NEXT: at the set after the fault, for a software trap or a deferred fault only; the boundary that the report
names lies there already (R332, R345). -/
def execMonitorResumeNext (t : Nat) (s : State) : Host.Outcome State Fault Refusal :=
  evStep ((s.team t).awaits && (s.team t).reports.all Report.past) true (State.dispose t) s

/-- END_TEAM (R345, R454). -/
def execEndTeam (t : Nat) (s : State) : Host.Outcome State Fault Refusal :=
  evStep (s.team t).awaits true (State.killTeam t) s

/-- END_GRID: the grid or graph of a stopped team (R345, R454). -/
def execEndGrid (l : Nat) (s : State) : Host.Outcome State Fault Refusal :=
  evStep (s.teams.any (fun x => x.2.launch == l && x.2.awaits)) true (State.killLaunch l) s

/-- END_CONTEXT: the context of a stopped team is torn down (R345, R404, R454). -/
def execEndContext (c : Nat) (s : State) : Host.Outcome State Fault Refusal :=
  evStep (s.teams.any (fun x => x.2.ctx == c && x.2.awaits) && !(s.ctx c).tdown) (s.tableFree (s.ctx c).part) (State.tearDown c) s

/-! ### The save image (R75, R76, R347, R350, R351) -/

/-- A word that a save cancels: a WAITC that waits, an XCHG whose partner has not come, or an attach that missed (R75, R348). -/
def State.parks (s : State) (o : MemOp) : Bool :=
  match o.kind with
  | .waitc _ => o.cleared && o.fail.isNone && !o.lanes.all LaneReq.over
  | .xchg => o.fail.isNone && s.halves.any (fun h => h.gid == o.gid && (s.halfFor o.gid h.num).isNone)
  | .segatt => o.missed
  | _ => false

/-- The errored registers of a group, whether a vector, number and fault, by number; of two of one number the vector comes first (R336,
R351; log entry 33). -/
def Group.errored (g : Group) : List (Bool × Nat × FaultInfo) :=
  (List.range (max g.v.length g.s.length)).flatMap (fun n =>
    ((g.vReg n).err.map (fun f => (true, n, f))).toList ++ ((g.sReg n).err.map (fun f => (false, n, f))).toList)

/-- The bytes of a group's record, and of the sections of a team's image. -/
def Group.recBytes (g : Group) : Nat := 1024 + 128 * g.v.length + 4 * g.s.length
def State.groupsOf (s : State) (t : Nat) : List (Nat × Group) := (s.team t).groups.map (fun i => (i, s.grp i))
def State.itemsOf (s : State) (t : Nat) : List Word := ((s.core (s.team t).coreId).items.filter (fun x => x.1 == t)).map Prod.snd
def State.parked (s : State) (t : Nat) : List (Nat × MemOp) := s.ops.filter (fun x => x.2.team == t && s.parks x.2)

/-- The entries of the tail. -/
def State.tailCount (s : State) (t : Nat) : Nat :=
  (s.parked t).length + ((s.groupsOf t).map (fun x => x.2.errored.length + x.2.deferred.length)).foldl (· + ·) 0

/-- Offsets of the sections: scratchpad, tiles, scales, items, tail and the end (R347, R351). -/
def State.sections (s : State) (t : Nat) : Nat × Nat × Nat × Nat × Nat × Nat :=
  let k := (s.team t).kernel
  let a := 256 + ((s.groupsOf t).map (fun x => x.2.recBytes)).foldl (· + ·) 0
  let b := a + 256 * k.scratch
  let c := b + 65536 * k.tiles
  let d := c + (if k.tiles = 0 then 0 else 1088)
  let e := d + 4 * (s.itemsOf t).length
  (a, b, c, d, e, e + 16 * s.tailCount t)

/-- ImageBytes (R347). -/
def State.imageBytes (s : State) (t : Nat) : Nat := (s.sections t).2.2.2.2.2

/-- Numbers written one after another, each with its place and its bytes. -/
def putAll (m : Memory) (l : List (Nat × Nat × Nat)) : Memory := l.foldl (fun m x => Memory.writeN m x.1 x.2.1 x.2.2) m

/-- The address of a word, as packet address + word index (R351). -/
def wordAddr (p : Pos) : Nat := p.pa.toNat + p.w

/-- The fields of the 64-byte header and of the bytes after it (R350, R351). -/
def State.imageHead (s : State) (t area : Nat) : List (Nat × Nat × Nat) :=
  let tm := s.team t
  let (a, b, c, d, e, n) := s.sections t
  let k := tm.kernel
  let flags := (if (s.groupsOf t).any (fun x => !x.2.errored.isEmpty) then 131072 else 0) + tm.dirty.toNat * 65536 + 1
  [(area, flags, 8), (area + 32, tm.ctx % 1024, 4), (area + 36, tm.groups.length, 1), (area + 37, (s.parked t).length, 1),
   (area + 38, tm.batch, 2), (area + 40, s.elapsed tm, 8), (area + 48, n, 4), (area + 52, tm.teamid, 4), (area + 56, k.desc, 8),
   (area + 64, a, 4), (area + 68, if k.tiles = 0 then 0 else b, 4), (area + 72, if k.tiles = 0 then 0 else c, 4), (area + 76, d, 4),
   (area + 80, e, 4), (area + 84, (s.itemsOf t).length, 2), (area + 86, s.tailCount t, 2)]

/-- A stack entry (R351). -/
def StackEntry.bytes (e : StackEntry) (at' : Nat) : List (Nat × Nat × Nat) :=
  [(at', e.pos.pa.toNat, 8), (at' + 8, e.mask.toNat, 4), (at' + 12, if e.kind = .path then 1 else 0, 1),
   (at' + 13, e.block.isSome.toNat, 1), (at' + 14, e.pos.w, 1)]

/-- The control registers in number order (R351). -/
def Csrs.words (c : Csrs) : List Nat :=
  [c.hndLo.toNat, c.hndHi.toNat, c.hnden.toNat, c.hact.toNat * 2147483648 + c.sync.toNat % 2147483648, c.synaLo.toNat, c.synaHi.toNat,
   c.epcLo.toNat, c.epcHi.toNat, c.eword]

/-- The held instance of a group (R351). -/
def HeldInst.bytes (h : HeldInst) (at' : Nat) : List (Nat × Nat × Nat) :=
  [(at' + 640, wordAddr h.pos, 8), (at' + 648, h.mask.toNat, 4), (at' + 652, h.arrived.toNat, 4)] ++
    (lanesOf h.arrived).map (fun i => (at' + 656 + 4 * i, (h.vals.getD i 0).toNat, 4))

/-- A group's record (R351). -/
def Group.bytes (g : Group) (at' : Nat) : List (Nat × Nat × Nat) :=
  let held := (g.held.find? (fun h => h.arrived ≠ 0)).toList.flatMap (fun h => h.bytes at')
  [(at', g.pos.pa.toNat, 8), (at' + 8, g.pos.w, 1), (at' + 9, g.stack.length, 1), (at' + 10, g.xnum, 2), (at' + 12, g.em.toNat, 4),
   (at' + 16, g.x.toNat, 4)] ++
    ((List.range 9).zip g.csr.words).map (fun x => (at' + 24 + 4 * x.1, x.2, 4)) ++
    ((List.range g.stack.length).zip g.stack.reverse).flatMap (fun x => x.2.bytes (at' + 64 + 16 * x.1)) ++
    laneIds.map (fun i => (at' + 576 + 2 * i, g.icount.getD i 0, 2)) ++ held ++
    (List.range g.v.length).map (fun n => (at' + 784 + n,
      tagCode (g.vReg n).tag + 16 * (g.vReg n).full.toNat + 32 * (g.vReg n).err.isSome.toNat, 1)) ++
    (List.range g.s.length).map (fun n => (at' + 848 + n, 16 * (g.sReg n).full.toNat + 32 * (g.sReg n).err.isSome.toNat, 1)) ++
    (List.range g.v.length).flatMap (fun n => laneIds.map (fun i => (at' + 1024 + 128 * n + 4 * i, (g.vLane n i).toNat, 4))) ++
    (List.range g.s.length).map (fun n => (at' + 1024 + 128 * g.v.length + 4 * n, (g.sVal n).toNat, 4))

/-- The records of the groups, one after another. -/
def groupBytes : List (Nat × Group) → Nat → List (Nat × Nat × Nat)
  | [], _ => []
  | x :: r, at' => x.2.bytes at' ++ groupBytes r (at' + x.2.recBytes)

/-- The tail entries of a group, by kind (R351): pending words, errored registers, deferred faults. -/
def State.tailOf (s : State) (t : Nat) (x : Nat × Group) : List (Nat × Nat × Nat × Nat × Nat × Nat) :=
  let g := x.2
  let adr := fun (f : FaultInfo) => (f.addr.getD 0).toNat
  ((s.parked t).filter (fun o => o.2.gid == x.1)).map (fun o => (1, g.gnum, 0, 0, 0, wordAddr o.2.pos)) ++
    g.errored.map (fun e => (2, g.gnum, e.1.toNat * 128 + e.2.1, 0, (syndromeOf e.2.2 false).toNat, adr e.2.2)) ++
    g.deferred.map (fun d => (3, g.gnum, 0, d.info.cls.code, (syndromeOf d.info false).toNat, adr d.info))

/-- The tail (R351). -/
def State.tailBytes (s : State) (t at' : Nat) : List (Nat × Nat × Nat) :=
  let l := (s.groupsOf t).flatMap (s.tailOf t)
  ((List.range l.length).zip l).flatMap (fun x =>
    let a := at' + 16 * x.1
    let (k, n, r, c, y, p) := x.2
    [(a, k, 1), (a + 1, n, 1), (a + 2, r, 1), (a + 3, c, 1), (a + 4, y, 4), (a + 8, p, 8)])

/-- The scale section (R351). -/
def Team.scaleBytes (t : Team) (at' : Nat) : List (Nat × Nat × Nat) :=
  (List.range t.ascale.length).map (fun i => (at' + i, (t.ascale.getD i 0).toNat, 1)) ++
    (List.range t.bscale.length).map (fun i => (at' + 512 + i, (t.bscale.getD i 0).toNat, 1)) ++ [(at' + 1024, t.mode, 1)] ++
    (List.range t.tiles.length).map (fun i => (at' + 1025 + i, tagCode ((t.tiles.getD i { cells := [], tag := .raw }).tag), 1))

/-- The tiles (R351). -/
def Team.tileBytes (t : Team) (at' : Nat) : List (Nat × Nat × Nat) :=
  ((List.range t.tiles.length).zip t.tiles).flatMap (fun x => x.2.cells.map (fun c => (at' + 65536 * x.1 + 4 * c.1, c.2.toNat, 4)))

/-- Memory with the image of a team at its place (R350, R351). -/
def State.imageMem (s : State) (t area : Nat) : Memory :=
  let tm := s.team t
  let (a, b, c, d, e, n) := s.sections t
  let its := s.itemsOf t
  let m := putAll (Memory.clear s.mem area n) (s.imageHead t area ++ groupBytes (s.groupsOf t) (area + 256))
  let m1 := Memory.copy m (scratchKey t) (area + a) (256 * tm.kernel.scratch)
  let m2 := if tm.kernel.tiles = 0 then m1 else putAll m1 (tm.tileBytes (area + b) ++ tm.scaleBytes (area + c))
  putAll m2 (((List.range its.length).zip its).map (fun x => (area + d + 4 * x.1, x.2.toNat, 4)) ++ s.tailBytes t (area + e))

/-- The lines of an image, and the apertures that their movement takes (R158, R159). -/
def imageLines (area n : Nat) : List Nat := (List.range ((n + 63) / 64)).map (fun k => area + 64 * k)
def State.imageUnits (s : State) (area n : Nat) (writes : Bool) : List (Nat × Nat) :=
  sumUnits ((imageLines area n).flatMap (fun a =>
    (sliceOf a, 1) :: if !writes && s.absent a then [(768 + sliceOf a, 1)] else []))

/-- The lines of an image, moved to memory or from it, each charged to the team's context (R141, R147). -/
def State.moveImage (t area n : Nat) (writes : Bool) (s : State) : State :=
  let tm := s.team t
  let f := tm.cluster / 8
  (imageLines area n).foldl (fun s a =>
    let miss := !writes && s.absent a
    let hops := s.hopsTo t (sliceOf a)
    let ev := some (s.inReplay t)
    let s1 := (s.charge tm.ctx f [(17, 1)] ev).chargeShared tm.ctx f 16
      ((9, if writes then hops else 2 * hops) :: if miss then [] else [(8, 1)]) ev
    let s2 := if miss then s1.chargeShared tm.ctx f 17 [(10, 1)] ev else s1
    (if writes then s2.clearBad (lineOf a) else s2).bringLine tm.ctx a .normal none writes) s

/-! ### Saves (R75, R76, R350) -/

/-- The steps of operations that a save cancels. -/
def parkedSteps (l : List Nat) : Ev → Bool
  | .conditionMonitorTest o _ => l.contains o
  | .waitcPoll o _ => l.contains o
  | .longLatencyCompletion o => l.contains o
  | _ => false

/-- A group as its image holds it: its pending words stand in it, and it holds no loop buffer (R58, R75, R222). -/
def Group.park (pend : List (Nat × MemOp)) (x : Nat × Group) : Nat × Group :=
  (x.1, { x.2 with pend := (pend.filter (fun o => o.2.gid == x.1)).map (fun o => o.2.pos), loopBuf := none, stopped := false })

/-- What a cancelled operation's service has cost so far is charged, and it stands as it was issued (R75, R352). -/
def State.payParked (s : State) (id : Nat) : State :=
  match SMap.find s.ops id with
  | some o =>
    (match o.kind with
     | .waitc _ =>
       (s.paySvc o ((o.lanes.filter (fun r => !r.paid)).flatMap (fun r => r.cost))).modOp id (fun o =>
         { o with lanes := o.lanes.map (fun r => { r with st := .cleared, res := 0, cost := [], paid := false }) })
     | _ => s)
  | none => s

/-- Operations cancelled to be issued again at the restore: they are charged, and the units forget them (R75, R352). -/
def State.park (l : List Nat) (s : State) : State :=
  let s1 := l.foldl State.payParked (s.unpost (parkedSteps l))
  { s1 with
    mons := s1.mons.filter (fun m => m.queue.isSome || !l.contains m.op)
    merges := (s1.merges.map (MergeEntry.forget l.contains)).filter (fun m => !m.tags.isEmpty)
    apers := s1.apers.map (fun x => (x.1, x.2.forget l.contains)) }

/-- A saved team. -/
def Team.save (img : SavedTeam) (items : List Word) (e now : Nat) (t : Team) : Team :=
  { t with st := .saved, stopAt := none, saved := some img, items := items, elapsed := e, since := now }

/-- Whether every group of a team that stops for a fault has stopped (R338). -/
def State.allStopped (s : State) (t : Nat) : Bool :=
  match (s.team t).stopAt with | some x => Nat.ble x (s.cycle (.facets (s.team t).part)) | none => true

/-- Whether every group of a team has stood at its boundary through a cycle, so that a fault there would have been taken; of a team stopped for a
fault none is taken (R337, R352). -/
def State.faultless (s : State) (t : Nat) : Bool :=
  let tm := s.team t
  tm.stopAt.isSome || tm.groups.all (fun i => (s.grp i).deferred.isEmpty && Nat.blt (s.grp i).wake (s.cycle (.facets tm.part)))

/-- Whether a save may be taken: everything has completed that is not cancelled, every group has stopped, and no fault is to be taken first (R75,
R338, R352). -/
def State.saveReady (s : State) (t : Nat) : Bool := !s.engaged t s.parks && s.allStopped t && s.faultless t

/-- The save of a team: the image is written and charged, and the core is free (R75, R76, R147, R350). -/
def State.saveTeam (t area : Nat) (s : State) : State :=
  let tm := s.team t
  let pend := s.parked t
  let n := s.imageBytes t
  let img : SavedTeam := { area := area, groups := (s.groupsOf t).map (Group.park pend),
                           queue := (s.cluster tm.cluster).queue.filter (fun w => w.team == t) }
  let items := s.itemsOf t
  let s0 := s.moveImage t area n true
  let s1 := s0.writeSpan (s0.imageMem t area) area n (some tm.ctx)
  let s2 := ((s1.park (pend.map Prod.fst)).leaveCore t).modCluster tm.cluster (ClusterSt.forget t)
  let s3 := { s2 with halves := s2.halves.filter (fun h => !tm.groups.contains h.gid) }
  ((s3.modTeam t (Team.save img items (s.elapsed tm) s.now)).unpost (pageSteps t)).tuneHalves

/-- A team is saved once it may be, no page of its image is being copied, and its virtual function has the apertures for its image (R75, R158,
R448). -/
def saveStep (t area : Nat) (ev : Ev) (eff : State → State) (s : State) : Host.Outcome State Fault Refusal :=
  if !s.saveReady t || !s.spanFree area (s.imageBytes t) then .next (s.verd .held)
  else (s.drawUnits (s.vfOf (s.team t).ctx) t 0 (s.imageUnits area (s.imageBytes t) true) ev).run (fun s => eff (s.saveTeam t area)) s

/-- TEAM_SAVE (R75, R76, R350). -/
def execTeamSave (t area : Nat) (s : State) : Host.Outcome State Fault Refusal :=
  if (s.team t).st != .saving then evStep false false id s else saveStep t area (.teamSave t area) id s

/-- A save begins: no group of the team issues any more, and its halves cease to count (R75, R289). -/
def State.beginSave (t area : Nat) (s : State) : State :=
  ((s.modTeam t (fun x => { x with st := .saving })).tuneHalves).post 1 (.teamSave t area)

/-- A team that runs is saved, or the pass of its replay is run again (R137, R364, R453). -/
def State.saveFor (t : Nat) (s : State) : State :=
  if (s.team t).st != .running && (s.team t).st != .draining then s
  else if s.inReplay t then s.rerunPass (s.team t).part
  else s.tick.beginSave t (Config.saveArea s.ticket)

/-- MONITOR_SAVE: the monitor saves a stopped team; it will go on from its boundary. No save starts while an activation is
pending (R345, R440). -/
def execMonitorSave (t area : Nat) (s : State) : Host.Outcome State Fault Refusal :=
  evStep ((s.team t).awaits && (s.team t).st == .faulted) (!s.boot.savesHeld)
    (fun s => (s.modTeam t (fun x => { x with reports := [] })).beginSave t area) s

/-! ### The choice of a pre-emption (R346, R347) -/

/-- The ways of R346. -/
inductive Way where
  | drain | flush | save
  deriving DecidableEq, Repr

/-- The causes of a request: higher priority, facet pre-emption, partition reset, the hold limit, an attach-miss, a page fault. The last
three always save (R346). -/
def alwaysSaves (cause : Nat) : Bool := Nat.ble 3 cause

/-- SAVEBW of a facet: 64 until firmware sets it (R346). -/
def State.savebw (s : State) (f : Nat) : Nat := SMap.getD s.savebws f 64

/-- Sest (R346). -/
def State.saveTicks (s : State) (t : Nat) : Nat :=
  let bw := s.savebw ((s.team t).cluster / 8)
  (s.imageBytes t + bw - 1) / bw

/-- A save that is longer than the bound of its request is reported (R346). -/
def State.lateSave (t bound : Nat) (s : State) : State := if Nat.blt bound (s.saveTicks t) then s.tell .saveLate t else s

/-- The way of a pre-emption of a team with a latency bound (R346). -/
def State.wayOf (s : State) (t cause bound : Nat) : Way :=
  let tm := s.team t
  let k := tm.kernel
  let e := s.elapsed tm
  if alwaysSaves cause then .save
  else if k.dur != 0 && !(s.ctx tm.ctx).stopd && Nat.ble (k.dur - e) bound then .drain
  else if k.restart && !tm.dirty && Nat.blt e (2 * s.saveTicks t) then .flush
  else .save

/-- The segments of a facet that is pre-empted for a team are evicted, each once every team that holds it is saved, wherever it runs (R364). -/
def State.evictFacet (f t : Nat) (s0 : State) : State :=
  let held := fun (x : Nat × Seg) => x.2.st == .resident &&
    (if x.2.chip then (List.range x.2.units).any (fun k => (s0.chipBank x.2 (1024 * k)).1 == f) else x.2.cluster / 8 == f)
  let s := (((s0.segs.filter held).flatMap (fun x => x.2.attached)).eraseDups.filter (· != t)).foldl (fun s u => s.saveFor u) s0
  let here := s.segs.filter (fun x => x.2.st == .resident &&
    (if x.2.chip then (List.range x.2.units).any (fun k => (s.chipBank x.2 (1024 * k)).1 == f) else x.2.cluster / 8 == f))
  here.foldl (fun s x => if s.agenda.any (fun a => match a.2 with | .segmentEvictionStart i _ => i == x.1 | _ => false) then s
    else s.post 0 (.segmentEvictionStart x.1 Machine.evictFacet)) s

/-- The pre-emption of a team in its way (R346, R347, R453). -/
def State.preempt (t cause bound area : Nat) (s : State) : State :=
  let s := if cause = 1 then s.evictFacet ((s.team t).cluster / 8) t else s
  match s.wayOf t cause bound with
  | .drain => s.modTeam t (fun x => { x with st := .draining })
  | w =>
    if s.inReplay t then s.rerunPass (s.team t).part
    else if w = .flush then ((s.modTeam t (fun x => { x with st := .flushing })).tuneHalves).post 0 (.teamFlush t)
    else
      (s.lateSave t bound).beginSave t area

/-- PREEMPTION_REQUEST: of a team that runs or drains; a save waits while an activation is pending (R346, R440). -/
def execPreemptionRequest (t cause bound area : Nat) (s : State) : Host.Outcome State Fault Refusal :=
  let tm := s.team t
  evStep ((SMap.find s.teams t).isSome && (tm.st == .running || tm.st == .draining))
    (!(s.boot.savesHeld && (s.wayOf t cause bound == .save || cause == 1) && !s.inReplay t)) (State.preempt t cause bound area) s

/-! ### The flush (R347) -/

/-- A team of a node given back to it, ahead of those formed later. -/
def Node.giveBack (recs : List (List Word)) (n : Node) : Node := { n with formed := recs :: n.formed, active := true }

/-- A context whose flushed team comes first, before those flushed earlier. -/
def Ctx.flushedFirst (l k : Nat) (c : Ctx) : Ctx := { c with flushed := (l, k) :: c.flushed }

/-- TEAM_FLUSH: once nothing is outstanding, a WAITC or an XCHG neither, the team is discarded, to be dispatched first among its context's
teams (R347). -/
def execTeamFlush (t : Nat) (s : State) : Host.Outcome State Fault Refusal :=
  evStep ((s.team t).st == .flushing) (!s.busy t && s.allStopped t && s.faultless t) (fun s =>
    let tm := s.team t
    let s1 := (s.discardWork t).removeTeam t
    let graph := match s.launch tm.launch with | some l => l.graph | none => false
    (s1.modLaunch tm.launch (fun l =>
      if graph then { l.modNode tm.node (Node.giveBack tm.recs) with line := tm.node :: l.line }
      else { l with again := tm.teamid :: l.again })).modCtx tm.ctx (Ctx.flushedFirst tm.launch (if graph then tm.node else tm.teamid))) s

/-! ### Attach-misses (R348, R367) -/

/-- Whether a team is bound to its cluster (R77, R367). -/
def State.bound (s : State) (tm : Team) : Bool :=
  tm.kernel.pair || tm.kernel.cmem != 0 ||
    tm.attach.any (fun i => match SMap.find s.segs i with | some g => !g.chip | none => false)

/-- Whether a segment of `units` has room on a cluster. -/
def State.roomOn (s : State) (cl units : Nat) : Bool := (lowestFree (s.takenCm cl) cmBytes (unitBytes units)).isSome

/-- Whether an attach that missed cannot be resolved, so that its word takes a segment error (R367). -/
def State.missFails (s : State) (tm : Team) (g : Seg) : Bool :=
  !g.chip && s.bound tm &&
    (match g.st with
     | .resident => g.cluster != tm.cluster && (!g.attached.isEmpty || !s.roomOn tm.cluster g.units)
     | .mirrored => (s.restorePlace g tm.cluster).isNone
     | _ => false)

/-- The clusters of a partition, ascending. -/
def State.clustersOf (s : State) (p : Nat) : List Nat := (facetsOf (s.part p).facets).flatMap (fun f => (List.range 8).map (8 * f + ·))

/-- The cluster on which a segment is restored for a team that is not bound: its former one, else the lowest with room; a reserved segment's own
(R365, R367). -/
def State.missCluster (s : State) (tm : Team) (g : Seg) : Option Nat :=
  (tm.cluster :: s.clustersOf tm.part).find? (fun c => (s.restorePlace g c).isSome)

/-- Whether the segment of an attach that missed finds room now. -/
def State.missRoom (s : State) (tm : Team) (g : Seg) : Bool :=
  if g.chip then (s.restorePlace g 0).isSome else (s.missCluster tm g).isSome

/-- The attaches of a team that missed take a segment error, and the team goes on (R367). -/
def State.failMiss (t : Nat) (s : State) : State :=
  ((s.ops.filter (fun x => x.2.team == t && x.2.missed)).foldl
    (fun s x => s.failOp x.1 (x.2.faultAt .segmentError 0 0 none)) (s.modTeam t (fun x => { x with missSeg := none }))).resumeTeam t

/-- The save of a team whose attach missed begins: it is resident no more (R289, R348). -/
def State.beginMiss (t area : Nat) (s : State) : State :=
  ((s.modTeam t (fun x => { x with st := .saving })).tuneHalves).post 1 (.attachMissReplay t area)

/-- ATTACH_MISS_REPLAY: the team is saved with the SEGATT pending, to be restored where its segment will be; a save longer than the
request's bound, and a lack of room, are reported (R346, R348, R367; log entry 22). -/
def execAttachMissReplay (t area : Nat) (s : State) : Host.Outcome State Fault Refusal :=
  let tm := s.team t
  let seg := match tm.missSeg with | some i => SMap.find s.segs i | none => none
  let fails := match seg with | some g => s.missFails tm g | none => false
  if tm.st = .saving && tm.missSeg.isSome then saveStep t area (.attachMissReplay t area) (fun s1 =>
    let s2 := if Nat.blt (Config.preemptBound s.ticket) (s.saveTicks t) then s1.tell .saveLate t else s1
    match seg with
    | some g => if g.st == .mirrored && !s.missRoom tm g then s2.tell .noRoom t else s2
    | none => s2) s
  else if tm.st != .missed then evStep false false id s
  else if fails then evStep true (s.saveReady t) (State.failMiss t) s
  else if s.inReplay t then evStep true (s.saveReady t && !s.boot.savesHeld) (State.rerunPass tm.part) s
  else evStep true (!s.boot.savesHeld) (State.beginMiss t area) s

/-! ### Page faults (R349, R415) -/

/-- Whether all reports of a team are of pages that may be resolved, and unsent. -/
def Team.pageWaits (tm : Team) : Bool :=
  (tm.st == .faulted || tm.st == .saved) && !tm.reports.isEmpty &&
    tm.reports.all (fun r => !r.sent && pageable r.info tm.crec.pgpol)

/-- Whether the page of a report translates now. -/
def State.pageBack (s : State) (t : Nat) (r : Report) : Bool :=
  match r.info.addr with
  | none => true
  | some a => match s.placeOf t r.gnum r.info.lane a 1 .hint with
    | .fault .translation _ => false
    | _ => true

def State.pagesBack (s : State) (t : Nat) : Bool := (s.team t).reports.all (s.pageBack t)

/-- The engine words of a team that have halted at a page are made again as a whole (R349). -/
def State.rerunEngines (t : Nat) (s : State) : State :=
  let cl := (s.team t).cluster
  let again := fun (k : Copy) => { k with halt := false, xfers := acpXfers k.ends k.size }
  let mine := s.copies.filter (fun x => x.2.team == t && x.2.halt)
  let s1 := mine.foldl (fun s x => { s with copies := SMap.set s.copies x.1 (again x.2) }.post 0 (.copyLineTransfer x.1)) s
  if (s1.cluster cl).queue.any (fun w => w.team == t && w.halt) then
    let go := fun (w : MxWord) => if w.team = t then { w with halt := false } else w
    (s1.modCluster cl (fun c => { c with queue := c.queue.map go })).callMatrix cl t
  else s1

/-- PAGE_FAULT_REPLAY: the page is resolved and the word issues again (R349). -/
def execPageFaultReplay (t : Nat) (s : State) : Host.Outcome State Fault Refusal :=
  let tm := s.team t
  evStep (tm.st == .faulted && tm.pageWaits) (s.saveReady t && s.pagesBack t) (fun s => (s.rerunEngines t).resumeTeam t) s

/-- PFHOLD_EXPIRY: a page that is not resolved in time; the team is saved, and restored once it is (R346, R349). -/
def execPfholdExpiry (t area : Nat) (s : State) : Host.Outcome State Fault Refusal :=
  let tm := s.team t
  if !(tm.st == .faulted && tm.pageWaits) then evStep false false id s
  else if s.boot.savesHeld then .next (s.verd .held)
  else if s.inReplay t then evStep true (s.saveReady t) (State.rerunPass tm.part) s
  else saveStep t area (.pfholdExpiry t area) (fun s1 =>
    if Nat.blt (Config.preemptBound s.ticket) (s.saveTicks t) then s1.tell .saveLate t else s1) s

/-- Whether a report is of a page request that awaits the host (R415). -/
def Report.asks (r : Report) : Bool := r.info.cls == .translation && r.info.cause == 1

/-- Whether a team's page request is one of the 512 that its function may have outstanding: fewer were made before it (R415). -/
def State.pageAsked (s : State) (t : Nat) : Bool :=
  let f := fun (k : Nat) (r : Report) => r.tick * 4294967296 + k
  match (s.team t).reports.find? Report.asks with
  | some r =>
    let mine := s.teams.filter (fun x => s.vfOf x.2.ctx == s.vfOf (s.team t).ctx)
    Nat.blt ((mine.flatMap (fun x => x.2.reports.filter (fun q => q.asks && Nat.blt (f x.1 q) (f t r)))).length) 512
  | none => false

/-- A team without the reports of page requests that the host has granted. -/
def Team.granted (t : Team) : Team := { t with reports := t.reports.filter (fun r => r.info.cause != 1) }

/-- PAGE_REQUEST_RESPONSE: a granted request lets the word issue again, a refused one is reported as the fault; a request beyond the 512 of its
function waits (R349, R415). -/
def execPageRequestResponse (t : Nat) (granted : Bool) (s : State) : Host.Outcome State Fault Refusal :=
  let tm := s.team t
  evStep (tm.pageWaits && tm.reports.any Report.asks) (s.pageAsked t && (tm.st == .saved || s.saveReady t)) (fun s =>
    if granted then
      let s1 := { s with hosted := s.hosted + 1 }.modTeam t Team.granted
      if tm.st == .faulted && (s1.team t).reports.isEmpty then (s1.rerunEngines t).resumeTeam t else s1
    else ((s.failEngines t).unpost (pageSteps t)).post 0 (.faultReport t)) s

/-! ### Arrivals from a partner team (R293, R297, R298) -/

/-- The barrier word of a saved team also lies in its image (R298, R351). -/
def State.imageBar (t bar : Nat) (s : State) : State :=
  match (s.team t).saved with
  | some i =>
    let at' := i.area + 256 + (i.groups.map (fun x => x.2.recBytes)).foldl (· + ·) 0 + 8 * bar
    s.writeSpan (Memory.writeN s.mem at' (s.barWord t bar).toNat 8) at' 8 (some (s.team t).ctx)
  | none => s

/-- Whether the partner of a team is still to be dispatched, or again (R286, R347). -/
def State.mateDue (s : State) (t : Nat) : Bool :=
  let tm := s.team t
  let k := mateId tm.teamid
  match s.launch tm.launch with
  | some l => l.again.contains k || (Nat.ble l.next k && Nat.blt k l.teams)
  | none => false

/-- PEER_ARRIVAL: once its release has been performed, a BARR.peer of team `t` arrives at the barrier of the partner, where that has not
ended; a partner that awaits its dispatch is waited for. Its fault is deferred, and a saved team's phase completes only after its restore
(R286, R293, R297, R298; log entry 47). -/
def execPeerArrival (t bar : Nat) (n : Word) (g : Nat) (pos : Pos) (s : State) : Host.Outcome State Fault Refusal :=
  let owed := (s.team t).barOwed.any (fun b => b.1 == 64 + 32 * g + bar)
  evStep (SMap.find s.teams t).isSome (!owed && ((s.mateOf t).isSome || !s.mateDue t)) (fun s =>
    match s.mateOf t with
    | none => s
    | some m =>
      match barArrive (s.bar m bar) n.toNat with
      | .ok x =>
        let s1 := (s.setBar m bar x).imageBar m bar
        if s1.phaseOver m bar then s1.post 0 (.barrierPhaseComplete m bar) else s1
      | .error c =>
        if (SMap.find s.groups g).isSome then
          s.post 0 (.deferredFaultReport g
            { cls := c, cause := 0, lane := 0, addr := none, src := pos, cons := false, defer := true, tcode := 0 })
        else s) s

end Sys2Proof.Machine
end

