-- ==== Sys2Proof/Machine/Placement.lean ====
section
/-! DEFINITION. Dispatch and placement: what a core and a cluster have free, where a team fits, which team comes next, the state of a
dispatched team, the restore of a saved one, and the moves that make room (R16 to R19, R57, R58, R61, R77, R148, R155, R156, R298,
R364 to R367, R379, R395, R400, R408, R432, R433, R473, R474). -/

namespace Sys2Proof.Machine

/-! ### What is free (R18, R19, R47, R379, R474) -/

/-- The budgets of a team's groups in their order (R16). -/
def Kernel.needs (k : Kernel) : List (Nat × Nat) :=
  List.replicate k.pgrp (k.pvreg, k.psreg) ++ List.replicate k.cgrp (k.cvreg, k.csreg)

/-- A sub-core: its free vector and scalar registers and the slots taken (R18). -/
structure SubFree where
  v : Nat
  s : Nat
  used : List Nat

def State.subFree (s : State) (core sc : Nat) : SubFree :=
  let gs := s.groups.filter (fun x => x.2.coreId == core && x.2.subc == sc)
  { v := 512 - (gs.map (fun x => x.2.v.length)).foldl (· + ·) 0, s := 1024 - (gs.map (fun x => x.2.s.length)).foldl (· + ·) 0,
    used := gs.map (fun x => x.2.slot) }

/-- The lowest number below `n` that is not taken. -/
def lowestSlot (n : Nat) (used : List Nat) : Option Nat := (List.range n).find? (fun i => !used.contains i)

/-- Whether a group of a budget fits a sub-core. -/
def SubFree.fits (x : SubFree) (v sc : Nat) : Bool := Nat.ble v x.v && Nat.ble sc x.s && (lowestSlot 16 x.used).isSome

/-- The sub-core with the most free vector registers among those with room, ties to the lower (R19). -/
def bestSub (v sc : Nat) (l : List SubFree) : Option Nat :=
  (List.range l.length).foldl (fun b i =>
    match l[i]? with
    | some x =>
      if x.fits v sc then
        (match b with
         | some j => (match l[j]? with | some y => if Nat.blt y.v x.v then some i else b | none => some i)
         | none => some i)
      else b
    | none => b) none

/-- The places of groups, in their order: sub-core and slot each, where all fit (R19). A group takes the lowest free of the 16 slots of its
sub-core, which the spec leaves open (DESIGN CHOICE, log entry 3). -/
def assign : List (Nat × Nat) → List SubFree → Option (List (Nat × Nat))
  | [], _ => some []
  | (v, sc) :: r, l =>
    match bestSub v sc l with
    | some i =>
      (match l[i]? with
       | some x =>
         (match lowestSlot 16 x.used with
          | some k => (assign r (l.set i { v := x.v - v, s := x.s - sc, used := k :: x.used })).map (fun q => (i, k) :: q)
          | none => none)
       | none => none)
    | none => none

def State.assignOn (s : State) (core : Nat) (needs : List (Nat × Nat)) : Option (List (Nat × Nat)) :=
  assign needs ((List.range 4).map (s.subFree core))

/-- The free vector registers of a core. -/
def State.coreFree (s : State) (core : Nat) : Nat := ((List.range 4).map (fun i => (s.subFree core i).v)).foldl (· + ·) 0

/-- The teams that hold their place on a core, and on a cluster. -/
def State.onCore (s : State) (core : Nat) : List Team := (s.teams.map Prod.snd).filter (fun t => t.resident && t.coreId == core)
def State.onCluster (s : State) (cl : Nat) : List Team := (s.teams.map Prod.snd).filter (fun t => t.resident && t.cluster == cl)

/-- The places of a core's item queue that the ITEMPUT words of sets in clearance have still to fill (R47, R333). -/
def State.itemsKept (s : State) (core : Nat) : Nat :=
  ((s.snaps.filter (fun x => x.2.snap.coreId == core && x.2.words.any (fun w => match w.2 with | .itemput .. => true | _ => false))).map
    (fun x => countOf x.2.snap.em)).foldl (· + ·) 0

/-- Whether a team fits a core: its groups, its scratchpad and its items (R47, R400). -/
def State.fitsCore (s : State) (core : Nat) (k : Kernel) (items : Nat) : Bool :=
  (s.assignOn core k.needs).isSome &&
    Nat.ble (((s.onCore core).map (fun t => 256 * t.kernel.scratch)).foldl (· + ·) (256 * k.scratch)) 196608 &&
    (items == 0 || Nat.ble ((s.core core).items.length + s.itemsKept core + items) 256)

/-- The team slots taken on a cluster (R379). -/
def State.teamSlots (s : State) (cl : Nat) : List Nat := ((s.onCluster cl).filter (fun t => t.kernel.tiles != 0)).map (fun t => t.tslot)

/-- Whether a cluster is on, with the tiles that a team needs (R400, R432). -/
def State.fitsCluster (s : State) (cl : Nat) (k : Kernel) : Bool :=
  (s.cluster cl).power == .on && Nat.ble (((s.onCluster cl).map (fun t => t.kernel.tiles)).foldl (· + ·) k.tiles) 16

/-- The units of a team's lane-private area, and those taken in its context's pool (R474). -/
def Kernel.laneUnits (k : Kernel) : Nat := (128 * (k.pgrp + k.cgrp) * k.priv + 65535) / 65536
def State.laneTaken (s : State) (c : Nat) : List (Nat × Nat) :=
  ((s.teams.map Prod.snd).filter (fun t => t.ctx == c && t.kernel.priv != 0 && t.st != .ended)).map (fun t => (t.lpOff, t.kernel.laneUnits))

/-- The offset of a team's lane-private area, or of the second of a pair (R474). -/
def State.laneOff (s : State) (c : Nat) (k : Kernel) (pool : Nat) (more : List (Nat × Nat)) : Option Nat :=
  if k.priv = 0 then some 0 else lowestFree (more ++ s.laneTaken c) pool k.laneUnits

/-- The best core among clusters: the most free vector registers, ties to the lower cluster, then the lower core (R400). -/
def State.bestCore (s : State) (cls : List Nat) (k : Kernel) (items : Nat) (cm : Nat → Bool) : Option (Nat × Nat) :=
  let cores := (cls.filter (fun c => s.fitsCluster c k && cm c)).flatMap (fun c => (List.range 12).map (fun i => (c, i)))
  (cores.filter (fun x => s.fitsCore (12 * x.1 + x.2) k items)).foldl (fun b x =>
    match b with
    | some y => if Nat.blt (s.coreFree (12 * y.1 + y.2)) (s.coreFree (12 * x.1 + x.2)) then some x else b
    | none => some x) none

/-! ### Context records (R408) -/

/-- The record of a context in its table. -/
def ctxRecOf (x gen : Nat) : CtxRec :=
  { ptroot := x / 2 ^ 448, winbase := x / 2 ^ 384 % 2 ^ 64, winlen := x / 2 ^ 368 % 2 ^ 16, pasid := x / 2 ^ 348 % 2 ^ 20, gen := gen,
    vf := x / 2 ^ 334 % 64, rb := x / 2 ^ 329 % 32, pgpol := x / 2 ^ 327 % 4, valid := x.testBit 326, lpbase := x / 2 ^ 285 % 2 ^ 41,
    lpsize := x / 2 ^ 261 % 2 ^ 24 }

/-- The place of a context's entry, and its record with the current generation of its PASID (R403, R408). -/
def State.entryOf (s : State) (p c : Nat) : Nat := (s.part p).ctxtab + 64 * (c % 1024)
def State.readCtx (s : State) (p c : Nat) : CtxRec :=
  let x := Memory.readN s.mem (s.entryOf p c) 64
  ctxRecOf x (s.genOf p (x / 2 ^ 348 % 2 ^ 20))

/-- Whether a record may be used: it is valid and its virtual function is the partition's. -/
def State.recOk (s : State) (p : Nat) (r : CtxRec) : Bool := r.valid && (s.part p).vfs.testBit r.vf

/-! ### Candidates (R155, R156, R347, R400) -/

/-- A team that awaits its place: of a grid, of a node, or saved. -/
inductive Cand where
  | grid (l k : Nat)
  | node (l n : Nat)
  | saved (t : Nat)
  deriving DecidableEq, Repr

/-- The number in `n` bytes of a team's image. -/
def State.imageAt (s : State) (t o n : Nat) : Nat := Memory.readN s.mem (((s.team t).saved.getD { area := 0, groups := [], queue := [] }).area + o) n

/-- The sizes and offsets that a team's descriptor, with the counts of its image, gives the image: of its sections and its end (R347,
R351). -/
def Kernel.imageMap (k : Kernel) (items tail : Nat) : List Nat :=
  let a := 256 + (k.needs.map (fun x => 1024 + 128 * x.1 + 4 * x.2)).foldl (· + ·) 0
  let b := a + 256 * k.scratch
  let c := b + 65536 * k.tiles
  let d := c + (if k.tiles = 0 then 0 else 1088)
  let e := d + 4 * items
  [a, if k.tiles = 0 then 0 else b, if k.tiles = 0 then 0 else c, d, e, e + 16 * tail]

/-- Whether the front end restores a team's image: the monitor knows its layout, and its sizes, offsets and counts agree with the
descriptor (R350, R351). -/
def State.imageOk (s : State) (t : Nat) : Bool :=
  let k := (s.team t).kernel
  s.boot.layouts.contains (s.imageAt t 0 2) && s.imageAt t 36 1 == k.pgrp + k.cgrp &&
    [s.imageAt t 64 4, s.imageAt t 68 4, s.imageAt t 72 4, s.imageAt t 76 4, s.imageAt t 80 4, s.imageAt t 48 4] ==
      k.imageMap (s.imageAt t 84 2) (s.imageAt t 86 2)

/-- Whether a saved team awaits its restore: its pages are there, no report awaits the monitor, and its image has not been refused (R349,
R350, R351). -/
def State.mayRestore (s : State) (t : Nat) : Bool :=
  (s.team t).st == .saved && s.pagesBack t && (s.team t).reports.all (fun r => !r.sent) &&
    !(s.monlog.contains (.imageRefused, t) && !s.imageOk t)

/-- The saved teams of a launch that may be restored, by TEAMID. -/
def State.savedOf (s : State) (l : Nat) : List (Nat × Team) :=
  (s.teams.filter (fun x => x.2.launch == l && s.mayRestore x.1)).foldr (fun x r =>
    r.takeWhile (fun y => Nat.blt y.2.teamid x.2.teamid) ++ x :: r.dropWhile (fun y => Nat.blt y.2.teamid x.2.teamid)) []

/-- The teams of a launch that may come next, in order: the saved, those to be dispatched again, the node teams in the order of their formation,
the lowest TEAMID (R347, R400). -/
def State.candsOf (s : State) (l : Nat) (x : Launch) : List Cand :=
  (s.savedOf l).map (fun y => Cand.saved y.1) ++ x.again.map (Cand.grid l) ++ x.line.eraseDups.map (Cand.node l) ++
    (if !x.graph && Nat.blt x.next x.teams then [Cand.grid l x.next] else [])

/-- Whether a launch comes before another of its context: the higher PRIO, then the earlier accepted (R400). -/
def Launch.before (a b : Launch) : Bool := Nat.blt b.prio a.prio || (a.prio == b.prio && Nat.blt a.order b.order)

/-- The flushed team of a context that comes first of all its teams (R347). -/
def State.firstOf (s : State) (c : Nat) : Option Cand :=
  (s.ctx c).flushed.findSome? (fun x => match s.launch x.1 with
    | some l => if l.graph then (if l.line.contains x.2 then some (.node x.1 x.2) else none)
        else (if l.again.contains x.2 then some (.grid x.1 x.2) else none)
    | none => none)

/-- The launches of a context that have a team to place. -/
def State.waiting (s : State) (c : Nat) : List (Nat × Launch) := s.launches.filter (fun x => x.2.ctx == c && !(s.candsOf x.1 x.2).isEmpty)

/-- The teams of a context in the order in which they come, a flushed one before all others, then launch after launch; the first of them, and
the highest PRIO with one (R347, R400). -/
def State.teamsNext (s : State) (c : Nat) : List Cand :=
  let ls := (s.waiting c).foldr (fun x r => r.takeWhile (fun y => y.2.before x.2) ++ x :: r.dropWhile (fun y => y.2.before x.2)) []
  (s.firstOf c).toList ++ ls.flatMap (fun x => s.candsOf x.1 x.2)
def State.nextOf (s : State) (c : Nat) : Option Cand := (s.teamsNext c).head?
def State.topPrio (s : State) (c : Nat) : Nat := ((s.waiting c).map (fun x => x.2.prio)).foldl max 0

/-- A ready context (R148, R155, R400). -/
def State.ctxReady (s : State) (p c : Nat) : Bool :=
  let k := s.ctx c
  k.live && k.part == p && k.cap != 0 && !k.stopd && !k.tdown && !(s.waiting c).isEmpty && s.recOk p (s.readCtx p c)

/-- The order in which the front end considers contexts: one passed over for FB periods alone, else those of the highest PRIO by least
FAIR (R155, R156, R400). -/
def State.ctxOrder (s : State) (p : Nat) : List Nat :=
  let ready := (s.ctxIds p).filter (s.ctxReady p)
  match ready.filter (fun c => Nat.ble (s.part p).fb (s.ctx c).passed) with
  | c :: r => [r.foldl (fun b y => if Nat.blt (s.ctx b).passed (s.ctx y).passed then y else b) c]
  | [] =>
    let top := (ready.map s.topPrio).foldl max 0
    (ready.filter (fun c => s.topPrio c == top)).foldr (fun c r =>
      r.takeWhile (fun y => Nat.blt (s.ctx y).fair (s.ctx c).fair) ++ c :: r.dropWhile (fun y => Nat.blt (s.ctx y).fair (s.ctx c).fair)) []

/-! ### Where a team may go (R365 to R367, R400, R473) -/

/-- The segments on a launch's attach list that exist, with their entries (R366). -/
def State.listed (s : State) (x : Launch) : List (Nat × Seg) :=
  x.kernel.segNames.filterMap (fun n => s.segNamed x.part (s.vfOf x.ctx) n.1)

/-- The number of units that a resident segment of the chip scratchpad has in a facet. -/
def State.unitsIn (s : State) (g : Seg) (f : Nat) : Nat :=
  ((List.range g.units).filter (fun k => (chipPlace (s.part g.part) (g.off + unitBytes k)).1 == f)).length

/-- The number with the greatest weight, ties to the first. -/
def heaviest (w : Nat → Nat) : List Nat → Option Nat
  | [] => none
  | x :: r => some (r.foldl (fun b y => if Nat.blt (w b) (w y) then y else b) x)

/-- The clusters that R366 leaves to a launch's teams: that of the most bytes of its resident .cm segments where it lists any, the facet of
the most bytes of its .chip segments, or any. -/
def State.launchClusters (s : State) (x : Launch) : List Nat :=
  let res := ((s.listed x).map Prod.snd).filter (fun g => g.st == .resident)
  let all := s.clustersOf x.part
  if x.kernel.segNames.any (fun n => !n.2) then
    (heaviest (fun c => ((res.filter (fun g => !g.chip && g.cluster == c)).map (fun g => g.units)).foldl (· + ·) 0) all).toList
  else if !x.kernel.segNames.isEmpty then
    (match heaviest (fun f => (res.map (fun g => s.unitsIn g f)).foldl (· + ·) 0) (facetsOf (s.part x.part).facets) with
     | some f => (List.range 8).map (8 * f + ·)
     | none => all)
  else all

/-- Whether a launch holds its cluster-memory allocation on a cluster, or may take it there (R473). -/
def State.cmFits (s : State) (x : Launch) (k : Kernel) (cl : Nat) : Bool :=
  k.cmem = 0 ||
    match x.cmSegs.find? (fun y => y.1 == cl) with
    | some y => (match SMap.find s.segs y.2 with | some g => g.st == .resident | none => false)
    | none => s.roomOn cl k.cmem && Nat.blt (s.segCount x.part (s.vfOf x.ctx)) 1024

/-- The initial items of a team (R390). -/
def Launch.items (x : Launch) (k : Nat) : List Word :=
  if x.itemCnt = 0 then []
  else ((List.range x.itemPer).filter (fun j => Nat.blt (k * x.itemPer + j) x.itemCnt)).map (fun j =>
    BitVec.ofNat 32 (x.itemBase + k * x.itemPer + j))

/-- The other team of a pair: on the device, or still to be dispatched (R286, R400). -/
def State.mateHere (s : State) (l k : Nat) : Option (Nat × Team) := s.teams.find? (fun y => y.2.launch == l && y.2.teamid == mateId k)
def Launch.owes (x : Launch) (k : Nat) : Bool := x.again.contains k || Nat.ble x.next k

/-- A place of a team: its TEAMID, cluster, core and lane-private offset. -/
structure Spot where
  k    : Nat
  cl   : Nat
  core : Nat
  lp   : Nat

/-- The place of one grid team among clusters, beside the lane-private areas of others. -/
def State.spot (s : State) (x : Launch) (pool : Nat) (cls : List Nat) (k : Nat) (more : List (Nat × Nat)) : Option Spot :=
  match s.bestCore cls x.kernel (x.items k).length (s.cmFits x x.kernel), s.laneOff x.ctx x.kernel pool more with
  | some (c, i), some o => some { k := k, cl := c, core := i, lp := o }
  | _, _ => none

/-- The places of a grid team; a pair goes to clusters 2j and 2j + 1 together, one of them among those that its segments leave it, and one whose
mate is on the device to the cluster beside it (R366, R400; DEDUCED, log entry 47). -/
def State.placeGrid (s : State) (l : Nat) (x : Launch) (k pool : Nat) : List Spot :=
  if !x.kernel.pair then (s.spot x pool (s.launchClusters x) k []).toList
  else
    let cls := s.clustersOf x.part
    let bind := s.launchClusters x
    let at' := fun (i : Nat) => (cls[i]?).toList
    match s.mateHere l k with
    | some y =>
      let i := (cls.takeWhile (· != y.2.cluster)).length
      (s.spot x pool (at' (mateId i)) k []).toList
    | none =>
      if !x.owes (mateId k) then (s.spot x pool cls k []).toList
      else
        let a := k / 2 * 2
        (((List.range (cls.length / 2)).filter (fun j => (at' (2 * j) ++ at' (2 * j + 1)).any bind.contains)).findSome? (fun j =>
          match s.spot x pool (at' (2 * j)) a [] with
          | some q => (s.spot x pool (at' (2 * j + 1)) (a + 1) [(q.lp, x.kernel.laneUnits)]).map (fun r => [q, r])
          | none => none)).getD []

/-- The clusters on which a saved team may be restored (R77, R365, R367). -/
def State.savedClusters (s : State) (tm : Team) : List Nat :=
  let all := s.clustersOf tm.part
  if s.bound tm then [tm.cluster]
  else match tm.missSeg with
    | some i => (match SMap.find s.segs i with
      | some g => if !g.chip && g.st == .resident then [g.cluster] else all
      | none => all)
    | none => all

/-! ### Segments that must move first (R364 to R367, R473) -/

/-- A segment that must be restored, with the cluster, or evicted to move; or one that waits for another, or for room. -/
inductive Need where
  | restore (i cl : Nat)
  | evict (i : Nat)
  | wait
  | full

/-- The segments that a saved team's restore waits for (R365, R367). -/
def State.savedNeeds (s : State) (tm : Team) : List Need :=
  let mine := tm.attach.filterMap (fun i => match SMap.find s.segs i with
    | some g => if g.st == .resident then none else if g.st == .mirrored then some (.restore i tm.cluster) else some .wait
    | none => none)
  let miss := match tm.missSeg with
    | none => []
    | some i => match SMap.find s.segs i with
      | none => []
      | some g => match g.st with
        | .resident => if !g.chip && s.bound tm && g.cluster != tm.cluster && !s.missFails tm g then [.evict i] else []
        | .mirrored =>
          if s.missFails tm g then []
          else if g.chip then [.restore i 0]
          else if s.bound tm then [.restore i tm.cluster]
          else (match s.missCluster tm g with | some c => [.restore i c] | none => [.full])
        | _ => [.wait]
  mine ++ miss

/-- The cluster on which a mirrored .cm segment of a launch is restored: that of the launch's teams, else the lowest with room; a reserved
segment's own (R365, R366). -/
def State.restoreCluster (s : State) (x : Launch) (g : Seg) : Option Nat :=
  ((s.launchClusters x).head?.toList ++ s.clustersOf x.part).find? (fun c => (s.restorePlace g c).isSome)

/-- The segments that a launch's teams wait for: those on its list, one restore after another, and its allocation in the chip scratchpad
(R366, R473). -/
def State.launchNeeds (s : State) (l : Nat) (x : Launch) : List Need :=
  let own := (s.segs.filter (fun y => y.2.launch == some l && y.2.chip))
  let away := (s.listed x ++ own).filter (fun y => y.2.st != .resident)
  match away.find? (fun y => y.2.st == .mirrored) with
  | some y =>
    if y.2.chip then [.restore y.1 0]
    else (match s.restoreCluster x y.2 with | some c => [.restore y.1 c] | none => [.full])
  | none => away.map (fun _ => Need.wait)

/-- A cluster-memory allocation of a launch that has been evicted, and the cluster where it may be restored: its own, else the lowest with
room that holds none (R366, R473). -/
def State.allocBack (s : State) (l : Nat) (x : Launch) : Option (Nat × Nat) :=
  (s.segs.filter (fun y => y.2.launch == some l && !y.2.chip && y.2.st == .mirrored)).findSome? (fun y =>
    ((y.2.cluster :: s.clustersOf x.part).find? (fun c =>
      (s.restorePlace y.2 c).isSome && (c == y.2.cluster || !x.cmSegs.any (fun z => z.1 == c)))).map (fun c => (y.1, c)))

/-- A move that a context pays for is started (R147, R364, R366). -/
def State.start (c : Nat) (n : Need) (s : State) : State :=
  match n with
  | .restore i cl => ((s.modSeg i (fun g => { g with cause := c + 2 })).beginRestore i cl).getD s
  | .evict i =>
    if s.agenda.any (fun x => match x.2 with | .segmentEvictionStart j _ => j == i | _ => false) then s
    else s.post 0 (.segmentEvictionStart i (evictFor c))
  | .wait => s
  | .full => s

/-- A launch's allocation comes back on a cluster (R473). -/
def Launch.moveAlloc (i cl : Nat) (x : Launch) : Launch :=
  { x with cmSegs := x.cmSegs.map (fun y => if y.2 = i then (cl, i) else y) }
def State.startAlloc (l c i cl : Nat) (s : State) : State :=
  match (s.modSeg i (fun g => { g with cause := c + 2 })).beginRestore i cl with
  | some t => t.modLaunch l (Launch.moveAlloc i cl)
  | none => s

/-- The highest PRIO of a virtual function's launches, one more than it; 0 where it has none (R364). -/
def State.vfPrio (s : State) (p vf : Nat) : Nat :=
  ((s.launches.filter (fun x => x.2.part == p && s.vfOf x.2.ctx == vf)).map (fun x => x.2.prio + 1)).foldl max 0

/-- The victim of an eviction for room: resident segments of virtual functions with a lower priority, the oldest detach first, ties to the
lower mirror address; those with attached teams only where no other is left, in the same order, which the spec gives for the others alone (R364;
DESIGN CHOICE, log entry 47). -/
def State.victimSeg (s : State) (x : Launch) (chip : Bool) : Option (Nat × Seg) :=
  let cand := s.segs.filter (fun y => y.2.part == x.part && y.2.chip == chip && y.2.st == .resident && y.2.zeroing.isNone &&
    Nat.ble (s.vfPrio x.part y.2.vf) x.prio)
  let pick := fun (l : List (Nat × Seg)) => match l with
    | [] => none
    | a :: r => some (r.foldl (fun b y =>
        if Nat.blt y.2.detach b.2.detach || (y.2.detach == b.2.detach && Nat.blt y.2.mirror b.2.mirror) then y else b) a)
  match pick (cand.filter (fun y => y.2.attached.isEmpty)) with
  | some y => some y
  | none => pick cand

/-- Room is made for a launch: a victim is evicted, its attached teams saved first, one segment at a time (R137, R364). -/
def State.pressure (x : Launch) (chip : Bool) (s : State) : State :=
  let going := fun (i : Nat) => s.agenda.any (fun y => match y.2 with | .segmentEvictionStart j _ => j == i | _ => false)
  let moving := s.segs.any (fun y => y.2.part == x.part && y.2.chip == chip && (y.2.st == .evicting || (y.2.st == .resident && going y.1)))
  if moving || s.boot.savesHeld then s
  else match s.victimSeg x chip with
    | some (i, g) =>
      let s1 := g.attached.foldl (fun s t => s.saveFor t) s
      s1.start x.ctx (.evict i)
    | none => s

/-! ### The state of a dispatched team (R57, R58, R61, R71, R395, R473, R474) -/

/-- The registers of a group at dispatch: v0 counts the lanes, `args` come first in the scalars, the rest is 0 (R57). -/
def dispatchV (n gnum : Nat) : List VReg :=
  (List.range n).map (fun k =>
    if k = 0 then { lanes := laneIds.map (fun i => BitVec.ofNat 32 (i + 32 * gnum)), tag := .i32, full := true, err := none }
    else VReg.zero)
def dispatchS (n : Nat) (args : List Word) : List SReg := (List.range n).map (fun k => SReg.of (args.getD k 0))

/-- The lanes of consumer group `j` of a node team that receive no record (R395). -/
def idleLanes (j n : Nat) : Word := maskOf (fun i => Nat.ble n (32 * j + i))

/-- A group as it is dispatched (R57, R58, R395). -/
def newGroup (k : Kernel) (t gnum cl core sub slot now : Nat) (args : List Word) (recs : Option Nat) : Group :=
  let prod := Nat.blt gnum k.pgrp
  let x := match recs with | some n => if prod then 0 else idleLanes (gnum - k.pgrp) n | none => 0
  { Group.zero with
    team := t, gnum := gnum, facet := cl / 8, cluster := cl, core := core, subc := sub, role := (!prod).toNat, slot := slot,
    dispTick := now, base := k.codebase, v := dispatchV (if prod then k.pvreg else k.cvreg) gnum,
    s := dispatchS (if prod then k.psreg else k.csreg) args, em := ~~~x, x := x, pos := { pa := k.codebase, w := 0 },
    icount := laneIds.map (fun _ => 0), retired := false }

/-- The offset of records in a team's scratchpad, and their bytes (R395). -/
def Kernel.recOfs (k : Kernel) : Nat := (8 * k.barriers + 63) / 64 * 64
def putRecords (base size : Nat) : List (List Word) → Memory → Memory
  | [], m => m
  | r :: l, m => putRecords (base + size) size l (putAll m (((List.range r.length).zip r).map (fun x => (base + 4 * x.1, x.2.toNat, 4))))

/-- A launch's cluster-memory allocation on a cluster: held already, or created and zeroed (R147, R473). -/
def State.allocCm (l : Nat) (x : Launch) (cl : Nat) (s : State) : State × Option Nat :=
  if x.kernel.cmem = 0 then (s, none)
  else match x.cmSegs.find? (fun y => y.1 == cl) with
    | some y => (s, some y.2)
    | none =>
      let id := s.ticket
      let g := Seg.new x.part (s.vfOf x.ctx) x.ctx none (some l) false x.kernel.cmem cl
        ((lowestFree (s.takenCm cl) cmBytes (unitBytes x.kernel.cmem)).getD 0) (Config.mirrorArea id) none
      let s1 := ({ s with segs := SMap.set s.segs id g }.tick.zeroSeg g).chargeZero g (cl / 8)
      (s1.modLaunch l (fun y => { y with cmSegs := y.cmSegs ++ [(cl, id)] }), some id)

/-- The offset of a segment, where there is one. -/
def State.ofsOf (s : State) (i : Option Nat) : Option Nat :=
  match i with | some i => (SMap.find s.segs i).map (fun g => g.off) | none => none

/-- A unit of HBM4 becomes 0 as an access under a slot reads it (R417, R450, R474). -/
def State.zeroUnit (a : Nat) (slot : Option Nat) (s : State) : State :=
  (List.range 1024).foldl (fun s i => s.putKey (a / 64 + i) slot) { s with mem := Memory.clear s.mem a 65536 }

/-- A team's lane-private area at 0, as a replay has it, whatever keys its lines were stored under (R450, R474). -/
def State.zeroLanes (t : Team) (s : State) : State :=
  if t.kernel.priv = 0 then s
  else (List.range t.kernel.laneUnits).foldl (fun s k =>
    let va := (t.crec.lpbase + t.lpOff + k) * 65536
    match s.walk t.crec va with
    | some (e, sh) => if pteHost e then s else s.zeroUnit (pteFrame e + va % 2 ^ sh) (if pteEnc e then some (pteKey e) else none)
    | none => s) s

/-- What a team of a launch is dispatched with. -/
structure Start where
  spot : Spot
  node : Nat
  kernel : Kernel
  args : List Word
  recs : Option (List (List Word))

/-- A context of which a team has been dispatched (R156). -/
def Ctx.sentNow (r : CtxRec) (c : Ctx) : Ctx := { c with passed := 0, crec := r }

/-- A team is dispatched: its context's record is read, its groups are placed and initialised, and it holds its launch's allocations
(R57, R58, R61, R390, R395, R400, R408, R473, R474). -/
def State.newTeam (l : Nat) (x : Launch) (d : Start) (s0 : State) : State :=
  let k := d.kernel
  let cl := d.spot.cl
  let (s, cm) := if x.graph then (s0, none) else s0.allocCm l x cl
  let t := s.ticket
  let n := k.pgrp + k.cgrp
  let gids := (List.range n).map (fun i => t + 1 + i)
  let rec' := s.readCtx x.part x.ctx
  let places := (s.assignOn (12 * cl + d.spot.core) k.needs).getD []
  let tm : Team :=
    { Team.zero with
      ctx := x.ctx, crec := rec', part := x.part, launch := l, teamid := d.spot.k, cluster := cl, core := d.spot.core, groups := gids,
      kernel := k, st := .running, tiles := List.replicate k.tiles { cells := [], tag := .raw }, track := List.replicate k.tiles .raw,
      tslot := if k.tiles = 0 then 0 else (lowestSlot 16 (s.teamSlots cl)).getD 0, since := s.now,
      cmofs := s.ofsOf cm, chofs := s.ofsOf x.chipSeg, lpOff := d.spot.lp, recs := d.recs.getD [], node := d.node }
  let g := fun (i : Nat) => let p := places.getD i (0, 0)
    (t + 1 + i, newGroup k t i cl d.spot.core p.1 p.2 s.now d.args (d.recs.map List.length))
  let core := s.core (12 * cl + d.spot.core)
  let s1 := { s with
    ticket := t + 1 + n
    teams := SMap.set s.teams t tm
    groups := ((List.range n).map g).foldl (fun (m : SMap Group) (y : Nat × Group) => SMap.set m y.1 y.2) s.groups
    mem := putRecords (scratchKey t + k.recOfs) k.record (d.recs.getD []) (Memory.clear s.mem (scratchKey t) 1048576) }
  let s2 := s1.setCore (12 * cl + d.spot.core) { core with items := core.items ++ (x.items d.spot.k).map (fun w => (t, w)) }
  let s3 := (cm.toList ++ x.chipSeg.toList).foldl (fun s i => s.attach i t) s2
  let s4 := (s3.modCtx x.ctx (Ctx.sentNow rec')).modPart x.part (fun p =>
    { p with dispatched := if p.dispatched.contains x.ctx then p.dispatched else p.dispatched ++ [x.ctx] })
  if x.replay then s4.zeroLanes tm else s4

/-! ### The restore of a saved team (R77, R298, R348, R350) -/

/-- A team at its new place (R73, R77, R346, R379). -/
def Team.restore (cl core slot now : Nat) (t : Team) : Team :=
  { t with cluster := cl, core := core, tslot := slot, st := .running, saved := none, items := [], elapsed := 0, since := now, reports := [],
           missSeg := none, stopAt := none, mxFree := 0 }

/-- A group at its new place, with its image's contents; it issues once the end of its barriers' phases has been judged (R73, R77, R298). -/
def Group.restore (cl core sub slot now wake : Nat) (g : Group) : Group :=
  { g with facet := cl / 8, cluster := cl, core := core, subc := sub, slot := slot, dispTick := now, pend := [], loopBuf := none,
           yielded := none, wake := wake }

/-- A position from the address of a word (R351). -/
def posOf (x : Nat) : Pos := { pa := BitVec.ofNat 64 (x / 4 * 4), w := x % 4 }

/-- The control registers from their words (R351). -/
def Csrs.ofWords (f : Nat → Nat) : Csrs :=
  { hndLo := BitVec.ofNat 32 (f 0), hndHi := BitVec.ofNat 32 (f 1), hnden := BitVec.ofNat 32 (f 2),
    sync := BitVec.ofNat 32 (f 3 % 2147483648), hact := (f 3).testBit 31, synaLo := BitVec.ofNat 32 (f 4), synaHi := BitVec.ofNat 32 (f 5),
    epcLo := BitVec.ofNat 32 (f 6), epcHi := BitVec.ofNat 32 (f 7), eword := f 8 % 4 }

/-- Stack entry `i` from the bottom as the image has it; what a blocked path awaits is not in its bytes (R351; log entry 33). -/
def stackAt (rd : Nat → Nat → Nat) (old : List StackEntry) (i : Nat) : StackEntry :=
  let a := 64 + 16 * i
  let was := old[i]?
  { kind := if rd (a + 12) 1 = 1 then .path else .join, mask := BitVec.ofNat 32 (rd (a + 8) 4),
    pos := { pa := BitVec.ofNat 64 (rd a 8), w := rd (a + 14) 1 % 4 },
    block := if rd (a + 13) 1 % 2 = 1 then was.bind (fun e => e.block) else none, path := (was.map (fun e => e.path)).getD [] }

/-- The held instance that the image has (R351). -/
def heldAt (rd : Nat → Nat → Nat) (old : List HeldInst) : List HeldInst :=
  if rd 640 8 = 0 then []
  else [{ pos := posOf (rd 640 8), mask := BitVec.ofNat 32 (rd 648 4), arrived := BitVec.ofNat 32 (rd 652 4),
          count := ((old.find? (fun h => h.pos == posOf (rd 640 8))).map (fun h => h.count)).getD 0,
          vals := laneIds.map (fun i => BitVec.ofNat 32 (rd (656 + 4 * i) 4)),
          aux := ((old.find? (fun h => h.pos == posOf (rd 640 8))).map (fun h => h.aux)).getD [] }]

/-- A group as its record in the image has it; what the record has no bytes for stands as it was saved (R76, R351; log entry 33). -/
def Group.ofImage (rd : Nat → Nat → Nat) (g : Group) : Group :=
  let nv := g.v.length
  { g with
    pos := { pa := BitVec.ofNat 64 (rd 0 8), w := rd 8 1 % 4 }
    xnum := rd 10 2
    em := BitVec.ofNat 32 (rd 12 4)
    x := BitVec.ofNat 32 (rd 16 4)
    csr := Csrs.ofWords (fun k => rd (24 + 4 * k) 4)
    stack := ((List.range (min 32 (rd 9 1))).map (stackAt rd g.stack.reverse)).reverse
    icount := laneIds.map (fun i => rd (576 + 2 * i) 2)
    held := heldAt rd g.held ++ g.held.filter (fun h => h.arrived != 0 && some h.pos != (g.held.find? (fun h => h.arrived != 0)).map (fun h => h.pos))
    v := (List.range nv).map (fun n =>
      let b := rd (784 + n) 1
      { lanes := laneIds.map (fun i => BitVec.ofNat 32 (rd (1024 + 128 * n + 4 * i) 4)), tag := (tagOf? (b % 16)).getD .raw,
        full := b.testBit 4, err := if b.testBit 5 then (g.vReg n).err else none })
    s := (List.range g.s.length).map (fun n =>
      let b := rd (848 + n) 1
      { val := BitVec.ofNat 32 (rd (1024 + 128 * nv + 4 * n) 4), full := b.testBit 4, pend := false,
        err := if b.testBit 5 then (g.sReg n).err else none }) }

/-- The groups of a saved team as its image has them, record after record (R351). -/
def State.imageGroups (s : State) (t : Nat) : List (Nat × Group) → Nat → List (Nat × Group)
  | [], _ => []
  | x :: r, o => (x.1, x.2.ofImage (fun a n => s.imageAt t (o + a) n)) :: State.imageGroups s t r (o + x.2.recBytes)

/-- The words that are not 0 in `n` bytes of memory, by number. -/
def cellsAt (m : Memory) (a n : Nat) : List (Nat × Word) :=
  (List.filter (fun c => Nat.ble a c.1 && Nat.blt c.1 (a + n)) m).foldl (fun t c =>
    SMap.set t ((c.1 - a) / 4) (SMap.getD t ((c.1 - a) / 4) 0 + BitVec.ofNat 32 (c.2.toNat * 256 ^ ((c.1 - a) % 4)))) []

/-- A team with the tiles, scales, batch count and flag of its image (R76, R350, R351). -/
def Team.ofImage (m : Memory) (area tiles scales : Nat) (t : Team) : Team :=
  let rd := fun (o n : Nat) => Memory.readN m (area + o) n
  let t1 := { t with batch := rd 38 2, dirty := (rd 0 8).testBit 16 }
  if t.kernel.tiles = 0 then t1
  else
    let tag := fun (k : Nat) => (tagOf? (rd (scales + 1025 + k) 1 % 16)).getD Tag.raw
    let ts := (List.range t.kernel.tiles).map (fun k =>
      { cells := cellsAt m (area + tiles + 65536 * k) 65536, tag := tag k : Tile })
    { t1 with tiles := ts, track := ts.map (fun x => x.tag), mode := rd (scales + 1024) 1 % 4, trackMode := rd (scales + 1024) 1 % 4,
              ascale := Memory.bytes m (area + scales) 512, bscale := Memory.bytes m (area + scales + 512) 512 }

/-- A WAITC that is issued again tests every lane's word anew, at its address as it translates now; one that no longer clears fails in service
(R75, R274, R333, R336). -/
def State.rewait (id : Nat) (o : MemOp) (s : State) : State :=
  let ls := o.lanes.map (fun r => (r, s.clearLane id o r))
  match firstFault ls with
  | some (r, c, k) => s.failOp id (o.faultAt c k r.lane (some r.addr))
  | none => ls.foldl (fun s x => (s.modLane id x.1.lane (fun r =>
      match x.2 with
      | .ok key home slot _ => { r with st := .cleared, key := key, home := home, slot := slot }
      | _ => { r with st := .cleared })).post 0 (.conditionMonitorTest id x.1.lane)) s

/-- A pending word is issued again: charged as at its issue, and served. It is issued with the addresses, comparand or source values and mask of
its first issue, which stand beside the image: the spec does not say whether they are read from the restored registers (R75, R288, R348; DESIGN
CHOICE, log entry 33). -/
def State.reissue (id : Nat) (o : MemOp) (s : State) : State :=
  let n := countOf o.mask
  let s1 := s.charge o.ctx (s.grp o.gid).facet (match o.kind with | .xchg => [(0, 1), (2, n)] | _ => [(0, 1)])
    (some (s.inReplay o.team))
  match o.kind with
  | .waitc _ => s1.rewait id o
  | .xchg => s1.post 0 (.exchangeHalfArrival o.gid)
  | .segatt => (s1.modOp id (fun o => o.markLanes .formed)).serveSegatt id
  | _ => s1

/-- The place on which a saved team would be restored: none while one of its segments must move first. -/
def State.restoreSpot (s : State) (t : Nat) : Option (Nat × Nat) :=
  let tm := s.team t
  if !s.mayRestore t || !(s.savedNeeds tm).isEmpty then none
  else s.bestCore (s.savedClusters tm) tm.kernel tm.items.length (fun _ => true)

/-- The engine words that a restored team's pages had held up are queued at its new place, and made again as a whole (R349). -/
def State.requeue (t cl core : Nat) (q : List MxWord) (s : State) : State :=
  let c := 12 * cl + core
  let here := s.copies.filter (fun x => x.2.team == t)
  let s1 := here.foldl (fun s x =>
    let k := s.core c
    { s.setCore c { k with ranges := k.ranges ++ acpLocks x.1 t x.2.size x.2.ends } with
      copies := SMap.set s.copies x.1 { x.2 with core := c } }) s
  let s2 := q.foldl (fun s w =>
    let k := s.core c
    s.setCore c { k with ranges := k.ranges ++ w.kind.locks w.id t }) s1
  (s2.modCluster cl (fun k => { k with queue := k.queue ++ q })).rerunEngines t

/-- A team has come to another place, and its context's record is read again (R408). -/
def Team.moveTo (cl core : Nat) (r : CtxRec) (t : Team) : Team := { t with cluster := cl, core := core, crec := r }

/-- A saved team is restored: its groups hold what their image holds and issue next the sets that followed their boundaries; its pending words
are issued again, and phases that could not complete while it was saved may (R76, R77, R147, R298, R348, R408). -/
def State.restoreTeam (t cl core : Nat) (s : State) : State :=
  let tm := s.team t
  let img := tm.saved.getD { area := 0, groups := [], queue := [] }
  let places := (s.assignOn (12 * cl + core) tm.kernel.needs).getD []
  let rec' := s.readCtx tm.part tm.ctx
  let wake := s.cycle (s.clockOf cl) + 1
  let recs := s.imageGroups t img.groups 256
  let gs := ((List.range recs.length).zip recs).map (fun y =>
    let p := places.getD y.1 (0, 0)
    (y.2.1, y.2.2.restore cl core p.1 p.2 s.now wake))
  let slot := if tm.kernel.tiles = 0 then 0 else (lowestSlot 16 (s.teamSlots cl)).getD 0
  let old := s.core (12 * cl + core)
  let parked := s.ops.filter (fun x => x.2.team == t)
  let items := (List.range (s.imageAt t 84 2)).map (fun k => (t, (BitVec.ofNat 32 (s.imageAt t (s.imageAt t 76 4 + 4 * k) 4) : Word)))
  let s0 := (s.modTeam t (Team.moveTo cl core rec')).moveImage t img.area (s.imageAt t 48 4) false
  let s1 := { s0 with mem := Memory.copy s0.mem (img.area + s.imageAt t 64 4) (scratchKey t) (256 * tm.kernel.scratch)
                      groups := gs.foldl (fun (m : SMap Group) (y : Nat × Group) => SMap.set m y.1 y.2) s0.groups }
  let s2 := (s1.modTeam t (fun x => (x.ofImage s.mem img.area (s.imageAt t 68 4) (s.imageAt t 72 4)).restore cl core slot s.now)).setCore
    (12 * cl + core) { old with items := old.items ++ items }
  let s3 := (s2.modCtx tm.ctx (Ctx.sentNow rec')).modPart tm.part (fun p =>
    { p with dispatched := if p.dispatched.contains tm.ctx then p.dispatched else p.dispatched ++ [tm.ctx] })
  let s4 := parked.foldl (fun s x => s.reissue x.1 x.2) (s3.requeue t cl core img.queue)
  let s5 := s4.modTeam t (fun x => { x with barWas := s4.barWords t })
  (((List.range tm.kernel.barriers).foldl (fun (s : State) b => s.barCheck t b) s5).callReady t).tuneHalves.callEnd t

/-- What is told once. -/
def State.tellOnce (k : MonKind) (n : Nat) (s : State) : State := if s.monlog.contains (k, n) then s else s.tell k n

/-- TEAM_RESTORE: an image that the front end refuses is reported and stays (R77, R158, R350, R351). -/
def execTeamRestore (t : Nat) (s : State) : Host.Outcome State Fault Refusal :=
  let img := (s.team t).saved.getD { area := 0, groups := [], queue := [] }
  if (s.team t).st != .saved then evStep false false id s
  else if !s.imageOk t then evStep true true (State.tellOnce .imageRefused t) s
  else if (s.restoreSpot t).isNone then .next (s.verd .held)
  else (s.drawUnits (s.vfOf (s.team t).ctx) t 0 (s.imageUnits img.area (s.imageAt t 48 4) false) (.teamRestore t)).run (fun s =>
    match s.restoreSpot t with
    | some (cl, core) => s.restoreTeam t cl core
    | none => s) s

/-! ### DISPATCH (R155, R156, R400) -/

/-- The active nodes of a partition: the front end has gather memory for 64 (R397). -/
def State.activeNodes (s : State) (p : Nat) : Nat :=
  ((s.launches.filter (fun x => x.2.part == p)).map (fun x => (x.2.nodes.filter (fun n => n.active)).length)).foldl (· + ·) 0

/-- Whether a node's ring may give records to its buffer (R397, R399). -/
def State.mayRefill (s : State) (p : Nat) (n : Node) : Bool :=
  !n.spill.isEmpty && Nat.blt n.count n.gcap && (n.active || Nat.blt (s.activeNodes p) 64)

/-- The refills that are possible in a partition are called (R399). -/
def State.callRefill (p : Nat) (s : State) : State :=
  (s.launches.filter (fun x => x.2.part == p && x.2.graph)).foldl (fun (s : State) (x : Nat × Launch) =>
    ((List.range x.2.nodes.length).zip x.2.nodes).foldl (fun (s : State) (y : Nat × Node) =>
      if s.mayRefill p y.2 && !s.agenda.any (fun a => a.2 == .spillRefill x.1 y.1) then s.post 0 (.spillRefill x.1 y.1) else s) s) s

/-- A node of which the oldest formed team has been dispatched (R399). -/
def Node.sent (n : Node) : Node := { n with formed := n.formed.drop 1 }

/-- A flushed team has been dispatched again. -/
def Ctx.unflush (l : Nat) (ks : List Nat) (c : Ctx) : Ctx := { c with flushed := c.flushed.filter (fun x => !(x.1 == l && ks.contains x.2)) }

/-- What the front end does for a team of a context: it is dispatched or called back, or cannot be yet. -/
def State.tryCand (c : Nat) (s : State) : Cand → Option State
  | .saved t =>
    if s.awaits (.teamRestore t) || (s.imageOk t && (s.restoreSpot t).isNone) then none else some (s.post 0 (.teamRestore t))
  | .node l n =>
    (match s.launch l with
     | some x =>
       (match x.nodes[n]? with
        | some nd =>
          let recs := nd.formed.headD []
          (match s.bestCore (s.clustersOf x.part) nd.kernel 0 (fun _ => true),
             s.laneOff x.ctx nd.kernel (s.readCtx x.part x.ctx).lpsize [] with
           | some (cl, i), some o =>
             let d : Start := { spot := { k := x.next, cl := cl, core := i, lp := o }, node := n, kernel := nd.kernel,
                                args := nd.args, recs := some recs }
             let s1 := s.newTeam l x d
             let s2 := (s1.modLaunch l (fun y =>
               { y.modNode n Node.sent with line := y.line.erase n, next := y.next + 1, teams := y.teams + 1 })).modCtx c (Ctx.unflush l [n])
             some ((s2.formTeams l).callRefill x.part)
           | _, _ => none)
        | none => none)
     | none => none)
  | .grid l k =>
    (match s.launch l with
     | some x =>
       if !(s.launchNeeds l x).isEmpty then none
       else
         let mk := fun (q : Spot) => { spot := q, node := 0, kernel := x.kernel, args := x.args, recs := none : Start }
         let spots := s.placeGrid l x k (s.readCtx x.part x.ctx).lpsize
         let ks := spots.map (fun q => q.k)
         let s1 := spots.foldl (fun s q => s.newTeam l ((s.launch l).getD x) (mk q)) s
         if spots.isEmpty then none
         else some ((s1.modLaunch l (fun y =>
           { y with again := y.again.filter (fun a => !ks.contains a),
                    next := y.next + (ks.filter (fun a => Nat.ble y.next a)).length })).modCtx c (Ctx.unflush l ks))
     | none => none)

/-- The first context in order of which a team finds a place, and of its teams the first that does (R155, R400). -/
def State.tryAll (s : State) : List Nat → Option State
  | [] => none
  | c :: r => match (s.teamsNext c).findSome? (s.tryCand c) with | some t => some t | none => State.tryAll s r

/-- A team of a lower priority is pre-empted for the core it holds, unless one is on its way off; which one and within what bound is open
(R346; log entry 22). -/
def State.preemptFor (x : Launch) (s : State) : State :=
  let lower := s.teams.filter (fun y => y.2.part == x.part && y.2.resident &&
    (match s.launch y.2.launch with | some z => Nat.blt z.prio x.prio | none => false))
  let going := lower.any (fun y => y.2.st != .running && y.2.st != .faulted) ||
    s.agenda.any (fun y => match y.2 with | .preemptionRequest _ _ _ _ => true | _ => false)
  let able := lower.filter (fun y => y.2.st == .running)
  if going then s
  else match able[Config.schedule s.ticket % able.length]? with
    | some y => s.tick.tick.post 0 (.preemptionRequest y.1 0 (Config.preemptBound s.ticket) (Config.saveArea (s.ticket + 1)))
    | none => s

/-- What a restore that a saved team needs comes to: it is started, or the monitor is told that there is no room (R367). -/
def State.startFor (t c : Nat) (n : Need) (s : State) : State :=
  match n with
  | .restore i cl => match (s.modSeg i (fun g => { g with cause := c + 2 })).beginRestore i cl with
    | some s1 => s1
    | none => s.tellOnce .noRoom t
  | .full => s.tellOnce .noRoom t
  | n => s.start c n

/-- Memory is found for a launch whose list and allocations are not all on chip: a restore, or pressure where there is no room (R364, R366,
R473). -/
def State.bringBack (c l : Nat) (x : Launch) (ns : List Need) (s : State) : State :=
  let own := s.segs.filter (fun y => y.2.launch == some l && y.2.chip)
  let stuck := (s.listed x ++ own).find? (fun y => y.2.st == .mirrored &&
    (if y.2.chip then (s.restorePlace y.2 0).isNone else (s.restoreCluster x y.2).isNone))
  match stuck with
  | some y => (s.tellOnce .noRoom l).pressure x y.2.chip
  | none => ns.foldl (fun s n => s.start c n) s

/-- Whether a launch's teams find their cluster memory somewhere: on one of its clusters, or a pair on two beside each other (R400, R473). -/
def State.hasCm (s : State) (x : Launch) (cls : List Nat) : Bool :=
  let all := s.clustersOf x.part
  if x.kernel.pair then (List.range (all.length / 2)).any (fun j =>
    match all[2 * j]?, all[2 * j + 1]? with | some a, some b => s.cmFits x x.kernel a && s.cmFits x x.kernel b | _, _ => false)
  else cls.any (fun cl => s.cmFits x x.kernel cl)

/-- What the front end starts for a context whose team finds no place: the moves of segments, room for its memory, or a core
(R346, R364 to R367, R433, R473). -/
def State.makeRoom (c : Nat) (s : State) : State :=
  match s.nextOf c with
  | some (.saved t) => (s.savedNeeds (s.team t)).foldl (fun s n => s.startFor t c n) s
  | some (.grid l _) =>
    (match s.launch l with
     | some x =>
       let ns := s.launchNeeds l x
       let cls := s.launchClusters x
       let one : Bool := match cls with | [cl] => (s.cluster cl).power != .on | _ => false
       if !ns.isEmpty then s.bringBack c l x ns
       else if one then s.tellOnce .gatedBinding l
       else if s.hasCm x cls || Nat.ble 1024 (s.segCount x.part (s.vfOf x.ctx)) then s.preemptFor x
       else match s.allocBack l x with
         | some (i, cl) => s.startAlloc l c i cl
         | none => s.pressure x false
     | none => s)
  | some (.node l _) => (match s.launch l with | some x => s.preemptFor x | none => s)
  | none => s

/-- A context's state of readiness at a tick: one that ceases to be ready is no longer passed over (R156). -/
def Ctx.keepReady (r : Bool) (c : Ctx) : Ctx := if r then c else { c with ready := false, passed := 0 }

/-- DISPATCH: once a tick, on the state as the tick finds it, the front end dispatches or restores at most one team or pair of a partition, or
starts what the next one waits for (R155, R156, R400). -/
def execDispatch (p : Nat) (s : State) : Host.Outcome State Fault Refusal :=
  evStep ((s.part p).facets != 0) true (fun s =>
    let s1 := (s.ctxIds p).foldl (fun s c => s.modCtx c (Ctx.keepReady (s.ctxReady p c))) s
    let order := s1.ctxOrder p
    let s2 := match s1.tryAll order with
      | some t => t
      | none => order.foldl (fun s c => s.makeRoom c) s1
    s2.post 1 (.dispatch p)) s

end Sys2Proof.Machine
end

