-- ==== Sys2Proof/Machine/EnergyUnit.lean ====
section
/-! DEFINITION. The energy units and the operating points: charges that land, the budget period, stops and resumes, energy records, the
correction interval, decision ticks and switch points (R138, R148 to R166, R427, R428, R440, R466, R468). -/

namespace Sys2Proof.Machine

/-! ### Stop and Resume (R149 to R153) -/

/-- The least level (R148). -/
def leastLevel : Int := -(2 ^ 63 * 256)

/-- FAIR after a charge of `u` units; its sum is kept modulo 2^64 (R154; DESIGN CHOICE, log entry 46). -/
def Ctx.share' (c : Ctx) : Nat := if c.share = 0 then 1 else c.share
def Ctx.addFair (c : Ctx) (u : Nat) : Ctx := { c with fair := (c.fair + u * 65536 / c.share') % 18446744073709551616 }
def Ctx.subFair (c : Ctx) (u : Nat) : Ctx := { c with fair := c.fair - u * 65536 / c.share' }
def Ctx.moveFair (c : Ctx) (d : Int) : Ctx := if 0 ≤ d then c.addFair d.toNat else c.subFair (-d).toNat

/-- A value in a signed total of 72 bits (R456). -/
def signed72 (x : Int) : Int := (BitVec.ofInt 72 x).toInt

/-- What lands is added to the account and taken from the level; a correction is summed apart (R138, R148, R149, R154, R161, R456). -/
def Ctx.landOne (c : Ctx) (l : Landing) : Ctx :=
  { c.moveFair l.units with
    acct := ((c.acct + l.units) % 2 ^ 72).toNat
    level := max leastLevel (c.level - l.units)
    corr := if l.corr then signed72 (c.corr + l.units) else c.corr }

/-- What has arrived at the home unit by its present cycle. -/
def State.hasLanded (s : State) (c : Nat) : List Landing :=
  (s.ctx c).arriving.filter (fun l => Nat.ble l.cyc (s.cycle (.facets (s.ctx c).part)))

/-- The units of those landings that count as energy of a replay grid, or of the context's other teams (R441, R442). -/
def energyOf (rp : Bool) (ls : List Landing) : Nat :=
  (((ls.filter (fun (l : Landing) => l.ev == some rp)).map Landing.units).foldl (· + ·) 0).toNat

/-- The charges of a context that have reached the home unit land together, and are counted (R149, R442). -/
def State.land (c : Nat) (s : State) : State :=
  let ls := s.hasLanded c
  ((s.modCtx c (fun k => { ls.foldl Ctx.landOne k with arriving := k.arriving.filter (fun l => !ls.contains l) })).countCtx c 0x19
    (energyOf false ls) false).countCtx c 0x19 (energyOf true ls) true

/-- The teams of a context. -/
def State.teamsIn (s : State) (c : Nat) : List (Nat × Team) := s.teams.filter (fun x => x.2.ctx == c)

/-- The running teams of a context with a change. -/
def State.modTeams (c : Nat) (f : Team → Team) (s : State) : State :=
  let g := fun (x : Nat × Team) => if x.2.ctx = c && x.2.st != .faulted && x.2.resident then (x.1, f x.2) else x
  { s with teams := s.teams.map g }

/-- What the home unit decides now takes effect in each facet of the partition in its cycle c + X(home, f) + 24 (R150, R152). -/
def State.spread (c : Nat) (ev : CtxFacet → Ev) (s : State) : State :=
  let p := (s.ctx c).part
  let n := s.cycle (.facets p)
  (s.part p).facetList.foldl (fun s f => s.postAt (.facets p) (n + s.cross p f + 24) (ev { ctx := c, facet := f })) s

/-- Stop (R149, R150). -/
def State.stopCtx (c : Nat) (s : State) : State :=
  (((s.modTeams c (Team.halt s.now)).modCtx c (fun k => { k with stopd := true, passes := 0 })).tuneHalves).spread c
    .stopTakesEffect

/-- Resume (R149, R152). -/
def State.resumeCtx (c : Nat) (s : State) : State :=
  (((s.modTeams c (Team.resumeAt s.now)).modCtx c (fun k => { k with stopd := false, passes := 0 })).tuneHalves).spread c
    .resumeTakesEffect

/-- The tests of a cycle: an unprogrammed bucket is not tested (R148, R149). -/
def State.testCtx (c : Nat) (boundary : Bool) (s : State) : State :=
  let k := s.ctx c
  if k.cap = 0 then s
  else if !k.stopd && k.enf && decide (k.level ≤ 0) then s.stopCtx c
  else if k.stopd && boundary && decide (k.level > k.resume * 256) then s.resumeCtx c
  else s

/-- CHARGE_ARRIVAL (R138, R149, R151, R154). -/
def execChargeArrival (c : Nat) (s : State) : Host.Outcome State Fault Refusal :=
  evStep (!(s.hasLanded c).isEmpty) true (fun s => (s.land c).testCtx c false) s

/-- STOP_TAKES_EFFECT: no group of the context in the facet issues any more (R150, R352). -/
def execStopTakesEffect (x : CtxFacet) (s : State) : Host.Outcome State Fault Refusal :=
  evStep (SMap.find s.ctxs x.ctx).isSome true (fun s =>
    s.modCtx x.ctx (fun k => { k with held := SMap.set k.held x.facet (s.cycle (.facets k.part)) })) s

/-- RESUME_TAKES_EFFECT: the context's groups in the facet issue again at the boundary at which they stopped (R53, R152). -/
def execResumeTakesEffect (x : CtxFacet) (s : State) : Host.Outcome State Fault Refusal :=
  evStep (SMap.find s.ctxs x.ctx).isSome true (fun s =>
    s.modCtx x.ctx (fun k => { k with held := SMap.erase k.held x.facet })) s

/-! ### The budget period (R149, R153, R156, R158, R165) -/

/-- The fields of an energy record that a write names (R165). -/
inductive EField where
  | level | cap | refill | resume | enf | oprt | fb | opmin | opmax | share | hold
  deriving DecidableEq, Repr

def efields : List EField := [.level, .cap, .refill, .resume, .enf, .oprt, .fb, .opmin, .opmax, .share, .hold]

/-- The signed value of 64 bits. -/
def signed64 (x : Nat) : Int := (BitVec.ofNat 64 x).toInt

/-- A pending write of a bucket field takes effect (R165). -/
def Ctx.apply (c : Ctx) (w : Nat × Nat) : Ctx :=
  match efields[w.1]? with
  | some .level => { c with level := signed64 w.2 * 256 }
  | some .cap => { c with cap := w.2 }
  | some .refill => { c with refill := w.2 }
  | some .resume => { c with resume := w.2 }
  | some .enf => { c with enf := w.2 % 2 == 1 }
  | _ => c

/-- Pending writes take effect. -/
def Ctx.applyAll (c : Ctx) : Ctx := { c.writes.foldl Ctx.apply c with writes := [] }

/-- The refill of a period, reduced while even P0 does not fit the grant (R149, R466). -/
def Ctx.refilled (scale : Option Nat) (c : Ctx) : Ctx :=
  let r := match scale with | some k => c.refill * 256 * k / 65536 | none => c.refill * 256
  { c with level := min (c.cap * 256 : Nat) (c.level + r) }

/-- PASSED after a period; its 16 bits hold 65,535 at most (R156, R165; DESIGN CHOICE, log entry 46). -/
def Ctx.passedBy (others : Bool) (mine : Bool) (c : Ctx) : Ctx :=
  if c.ready && others && !mine then { c with passed := min 65535 (c.passed + 1) } else c

/-- The teams of a context that has passed its hold limit are saved (R153). -/
def State.holdLimit (c : Nat) (s : State) : State :=
  ((s.teamsIn c).filter (fun x => x.2.st == .running || x.2.st == .draining)).foldl (fun s x =>
    s.tick.post 0 (.preemptionRequest x.1 3 (Config.preemptBound s.ticket) (Config.saveArea s.ticket))) s

/-- A context's turn at a period boundary: the written fields, the charges that land, the refill, the tests, the hold count and the
fairness count (R149, R153, R156, R165). -/
def State.boundaryOf (p c : Nat) (s : State) : State :=
  let was := (s.ctx c).stopd
  let s1 := s.modCtx c Ctx.applyAll
  let s2 := s1.land c
  let s3 := (s2.modCtx c (Ctx.refilled s.fleet.refillScale)).testCtx c true
  let s4 := if was && (s3.ctx c).stopd then s3.modCtx c (fun k => { k with passes := k.passes + 1 }) else s3
  let s5 := if (s4.ctx c).stopd && Nat.blt (s4.ctx c).hold (s4.ctx c).passes then s4.holdLimit c else s4
  let sent := (s.part p).dispatched
  s5.modCtx c (fun k => { k.passedBy (sent.any (· != c)) (sent.contains c) with ready := s5.ctxReady p c })

/-- An aperture at the start of a period (R158, R423). -/
def Aperture.restart (a : Aperture) : Aperture :=
  Aperture.draw (match a.next with
    | some (k, n) => { a with lkq := k, aper := n, left := n, next := none }
    | none => { a with left := a.aper })

/-- The partition of a virtual function; one that belongs to none counts with partition 0. -/
def State.homePart (s : State) (v : Nat) : Nat :=
  match s.parts.find? (fun x => x.2.vfs.testBit v) with | some x => x.1 | none => 0

/-- The home unit's next boundary step is its first cycle at or after the next boundary (R149, R427, R472). -/
def State.nextPeriod (p : Nat) (s : State) : State :=
  s.postAt (.facets p) (s.cycleFrom (.facets p) (Config.period - s.now % Config.period)) (.budgetPeriodBoundary p)

/-- BUDGET_PERIOD_BOUNDARY (R149, R153, R156, R158, R165). -/
def execBudgetPeriodBoundary (p : Nat) (s : State) : Host.Outcome State Fault Refusal :=
  evStep true true (fun s =>
    let s1 := (s.ctxIds p).foldl (fun s c => s.boundaryOf p c) s
    let f := fun (x : Nat × Aperture) =>
      if s.homePart (x.1 % 64) = p then (x.1, x.2.restart) else x
    ({ s1 with apers := s1.apers.map f }.modPart p (fun x => { x with dispatched := [] })).nextPeriod p) s

/-! ### Energy records (R165, R166) -/

/-- The value of a field that is in force or pending. -/
def Ctx.standing (c : Ctx) (f : Nat) (now : Nat) : Nat := SMap.getD c.writes f now

/-- Whether a write is a configuration error: RESUME at or above CAP, OPMIN above OPMAX, or FB 0 (R156, R166). -/
def Ctx.badWrite (c : Ctx) (f : EField) (v : Nat) : Bool :=
  match f with
  | .cap => Nat.ble v (c.standing 3 c.resume.toNat)
  | .resume => Nat.ble (c.standing 1 c.cap) v
  | .opmin => Nat.blt c.opmax v
  | .opmax => Nat.blt v c.opmin
  | .fb => v == 0
  | _ => false

/-- A value as its field holds it (R165). -/
def EField.clip (f : EField) (v : Nat) : Nat :=
  match f with
  | .cap => v % 2 ^ 63
  | .refill => v % 2 ^ 63
  | .level => v % 2 ^ 64
  | .resume => v % 2 ^ 64
  | .enf => v % 2
  | .oprt => v % 2
  | .fb => v % 256
  | .opmin => v % 16
  | .opmax => v % 16
  | .share => v % 65536
  | .hold => v % 256

/-- A write to a record: a bucket field waits for the next period, another takes effect at once (R165). -/
def Ctx.write (c : Ctx) (n : Nat) (f : EField) (v : Nat) : Ctx :=
  match f with
  | .oprt => { c with oprt := v == 1 }
  | .opmin => { c with opmin := v }
  | .opmax => { c with opmax := v }
  | .share => { c with share := v }
  | .hold => { c with hold := v }
  | .fb => c
  | _ => { c with writes := SMap.set c.writes n v }

/-- A context at its creation: its record is that of its table, and its front-end word is as written (R148, R402, R408). -/
def State.newCtx (c : Nat) (s : State) : State :=
  let r := s.readCtx (c / 1024) c
  { s with ctxs := SMap.set s.ctxs c { Ctx.zero with part := c / 1024, vf := r.vf, live := true, crec := r, spq := (s.ctx c).spq } }

/-- ENERGY_RECORD_WRITE: field `fld` of the record of context `c`, numbered 1,024 × partition + id; the first write to a context that does not
exist creates it (R148, R165, R166). -/
def execEnergyRecordWrite (c fld value : Nat) (s : State) : Host.Outcome State Fault Refusal :=
  match efields[fld]? with
  | none => evStep false false id s
  | some f => evStep s.configs true (fun s =>
      let s1 := if (SMap.find s.ctxs c).isSome && (s.ctx c).live then s else s.newCtx c
      let v := f.clip value
      if (s1.ctx c).badWrite f v then s1.tell .configError c
      else if f = .fb then s1.putPart (c / 1024) (fun p => { p with fb := v })
      else s1.modCtx c (fun k => k.write fld f v)) s

/-! ### Correction (R157, R160, R161) -/

/-- The group-ticks of a context's resident teams in a domain over the interval that ends now. -/
def State.liveTicks (s : State) (c dom : Nat) : Nat :=
  (((s.teamsIn c).filter (fun x => x.2.resident && (Nat.ble 16 dom || x.2.cluster / 8 == dom))).map
    (fun x => s.ticksOf (s.now - Config.correction) x.2)).foldl (· + ·) 0

/-- The ticks for which a cluster was gated in the interval (R432). -/
def State.offTicks (s : State) (cl : Nat) : Nat :=
  let c := s.cluster cl
  c.offTicks + (match c.offSince with | some a => s.now - max a (s.now - Config.correction) | none => 0)

/-- The static energy of a domain over the interval that ends now (R160, R432). -/
def State.staticOf (s : State) (dom : Nat) : Nat :=
  if Nat.ble 16 dom then Config.correction * Config.staticEnergy dom 0
  else
    let all := match s.partOfFacet dom with
      | some p => ((List.range 16).map (fun i => (s.part p).points.getD i 0 * Config.staticEnergy dom i)).foldl (· + ·) 0
      | none => Config.correction * Config.staticEnergy dom 0
    all - ((List.range 8).map (fun i => s.offTicks (8 * dom + i) *
      Config.gatedSaving (2 * (8 * dom + i) + (s.cluster (8 * dom + i)).ret.toNat))).foldl (· + ·) 0

/-- What a context's true-up is, and whether it was clamped (R161). -/
def trueUp (r : Int) (e total : Nat) : Int × Bool :=
  if total = 0 then (0, false)
  else
    let x := Int.tdiv (r * e) total
    if decide (r.natAbs * e * 8 > e * total) then (if 0 ≤ r then (e / 8 : Nat) else -(e / 8 : Nat), true) else (x, false)

/-- The idle account of a domain takes what no context was charged (R160, R161). -/
def State.addIdle (dom : Nat) (d : Int) (s : State) : State :=
  match (if Nat.ble 16 dom then none else s.partOfFacet dom) with
  | some p => s.modPart p (fun x => { x with idle := x.idle + d })
  | none => { s with fleet := { s.fleet with idle := s.fleet.idle + d } }

/-- The correction charges of one context in a domain, its static share and its true-up, which land in the cycle after the
boundary's, each a charge of its own (R154, R160, R161; DEDUCED, log entry 46). -/
def State.correctOne (c : Nat) (share : Nat) (up : Int × Bool) (s : State) : State :=
  let n := s.cycleFrom (.facets (s.ctx c).part) 0 + 1
  let s1 := (s.landAt c { cyc := n, units := share, corr := true, ev := none }).landAt c { cyc := n, units := up.1, corr := true, ev := none }
  if up.2 then (s1.modPart (s.ctx c).part (fun p => { p with drift := true })).tell .sensorDrift c else s1

/-- A context whose sums of an interval start again. -/
def Ctx.newInterval (dom : Nat) (c : Ctx) : Ctx := { c with charged := SMap.erase c.charged dom, gticks := SMap.erase c.gticks dom }

/-- The rebalance of FAIR (R157). -/
def State.rebalance (p : Nat) (s : State) : State :=
  let m := s.leastFair p none
  ((s.ctxIds p).filter s.active).foldl (fun s c => s.modCtx c (fun k => { k with fair := k.fair - m })) s

/-- A cluster whose gated ticks start again. -/
def ClusterSt.newInterval (now : Nat) (c : ClusterSt) : ClusterSt :=
  { c with offTicks := 0, offSince := c.offSince.map (fun _ => now) }

/-- CORRECTION_INTERVAL of a domain: facets 0 to 15, uncore 16, HBM 17, fabric 18. Contexts and idle account together take exactly what the
sensor integrated; what contexts that exist no more would take goes to the idle account. With the last domain FAIR is rebalanced (R157,
R160, R161; DEDUCED, log entry 46). -/
def execCorrectionInterval (dom : Nat) (s : State) : Host.Outcome State Fault Refusal :=
  evStep true true (fun s =>
    let em := Config.sensorEnergy dom (s.now / Config.correction)
    let cs := (s.ctxs.filter (fun x => x.2.live)).map Prod.fst
    let e := fun (c : Nat) => SMap.getD (s.ctx c).charged dom 0
    let g := fun (c : Nat) => SMap.getD (s.ctx c).gticks dom 0 + s.liveTicks c dom
    let ec : Nat := (cs.map e).foldl (· + ·) (SMap.getD s.fleet.gone dom 0)
    let gt := (cs.map g).foldl (· + ·) (SMap.getD s.fleet.goneTicks dom 0)
    let st := s.staticOf dom
    let r : Int := (em : Int) - (ec : Int) - (st : Int)
    let share := fun (c : Nat) => if gt = 0 then 0 else st * g c / gt
    let ups := cs.map (fun c => (c, share c, trueUp r (e c) ec))
    let given := (ups.map (fun x => (x.2.1 : Int) + x.2.2.1)).foldl (· + ·) 0
    let s1 := ups.foldl (fun s x => s.correctOne x.1 x.2.1 x.2.2) s
    let s2 := (cs.foldl (fun s c => s.modCtx c (Ctx.newInterval dom)) s1).addIdle dom ((em : Int) - ec - given)
    let f := fun (x : Nat × ClusterSt) => if x.1 / 8 = dom then (x.1, x.2.newInterval s.now) else x
    let s3 := { s2 with
      clusters := s2.clusters.map f
      fleet := { s2.fleet with gone := SMap.erase s2.fleet.gone dom, goneTicks := SMap.erase s2.fleet.goneTicks dom } }
    let s4 := if dom = 18 then (s3.parts.map Prod.fst).foldl (fun s p => s.rebalance p) s3 else s3
    s4.post (Config.correction - s.now % Config.correction) (.correctionInterval dom)) s

/-! ### Operating points (R162, R163, R427, R428, R466) -/

/-- Whether a cycle of a clock ended at or before the present tick (R428). -/
def State.isOver (s : State) (k : Clock) (n : Nat) : Bool := Nat.ble (100 * (n + 1 - s.cyc0 k)) (s.sinceSwitch * s.freq k)

/-- The requests that the home unit served in cycles that a test names stand, the latest in place of the earlier (R162, R327, R428). -/
def Ctx.hear (over' : Nat → Bool) (c : Ctx) : Ctx :=
  { c with request := (c.asks.filter (fun a => over' a.1)).foldl (fun _ a => a.2) c.request
           asks := c.asks.filter (fun a => !over' a.1) }

/-- The contexts at a decision tick (R428). -/
def State.hearAll (s : State) : State :=
  let f := fun (x : Nat × Ctx) => (x.1, x.2.hear (s.isOver (.facets x.2.part)))
  { s with ctxs := s.ctxs.map f }

/-- The highest request that stands in a partition, or its default point (R162). -/
def State.wanted (s : State) (p : Nat) : Nat :=
  match (s.ctxIds p).filterMap (fun c => if (s.ctx c).oprt then (s.ctx c).request else none) with
  | [] => (s.part p).opdef
  | a :: r => r.foldl max a

/-- The power that a domain drew over the last correction interval, in microwatts: 2^-8 pJ over 1,048,576 ns (R160, R466). -/
def State.power (s : State) (dom : Nat) : Nat := Config.sensorEnergy dom (s.now / Config.correction) * 1000 / 268435456

/-- The predicted package power at a point, in microwatts: the shared domains as measured, the facets scaled by frequency and k (R466). -/
def State.predict (s : State) (q : Nat) : Nat :=
  let k := fun (i : Nat) => freqOf i * s.scale.getD i 0
  let facet := fun (f : Nat) =>
    let now := match s.partOfFacet f with | some p => (s.part p).point | none => 0
    s.power f * k q / k now
  ((List.range 16).map facet).foldl (· + ·) (s.power 16 + s.power 17 + s.power 18)

/-- The highest point whose predicted power fits a grant in watts (R466). -/
def State.capPoint (s : State) (w : Nat) : Option Nat := (List.range 16).reverse.find? (fun q => Nat.ble (s.predict q) (w * 1000000))

/-- The grant's effect from a decision tick on: the point that it allows, and the refill's factor while not even P0 fits (R466). -/
def State.applyGrant (s : State) : State × Nat :=
  match s.fleet.grant with
  | none => (s, 15)
  | some w =>
    match s.capPoint w with
    | some q => ({ s with fleet := { s.fleet with refillScale := none } }, q)
    | none => ({ s with fleet := { s.fleet with refillScale := some (65536 * (w * 1000000) / s.predict 0) } }, 0)

/-- A partition's choice for the next switch point (R162, R428). -/
def Part.decide (want cap : Nat) (p : Part) : Part := { p with next := some (min want cap), lowered := Nat.blt cap want }

/-- The version of an image (R435). -/
def versionOf (i : Config.Image) : Nat := (Config.headerOf i.header).version % 65536

/-- `n` bytes of memory. -/
def bytesAt (m : Memory) (a n : Nat) : List Byte := (List.range n).map (fun i => BitVec.ofNat 8 (Memory.readN m (a + i) 1))

/-- The staged monitor image: its header, and its payload behind it (R435, R439). -/
def State.stagedImage (s : State) : Config.Image :=
  let a := s.boot.updStage
  let h := bytesAt s.mem a 4096
  { header := h, payload := bytesAt s.mem (a + 4096) (Config.headerOf h).length }

/-- The layout of a saved image that a new monitor does not hold, and the interface version of a pinned policy image that it does not serve
(R350, R440). -/
def State.layoutBlocked (s : State) (ver : Nat) : Option Nat :=
  (((s.teams.filter (fun x => x.2.st == .saved)).map (fun x => s.imageAt x.1 0 2)).filter
    (fun l => !(Config.layouts ver).contains l)).head?
def State.policyBlocked (s : State) (ver : Nat) : Option Nat :=
  ((s.boot.pins.map (fun x => Config.policyInterface x.2)).filter (fun v => !Config.policyKnown ver v)).head?

/-- A refused activation; BLOCKER has 16 bits (R439, R440). -/
def Boot.refuse (res blocker : Nat) (b : Boot) : Boot :=
  { b with updAct := false, updBusy := false, updResult := res, updBlocker := blocker % 65536 }

/-- A requested activation is judged (R440). -/
def State.judge (s : State) : Boot :=
  let b := s.boot
  let img := s.stagedImage
  let ver := versionOf img
  if !b.updAct then b
  else match s.layoutBlocked ver, s.policyBlocked ver with
    | some l, _ => b.refuse 3 l
    | none, some v => b.refuse 4 v
    | none, none =>
      match Config.imageCheck img with
      | 0 => { b with switchTo := some ver, savesHeld := true }
      | 3 => b.refuse 5 0
      | _ => b.refuse 2 0

/-- DECISION_TICK: the points of the next switch point, and a requested activation (R162, R428, R440, R466). -/
def execDecisionTick (s : State) : Host.Outcome State Fault Refusal :=
  evStep true true (fun s0 =>
    let s := s0.hearAll
    let (s1, cap) := s.applyGrant
    let f := fun (x : Nat × Part) => (x.1, x.2.decide (s.wanted x.1) cap)
    { s1 with parts := s1.parts.map f, boot := s.judge, ticket := s1.ticket + 1 }.post Config.switchGap .decisionTick) s

/-- A list of counts with `n` more at `i`. -/
def addAt (l : List Nat) (i n : Nat) : List Nat := (List.range 16).map (fun k => l.getD k 0 + if k = i then n else 0)

/-- The ticks at a point up to now (R458). -/
def Part.clock (now : Nat) (p : Part) : Part := { p with optime := addAt p.optime p.point (now - p.opSince), opSince := now }

/-- A partition at a switch point (R160, R163, R427, R458). -/
def Part.switch (now : Nat) (p : Part) : Part :=
  let p1 := p.clock now
  let first := now / Config.switchGap % 16 == 1
  let p2 := { p1 with
    points := addAt (if first then [] else p1.points) p1.point Config.switchGap
    cyc := p1.cyc + startsIn (freqOf p1.point) Config.switchGap }
  match p2.next with
  | some q => { p2 with point := q, next := none, capped := p2.capped || p2.lowered, lowered := false }
  | none => p2

/-- The new monitor runs, and saves may start again (R440). -/
def Boot.switch (b : Boot) : Boot :=
  match b.switchTo with
  | some v => { b with monver := v, layouts := Config.layouts v, switchTo := none, savesHeld := false, updAct := false, updBusy := false, updResult := 1 }
  | none => { b with savesHeld := false }

/-- A step that awaits a cycle, with the tick in which the cycle starts at the frequency now in force (R427, R429). -/
def State.retime (s : State) (x : When × Ev) : When × Ev :=
  match x.1.cyc with
  | some (k, n) => ({ x.1 with tick := s.tickOf k n }, x.2)
  | none => x

/-- SWITCH_POINT: the chosen points, the enabled planes and an accepted monitor take effect (R163, R427, R440, R468). -/
def execSwitchPoint (s : State) : Host.Outcome State Fault Refusal :=
  evStep true true (fun s =>
    let f := fun (x : Nat × Part) => (x.1, x.2.switch s.now)
    let fl := match s.fleet.planeNext with | some m => { s.fleet with planeen := m, planeNext := none } | none => s.fleet
    let s1 := { s with parts := s.parts.map f, boot := s.boot.switch, fleet := fl }
    { s1 with agenda := s1.agenda.map s1.retime }.post Config.switchGap .switchPoint) s

end Sys2Proof.Machine
end

