-- ==== Sys2Proof/Machine/FrontEnd.lean ====
section
/-! DEFINITION. The front end: doorbells and packets, grid and graph launches with their refusals, waits and signals, the completion of
launches, records and rings, queue mapping and the teardown of contexts (R147, R157, R356 to R358, R387 to R404, R446, R447, R473). -/

namespace Sys2Proof.Machine

/-! ### Reads and writes of the front end (R403) -/

/-- Where the front end's access for a queue leads under the queue's PASID, with the key slot; the system master is not checked against
access tables, but passes the L2's keys as any does (R403, R409, R410, R416 to R418). -/
def State.feKey (s : State) (p : Nat) (c : CtxRec) (va : Nat) (k : AccKind) : Option (Nat × Option Nat) :=
  if !c.valid then none
  else match s.walk c va with
  | none => none
  | some (e, sh) =>
    let a := pteFrame e + va % 2 ^ sh
    let slot := if pteEnc e then some (pteKey e) else none
    if !ptePermits e k || !s.slotOk (s.part p) e then none
    else if pteHost e then
      if Config.hostError s.hosted c.pasid (a / 65536) then none
      else (Config.hostPage s.hosted c.pasid (a / 65536)).map (fun h => (hostKey + h * 65536 + a % 65536, none))
    else if paOk a && !s.otherSlot a slot then some (a, slot)
    else none

/-- `n` words that the front end reads, each as an access under its page's slot finds it (R417). -/
def State.feRead (s : State) (p : Nat) (c : CtxRec) (va : Nat) : Nat → Option Nat
  | 0 => some 0
  | n + 1 =>
    match State.feRead s p c va n, s.feKey p c (va + 4 * n) .load with
    | some x, some (k, slot) => some (x + s.viewN k 4 slot * 2 ^ (32 * n))
    | _, _ => none

/-- Words that the front end reads. -/
def State.feWords (s : State) (p : Nat) (c : CtxRec) (va n : Nat) : Option (List Word) :=
  (s.feRead p c va n).map (fun x => (List.range n).map (fun i => BitVec.ofNat 32 (x / 2 ^ (32 * i))))

/-- The lines that the front end is about to use are taken back from a peer that owns them (R371). -/
def State.feTake (p : Nat) (c : CtxRec) (va n : Nat) (s : State) : State :=
  (linesOf va n).foldl (fun s l => match s.feKey p c (64 * l) .load with | some k => s.takeBack (lineOf k.1) | none => s) s

/-- A write of the front end: a captured page makes a replay unsafe, peers' copies go, monitors are tested; its line is of class normal, for no
policy operand names one (R111, R122, R273, R371, R449; DESIGN CHOICE, log entry 47). -/
def State.feWrite (ctx : Nat) (k : Nat × Option Nat) (x n : Nat) (s : State) : State :=
  ((s.foreignWrite (some ctx) (k.1 / 65536)).bringLine ctx k.1 .normal k.2 true).writeHome k.1 x n

/-! ### Queues (R387, R388, R401) -/

/-- The record under whose tables the front end acts for a context's queue: the tables of the queue's PASID, which its context has, or else
the lowest context of the partition that has it; none where no context has (R403, R408; DEDUCED, log entry 47). -/
def State.pasidRec (s : State) (p ctx pasid : Nat) : CtxRec :=
  let c := s.readCtx p ctx
  if c.pasid = pasid then c
  else (((List.range 1024).map (fun i => s.readCtx p (ctxKey p i))).find? (fun r => r.valid && r.pasid == pasid)).getD { c with valid := false }
def State.queueRec (s : State) (p : Nat) (x : Queue) : CtxRec := s.pasidRec p x.ctx x.pasid
def State.launchRec (s : State) (x : Launch) : CtxRec := s.pasidRec x.part x.ctx x.pasid

/-- The virtual function's message for a queue (R389, R414). -/
def State.interrupt (vf q : Nat) (s : State) : State := { s with msix := s.msix ++ [(vf, q % 2048)] }

/-- A queue in error: no further packet is processed, and the message is sent (R391). -/
def State.queueError (p q code : Nat) (s : State) : State :=
  let x := s.queue p q
  ((s.dropWait p q).setQueue p q { x with st := 4, err := code, wait := none }).interrupt x.vf q

/-- The next packet of a queue (R387). -/
def State.packet (s : State) (p q : Nat) : Option Nat :=
  let x := s.queue p q
  s.feRead p (s.queueRec p x) (x.ring + 64 * (x.rptr % 2 ^ x.log2)) 16

/-- Whether a queue holds a packet that may be processed: it is mapped and idle or active (R387, R388). -/
def State.fetches (s : State) (p q : Nat) : Bool :=
  let x := s.queue p q
  s.mapped p q && (x.st == 0 || x.st == 1) && x.rptr != x.wptr

/-- Whether the next packet of a queue is of a type; one that cannot be read any more is judged where its step stands (R389, R391). -/
def State.nextIs (s : State) (p q type : Nat) : Bool :=
  s.fetches p q && (match s.packet p q with | some x => fld x 0 8 == type | none => true)

/-- What a step does for the packet that it processes: one that cannot be read puts the queue in error (R391). -/
def State.withPacket (p q : Nat) (f : State → State) (s : State) : State := if (s.packet p q).isNone then s.queueError p q 5 else f s

/-- Whether launches of a queue are outstanding, so that a packet with BAR = 1 waits (R389). -/
def State.barWaits (s : State) (p q x : Nat) : Bool := fld x 8 1 == 1 && s.launches.any (fun l => l.2.part == p && l.2.queue == q)

/-- The step that processes a packet of a type. -/
def packetStep (p q : Nat) : Nat → Option Ev
  | 1 => some (.gridLaunch p q)
  | 2 => some (.graphLaunch p q)
  | 3 => some (.waitPacket p q)
  | 4 => some (.signalPacket p q)
  | _ => none

/-- Fetch: the next packet's step is called, a packet that is not yet visible is read again later, and one that cannot be fetched or has
no type puts the queue in error (R388, R391). -/
def State.fetchNext (p q : Nat) (s : State) : State :=
  let qu := s.queue p q
  let s := if s.fetches p q then s.feTake p (s.queueRec p qu) (qu.ring + 64 * (qu.rptr % 2 ^ qu.log2)) 64 else s
  if !s.fetches p q then s
  else match s.packet p q with
  | none => s.queueError p q 5
  | some x =>
    if fld x 0 8 = 0 then { s with agenda := s.agenda.filter (fun a => a.2 != Ev.fetchRetryTimer p q) }.post 65536 (.fetchRetryTimer p q)
    else match packetStep p q (fld x 0 8) with
      | some e => if s.agenda.any (fun a => a.2 == e) then s else s.post 0 e
      | none => s.queueError p q 1

/-- A packet has been accepted, or its effect is complete (R388). -/
def State.accept (p q : Nat) (s : State) : State :=
  let x := s.queue p q
  (s.setQueue p q { x with rptr := (x.rptr + 1) % 4294967296, st := 1, wait := none }).fetchNext p q

/-- DOORBELL_WRITE (R388). -/
def execDoorbellWrite (p q : Nat) (value : Word) (s : State) : Host.Outcome State Fault Refusal :=
  evStep (Nat.blt q 4096 && s.configs) (!s.queueBusy p q) (fun s =>
    let x := s.queue p q
    let s1 := if s.mapped p q then s
      else s.modPart p (fun a => { a with pending := if a.pending.contains q then a.pending else a.pending ++ [q] })
    if Nat.blt (2 ^ x.log2) ((value.toNat + 4294967296 - x.rptr) % 4294967296) then s1.queueError p q 6
    else (s1.setQueue p q { x with wptr := value.toNat }).fetchNext p q) s

/-- FETCH_RETRY_TIMER (R388). -/
def execFetchRetryTimer (p q : Nat) (s : State) : Host.Outcome State Fault Refusal :=
  evStep (s.fetches p q) (!s.queueBusy p q) (State.fetchNext p q) s

/-! ### Kernel descriptors (R356 to R358) -/

/-- The budgets that a descriptor's fields give. -/
def budgetOf (step n groups : Nat) : Nat := if groups = 0 then 0 else step * (n + 1)

/-- The kernel of a descriptor as it is read on an occasion, with its attach list from entry SEGOFS on (R356, R358; log entry 23). -/
def kernelOf (occ desc x : Nat) : Kernel :=
  let pg := fld x 186 6
  let cg := fld x 180 6
  { desc := desc, dur := fld x 448 64, codebase := BitVec.ofNat 64 (fld x 0 64), priv := fld x 272 16, scratch := fld x 256 16,
    nodes := fld x 248 8, segs := fld x 240 8, args := fld x 232 8, record := fld x 224 8, barriers := fld x 218 6, tiles := fld x 213 5,
    restart := fld x 212 1 == 1, pair := fld x 211 1 == 1, pgrp := pg, cgrp := cg, pvreg := budgetOf 8 (fld x 177 3) pg,
    psreg := budgetOf 16 (fld x 175 2) pg, cvreg := budgetOf 8 (fld x 172 3) cg, csreg := budgetOf 16 (fld x 170 2) cg, chip := fld x 157 13,
    cmem := fld x 150 7,
    segNames := (List.range (fld x 240 8)).map (fun i =>
      let e := Config.segEntry occ (fld x 384 32 + i)
      (e % 2 ^ 64, e.testBit 64)) }

/-- A descriptor that R357 refuses, by its fields' ranges; R357 names no refusal for SCRATCH, SEGS, BARRIERS and TILES beyond the ranges of R356,
and the model refuses them alike (R356, R357; DESIGN CHOICE, log entry 47). -/
def badDesc (x : Nat) : Bool :=
  let pg := fld x 186 6
  let cg := fld x 180 6
  let args := fld x 232 8
  pg + cg == 0 || Nat.blt 32 (pg + cg) || (pg == 0 && (fld x 177 3 != 0 || fld x 175 2 != 0)) ||
    (cg == 0 && (fld x 172 3 != 0 || fld x 170 2 != 0)) || fld x 192 19 != 0 || fld x 64 86 != 0 ||
    Nat.blt (256 * fld x 256 16) (8 * fld x 218 6) || Nat.blt 768 (fld x 256 16) ||
    (pg != 0 && Nat.blt (16 * (fld x 175 2 + 1)) args) || (cg != 0 && Nat.blt (16 * (fld x 170 2 + 1)) args) ||
    !([0, 16, 32, 64].contains (fld x 224 8)) || Nat.blt 96 (fld x 150 7) || Nat.blt 4096 (fld x 157 13) || Nat.blt 32 (fld x 240 8) ||
    Nat.blt 32 (fld x 218 6) || Nat.blt 16 (fld x 213 5)

/-- A launch of a kernel that is refused whatever its packet: its chip allocation or its lane-private area is too large (R391, R473,
R474). -/
def State.kernelBad (s : State) (p : Nat) (c : CtxRec) (k : Kernel) : Bool :=
  Nat.blt (256 * (facetsOf (s.part p).facets).length) k.chip || Nat.blt c.lpsize k.laneUnits

/-! ### Grid launches (R389, R390, R446, R447, R473) -/

/-- The refusal of a grid packet: a reserved field, then the launch (R391). -/
def gridBad (x : Nat) (k : Kernel) : Option Nat :=
  if fld x 16 176 != 0 || fld x 10 6 != 0 then some 2
  else if Nat.blt 256 (fld x 288 32) || (k.pair && fld x 192 32 % 2 == 1) || fld x 192 32 == 0 || Nat.blt 16777216 (fld x 192 32) then some 3
  else none

/-- An accepted launch. -/
def Launch.grid (p q c prio order x : Nat) (k : Kernel) (args : List Word) : Launch :=
  { part := p, queue := q, ctx := c, prio := prio, order := order, graph := false, kernel := k, args := args, teams := fld x 192 32, next := 0,
    again := [], itemBase := fld x 224 32, itemCnt := fld x 256 32, itemPer := fld x 288 32, compl := fld x 448 64, irq := fld x 9 1 == 1,
    nodes := [], line := [], chipSeg := none, cmSegs := [], replay := false, ended := 0, pasid := 0 }

/-- The chip allocation of a launch, zeroed; none where there is no room (R147, R473). -/
def State.allocChip (l : Nat) (x : Launch) (s : State) : Option State :=
  if x.kernel.chip = 0 then some s
  else match lowestFree (s.takenChip x.part) (s.chipBytes x.part) (unitBytes x.kernel.chip) with
    | none => none
    | some o =>
      if !Nat.blt (s.segCount x.part (s.vfOf x.ctx)) 1024 then none
      else
        let id := s.ticket
        let g := Seg.new x.part (s.vfOf x.ctx) x.ctx none (some l) true x.kernel.chip 0 o (Config.mirrorArea id) none
        some ((({ s with segs := SMap.set s.segs id g }.tick.zeroSeg g).chargeZero g ((facetsOf (s.part x.part).facets).headD 0)).modLaunch l
          (fun y => { y with chipSeg := some id }))

/-- Whether an armed replay takes a launch: of its queue, without segments or nodes, and with no other team of the context resident or awaiting
dispatch (R446). -/
def State.mayReplay (s : State) (c : Nat) (k : Kernel) : Bool :=
  k.segs == 0 && k.nodes == 0 && !s.teams.any (fun t => t.2.ctx == c && t.2.resident) &&
    !s.launches.any (fun x => x.2.ctx == c && x.2.awaits)

/-- The start of a replay: the launch is its grid, the reset, and pass 0 (R445, R447, R450). -/
def State.startReplay (p l : Nat) (s : State) : State :=
  let s1 := (s.modLaunch l (fun x => { x with replay := true, next := x.teams })).modReplay p (fun r => { r with launch := l, pages := [], runs := 0 })
  (s1.modPart p (fun x => { x with replayed := true })).resetReplay p 0

/-- A launch is entered, and as a replay where one is armed for its queue (R157, R388, R446). -/
def State.enter (p q : Nat) (l : Nat) (x : Launch) (s : State) : Option State :=
  let r := s.replay p
  let armed := r.arm && r.state == 1 && r.queue == q && !x.graph
  let may := s.mayReplay x.ctx x.kernel
  let s1 := if x.graph then s else s.activate x.ctx
  let s2 := { s1 with launches := SMap.set s1.launches l x, ticket := s1.ticket + 1 }
  (s2.allocChip l x).map (fun s3 =>
    if armed then (if may then s3.startReplay p l else s3.modReplay p (Replay.stop 2)) else s3)

/-- GRID_LAUNCH: the packet, its descriptor and its argument words are read once, and its teams are entered for dispatch; a launch whose
chip allocation finds no room waits for it (R388 to R391, R473). -/
def execGridLaunch (p q : Nat) (s : State) : Host.Outcome State Fault Refusal :=
  let x := (s.packet p q).getD 0
  let qu := s.queue p q
  let c := s.queueRec p qu
  evStep (s.nextIs p q 1) (!s.barWaits p q x && !s.queueBusy p q) (State.withPacket p q (fun s =>
    let s := s.feTake p c (fld x 320 64) 64
    match s.feRead p c (fld x 320 64) 16 with
    | none => s.queueError p q 5
    | some d =>
      let k := kernelOf s.ticket (fld x 320 64) d
      let s := s.feTake p c (fld x 384 64) (4 * k.args)
      match gridBad x k with
      | some e => s.queueError p q e
      | none =>
        if badDesc d || s.kernelBad p (s.readCtx p qu.ctx) k then s.queueError p q 3
        else match s.feWords p c (fld x 384 64) k.args with
        | none => s.queueError p q 5
        | some args =>
          let l := s.ticket
          let g := { Launch.grid p q qu.ctx qu.prio l x k args with pasid := qu.pasid }
          match s.enter p q l g with
          | some t => (t.accept p q).checkLaunch l
          | none => (s.pressure g true).post 1 (.gridLaunch p q))) s

/-! ### Graph launches (R393 to R396) -/

/-- The record bytes of a RECSZ. -/
def recBytes (n : Nat) : Nat := match n with | 1 => 16 | 2 => 32 | 3 => 64 | _ => 0

/-- A graph table entry that R394 to R396 refuse. -/
def State.entryBad (s : State) (p ctx nnodes : Nat) (e d : Nat) (k : Kernel) : Bool :=
  let g := fld e 253 11
  fld e 2 251 != 0 || recBytes (fld e 0 2) == 0 || recBytes (fld e 0 2) != k.record || Nat.blt g 32 || Nat.blt 1024 g || g % 32 != 0 ||
    Nat.blt g (32 * k.cgrp) || fld e 320 64 % 64 != 0 || badDesc d || s.kernelBad p (s.readCtx p ctx) k || k.segs != 0 || k.cmem != 0 || k.chip != 0 ||
    k.pair || Nat.blt nnodes k.nodes || Nat.blt (256 * k.scratch) (k.recOfs + k.record * (32 * k.cgrp))

/-- A node of a graph. -/
def nodeOf (e : Nat) (k : Kernel) (args : List Word) : Node :=
  { kernel := k, args := args, ring := fld e 320 64, ringCap := fld e 264 24, gcap := fld e 253 11, timer := fld e 288 32, active := false,
    buf := [], spill := [], head := 0, since := none, formed := [] }

/-- The nodes of a graph table, or the error code of its first bad entry (R391, R394, R396). -/
def State.readNodes (s : State) (p ctx nnodes : Nat) (c : CtxRec) (graph : Nat) : Nat → Except Nat (List Node)
  | 0 => .ok []
  | n + 1 =>
    match State.readNodes s p ctx nnodes c graph n with
    | .error e => .error e
    | .ok l =>
      match s.feRead p c (graph + 64 * n) 16 with
      | none => .error 5
      | some e =>
        match s.feRead p c (fld e 448 64) 16 with
        | none => .error 5
        | some d =>
          let k := kernelOf s.ticket (fld e 448 64) d
          if s.entryBad p ctx nnodes e d k then .error 3
          else match s.feWords p c (fld e 384 64) k.args with
            | none => .error 5
            | some args => .ok (l ++ [nodeOf e k args])

/-- The lines of a graph table, its descriptors and argument words are taken back from a peer that owns them (R371). -/
def State.takeGraph (p : Nat) (c : CtxRec) (graph : Nat) : Nat → State → State
  | 0, s => s
  | n + 1, s =>
    let s1 := (State.takeGraph p c graph n s).feTake p c (graph + 64 * n) 64
    match s1.feRead p c (graph + 64 * n) 16 with
    | none => s1
    | some e =>
      let s2 := s1.feTake p c (fld e 448 64) 64
      match s2.feRead p c (fld e 448 64) 16 with
      | none => s2
      | some d => s2.feTake p c (fld e 384 64) (4 * fld d 232 8)

/-- Records as the words of each. -/
def chunk (w : Nat) : Nat → List Word → List (List Word)
  | 0, _ => []
  | n + 1, l => l.take w :: chunk w n (l.drop w)

/-! ### Records (R397 to R399) -/

/-- Whether a node's buffer takes a record, given that a slot is free where it is not active (R397). -/
def Node.takes (slot : Bool) (n : Node) : Bool := (n.active || slot) && n.spill.isEmpty && Nat.blt n.count n.gcap

/-- The place of a record in a node's ring (R394, R397). -/
def Node.ringAt (n : Node) (k : Nat) : Nat := n.ring + n.kernel.record * ((n.head + k) % max 1 n.ringCap)

/-- How many of a list of records a node's buffer takes. -/
def Node.room (slot : Bool) (n : Node) (k : Nat) : Nat := if n.takes slot then min k (n.gcap - n.count) else 0

/-- The hops of a message of a partition's front end to the slice of a line and back; its router is open (R420, R422; DESIGN CHOICE, log entry
9). -/
def frontHops (part key : Nat) : Nat := 2 * hopsOf part (Config.frontRouter part % 128) (routerOf (sliceOf key))

/-- The charge of an access of the front end at a line's slice: its hops, and a hit or a fill (R143, R273, R398). -/
def State.chargeFront (c part key : Nat) (fill : Bool) (s : State) : State :=
  if isHbm key then s.payOwn c (s.part part).home [(9, frontHops part key), (if fill then 10 else 8, 1)] (some false) else s

/-- The charge of a record's way to or from a line of its ring: class 17, and the access at the line's slice (R147, R398). -/
def State.chargeRecord (c part key : Nat) (fill : Bool) (s : State) : State :=
  (s.charge c (s.part part).home [(17, 1)] (some false)).chargeFront c part key fill

/-- A record's words as one number. -/
def wordsNat : List Word → Nat
  | [] => 0
  | w :: r => w.toNat + 2 ^ 32 * wordsNat r

/-- A record is written at the tail of a node's ring; one whose place does not translate puts the queue in error (R391, R397, R398). -/
def State.spillOne (l n c : Nat) (r : List Word) (s : State) : State :=
  match s.launch l with
  | none => s
  | some x =>
    match x.nodes[n]? with
    | none => s
    | some nd =>
      let s1 := (s.modLaunch l (fun y => y.modNode n (fun z => { z with spill := z.spill ++ [(c, r)] }))).modCtx c
        (fun k => { k with spcnt := k.spcnt + 1 })
      match s.feKey x.part (s.launchRec x) (nd.ringAt nd.spill.length) .store with
      | some k => (s1.chargeRecord c x.part k.1 (s.absent k.1 && nd.kernel.record != 64)).feWrite x.ctx k (wordsNat r) nd.kernel.record
      | none => s1.queueError x.part x.queue 5

/-- Records enter a node: its buffer takes what it may, the rest goes to its ring (R397). -/
def State.takeRecords (l n c : Nat) (recs : List (List Word)) (s : State) : State :=
  match s.launch l with
  | none => s
  | some x =>
    match x.nodes[n]? with
    | none => s
    | some nd =>
      let k := nd.room (Nat.blt (s.activeNodes x.part) 64) recs.length
      let s1 := if k = 0 then s
        else s.modLaunch l (fun y => y.modNode n (fun z => { z with active := true, buf := z.buf ++ recs.take k }))
      (recs.drop k).foldl (fun s r => s.spillOne l n c r) s1

/-- Whether records would take the spill count or the ring beyond its limit (R398). -/
def State.overQuota (s : State) (part : Nat) (nd : Node) (c : Nat) (n : Nat) : Bool :=
  let k := n - nd.room (Nat.blt (s.activeNodes part) 64) n
  k != 0 && (Nat.blt (s.ctx c).spq ((s.ctx c).spcnt + k) || Nat.blt nd.ringCap (nd.spill.length + k))

/-- Whether the release of an emission allows its arrival, and none of its group stands before it (R323). -/
def State.emitted (s : State) (id : Nat) (e : Emission) : Bool :=
  !s.emissions.any (fun y => Nat.blt y.1 id && y.2.gid == e.gid) && e.owed.all (fun o => (SMap.find s.ops o).isNone)

/-- Whether an emission arrives in this tick too and comes before another: its sub-core is lower, of the same one it is earlier (R397). -/
def State.arrivesFirst (s : State) (id : Nat) (e : Emission) (y : Nat × Emission) : Bool :=
  let place := fun (e : Emission) => 4 * (s.grp e.gid).coreId + (s.grp e.gid).subc
  s.emitted y.1 y.2 && s.agenda.any (fun a => a.2 == .recordArrival y.1 && Nat.ble a.1.tick s.now) &&
    (Nat.blt (place y.2) (place e) || (place y.2 == place e && Nat.blt y.1 id))

/-- Whether a page that records of a node would be written to is being copied for a replay, or that of its queue's descriptor (R448). -/
def State.ringBusy (s : State) (x : Launch) (nd : Node) (n : Nat) : Bool :=
  s.queueBusy x.part x.queue || (List.range n).any (fun i =>
    match s.feKey x.part (s.launchRec x) (nd.ringAt (nd.spill.length + i)) .store with | some k => s.pageBusy (k.1 / 65536) | none => false)

/-- RECORD_ARRIVAL: an EMIT's records reach the front end once its release allows, those of one tick in ascending order of their sub-cores; one
whose release does not allow it is looked at again in the next tick. Beyond a limit none is accepted and its group takes a quota fault
(R323, R339, R397, R398). -/
def execRecordArrival (id : Nat) (s : State) : Host.Outcome State Fault Refusal :=
  match SMap.find s.emissions id with
  | none => evStep false false id' s
  | some e =>
    let busy := match s.launch e.launch with
      | some x => (match x.nodes[e.node]? with | some nd => s.ringBusy x nd e.recs.length | none => false)
      | none => false
    if !s.emitted id e || busy then evStep true true (fun s => s.post 1 (.recordArrival id)) s
    else evStep true (!s.emissions.any (s.arrivesFirst id e)) (fun s =>
      let s1 := { s with emissions := SMap.erase s.emissions id }
      match s1.launch e.launch with
      | none => s1
      | some x =>
        match x.nodes[e.node]? with
        | none => s1
        | some nd =>
          if s1.overQuota x.part nd e.ctx e.recs.length then
            s1.post 0 (.deferredFaultReport e.gid
              { cls := .quota, cause := 0, lane := 0, addr := none, src := e.pos, cons := false, defer := true, tcode := 0 })
          else ((s1.takeRecords e.launch e.node e.ctx e.recs).formTeams e.launch).callRefill x.part) s
where
  id' := fun (s : State) => s

/-- The records of a ring that one 64-byte line holds from its head on, up to the ring's end (R399). -/
def Node.lineRecs (n : Node) : Nat :=
  let k := 64 / max 1 n.kernel.record
  let h := n.head % max 1 n.ringCap
  min (k - h % max 1 k) (max 1 n.ringCap - h)

/-- A node after records have moved from its ring's head to its buffer. -/
def Node.refill (recs : List (List Word)) (n : Node) : Node :=
  { n with active := true, buf := n.buf ++ recs, spill := n.spill.drop recs.length, head := (n.head + recs.length) % max 1 n.ringCap }

/-- Record `i` of a ring is read where it lies and charged to the context that spilled it. One whose place does not translate any more
puts the queue in error and stands as it was spilled (R391, R398; DESIGN CHOICE, log entry 47). -/
def State.unspillOne (x : Launch) (nd : Node) (i : Nat) (r : Nat × List Word) (s : State) : State × List Word :=
  let s1 := s.modCtx r.1 (fun c => { c with spcnt := c.spcnt - 1 })
  match s.feKey x.part (s.launchRec x) (nd.ringAt i) .load with
  | some k =>
    let s2 := (s1.chargeRecord r.1 x.part k.1 (s.absent k.1)).bringLine x.ctx k.1 .normal k.2 false
    (s2, (List.range (nd.kernel.record / 4)).map (fun j => BitVec.ofNat 32 (Memory.readN s2.mem (k.1 + 4 * j) 4)))
  | none => (s1.queueError x.part x.queue 5, r.2)

/-- The oldest records of a ring are read in order. -/
def State.readRing (x : Launch) (nd : Node) : Nat → List (Nat × List Word) → State → State × List (List Word)
  | _, [], s => (s, [])
  | i, r :: l, s =>
    let a := s.unspillOne x nd i r
    let b := State.readRing x nd (i + 1) l a.1
    (b.1, a.2 :: b.2)

/-- The overflow engine of a partition has moved its line of this tick (R399). -/
def Part.moved (now : Nat) (x : Part) : Part := { x with refilled := now + 1 }

/-- SPILL_REFILL: the overflow engine of the partition moves one 64-byte line a tick from a ring's head into the buffer, charged to the contexts
that spilled; the nodes take turns in the order in which they came to need it (R398, R399; DESIGN CHOICE, log entry 47). -/
def execSpillRefill (l n : Nat) (s : State) : Host.Outcome State Fault Refusal :=
  match s.launch l with
  | none => .next (s.verd .issued)
  | some x =>
    match x.nodes[n]? with
    | none => .next (s.verd .issued)
    | some nd => evStep (s.mayRefill x.part nd) (Nat.ble (s.part x.part).refilled s.now && !s.queueBusy x.part x.queue) (fun s =>
        let s := s.modPart x.part (Part.moved s.now)
        let k := min nd.lineRecs (min nd.spill.length (nd.gcap - nd.count))
        let y := s.readRing x nd 0 (nd.spill.take k)
        let s2 := (y.1.modLaunch l (fun z => z.modNode n (Node.refill y.2))).formTeams l
        match (match s2.launch l with | some y => y.nodes[n]? | none => none) with
        | some m => if s2.mayRefill x.part m then s2.post 1 (.spillRefill l n) else s2.checkLaunch l
        | none => s2) s

/-- A node whose timer has run out: a partial team of every record present (R399). -/
def Node.lapse (now : Nat) (n : Node) : Node :=
  let m := if n.buf.isEmpty then n else n.form n.buf.length
  { m with since := if m.short then some now else none }

/-- COALESCE_TIMER_EXPIRY; a context whose graph's first team it forms becomes active (R157, R399). -/
def execCoalesceTimerExpiry (l n : Nat) (s : State) : Host.Outcome State Fault Refusal :=
  match s.launch l with
  | none => .next (s.verd .issued)
  | some x =>
    match x.nodes[n]? with
    | none => .next (s.verd .issued)
    | some nd =>
      let t := if nd.timer = 0 then 4096 else nd.timer
      let due := match nd.since with | some a => Nat.ble (a + t) s.now | none => false
      evStep due true (fun s =>
        let formed := if nd.buf.isEmpty then [] else [n]
        let f := fun (y : Launch) => { y.modNode n (Node.lapse s.now) with line := y.line ++ formed }
        let s1 := (s.activateFor l (f x)).modLaunch l f
        if (nd.lapse s.now).since.isSome then s1.post t (.coalesceTimerExpiry l n) else s1) s

/-- GRAPH_LAUNCH: the graph table and its nodes' argument words are read, and the seeds enter their node in array order (R388, R391, R393,
R394, R396). -/
def execGraphLaunch (p q : Nat) (s : State) : Host.Outcome State Fault Refusal :=
  let x := (s.packet p q).getD 0
  let qu := s.queue p q
  let c := s.queueRec p qu
  let nn := fld x 256 16
  evStep (s.nextIs p q 2) (!s.barWaits p q x && !s.queueBusy p q) (State.withPacket p q (fun s =>
    let s := s.takeGraph p c (fld x 384 64) nn
    if fld x 10 246 != 0 then s.queueError p q 2
    else if nn == 0 || Nat.ble nn (fld x 272 16) || fld x 384 64 % 64 != 0 then s.queueError p q 3
    else match s.readNodes p qu.ctx nn c (fld x 384 64) nn with
    | .error e => s.queueError p q e
    | .ok nodes =>
      let size := (nodes.map (fun n => n.kernel.record)).getD (fld x 272 16) 0
      let cnt := fld x 288 32
      let s := s.feTake p c (fld x 320 64) (cnt * size)
      match s.feWords p c (fld x 320 64) (cnt * size / 4) with
      | none => s.queueError p q 5
      | some ws =>
        let l := s.ticket
        let g : Launch := { Launch.grid p q qu.ctx qu.prio l 0 Kernel.zero [] with
          graph := true, nodes := nodes, compl := fld x 448 64, irq := fld x 9 1 == 1, pasid := qu.pasid }
        match s.enter p q l g with
        | some t =>
          let t1 := (t.accept p q).takeRecords l (fld x 272 16) qu.ctx (chunk (size / 4) cnt ws)
          (t1.checkLaunch l).callRefill p
        | none => s)) s

/-! ### Waits and signals (R392) -/

/-- A test of a queue's wait at the signal's home: it is met, or an entry is registered, or, where the slice has none to give or the home is
the host, it is tested again 512 router cycles later. Each test is charged (R273, R274, R392). -/
def State.testWait (p q key : Nat) (slot : Option Nat) (s : State) : State :=
  let c := (s.queue p q).ctx
  let m : MonEntry := { key := key, op := 0, lane := 0, queue := some (queueKey p q) }
  let s1 := ((s.takeBack (lineOf key)).chargeFront c p key (s.absent key)).bringLine c key .normal slot false
  if s1.monFires m then s1.fire m
  else if isHbm key && Nat.blt (s1.mons.filter (fun m => sliceOfKey m.key == sliceOf key)).length 4096 then { s1 with mons := s1.mons ++ [m] }
  else s1.postAt .uncore (s1.cycle .uncore + 512) (.waitPacket p q)

/-- Whether a queue's wait has neither been met nor stands in a slice's entries (R274, R392). -/
def State.polls (s : State) (p q : Nat) : Bool :=
  let qu := s.queue p q
  s.mapped p q && qu.st == 2 && (match qu.wait with | some w => !w.met | none => false) &&
    !s.mons.any (fun m => m.queue == some (queueKey p q))

/-- WAIT_PACKET: the queue waits, its test registered at the signal's home, until the signal satisfies it. The step comes again for a wait that
is polled (R273, R274, R392, R401). -/
def execWaitPacket (p q : Nat) (s : State) : Host.Outcome State Fault Refusal :=
  let x := (s.packet p q).getD 0
  let qu := s.queue p q
  if s.polls p q then
    evStep true (!s.queueBusy p q) (fun s =>
      match s.feKey p (s.queueRec p qu) ((qu.wait.map (fun w => w.sig)).getD 0) .load with
      | none => s.queueError p q 5
      | some k => s.testWait p q k.1 k.2) s
  else evStep (s.nextIs p q 3) (!s.barWaits p q x && !s.queueBusy p q) (State.withPacket p q (fun s =>
    if fld x 12 340 != 0 then s.queueError p q 2
    else if fld x 448 64 % 8 != 0 then s.queueError p q 5
    else match s.feKey p (s.queueRec p qu) (fld x 448 64) .load with
    | none => s.queueError p q 5
    | some k =>
      let t := fld x 352 32
      let w : Wait := { sig := fld x 448 64, value := fld x 384 64, cc := fld x 10 2, irq := fld x 9 1 == 1,
                        expires := if t = 0 then none else some (s.now + t), met := false }
      let s1 := ((s.dropWait p q).setQueue p q { qu with st := 2, wait := some w }).testWait p q k.1 k.2
      if t = 0 then s1 else s1.post t (.waitTimeout p q))) s

/-- WAIT_COMPLETION: a satisfied wait lets the queue go on (R389, R392). -/
def execWaitCompletion (p q : Nat) (s : State) : Host.Outcome State Fault Refusal :=
  let qu := s.queue p q
  let met := match qu.wait with | some w => w.met | none => false
  evStep (qu.st == 2 && met) (!s.queueBusy p q) (fun s =>
    let irq := match qu.wait with | some w => w.irq | none => false
    let s1 := (s.setQueue p q { qu with st := 1 }).accept p q
    if irq then s1.interrupt qu.vf q else s1) s

/-- WAIT_TIMEOUT (R391, R392). -/
def execWaitTimeout (p q : Nat) (s : State) : Host.Outcome State Fault Refusal :=
  let qu := s.queue p q
  let late := match qu.wait with
    | some w => !w.met && (match w.expires with | some t => Nat.ble t s.now | none => false)
    | none => false
  evStep (qu.st == 2 && late) (!s.queueBusy p q) (State.queueError p q 4) s

/-- SIGNAL_PACKET: the value is written or added, as one read-modify-write with release at system scope (R392). -/
def execSignalPacket (p q : Nat) (s : State) : Host.Outcome State Fault Refusal :=
  let x := (s.packet p q).getD 0
  let qu := s.queue p q
  let key := s.feKey p (s.queueRec p qu) (fld x 448 64) .rmw
  let free := (s.packet p q).isNone || (match key with | some k => !s.pageBusy (k.1 / 65536) | none => true)
  evStep (s.nextIs p q 4) (!s.barWaits p q x && free && !s.queueBusy p q) (State.withPacket p q (fun s =>
    if fld x 12 340 != 0 || fld x 352 32 != 0 || Nat.ble 2 (fld x 10 2) then s.queueError p q 2
    else if fld x 448 64 % 8 != 0 then s.queueError p q 5
    else match key with
    | none => s.queueError p q 5
    | some k =>
      let s := s.takeBack (lineOf k.1)
      let v := if fld x 10 2 = 0 then fld x 384 64 else (Memory.readN s.mem k.1 8 + fld x 384 64) % 2 ^ 64
      let s1 := (s.feWrite qu.ctx k v 8).accept p q
      if fld x 9 1 = 1 then s1.interrupt qu.vf q else s1)) s

/-! ### Completion of launches (R389, R393, R473) -/

/-- Whether invalidations are still owed for writes of a launch's groups, of which those of an ended team are no more (R122, R389). -/
def State.launchOwes (s : State) (l : Nat) : Bool :=
  s.invals.any (fun x => match SMap.find s.groups x.2 with | some g => (s.team g.team).launch == l | none => true)

/-- LAUNCH_COMPLETION: once every team has ended, and the invalidations of their writes are acknowledged, the allocations are deleted, the
completion signal is decreased by 1 and the message is sent, and packets that waited go on (R122, R136, R389, R393, R473). -/
def execLaunchCompletion (l : Nat) (s : State) : Host.Outcome State Fault Refusal :=
  match s.launch l with
  | none => .next (s.verd .issued)
  | some x =>
    let qu := s.queue x.part x.queue
    let key := if x.compl % 8 = 0 then s.feKey x.part (s.launchRec x) x.compl .rmw else none
    let free := match key with | some k => x.compl = 0 || !s.pageBusy (k.1 / 65536) | none => true
    evStep (!x.replay && s.launchDone l x) (free && !s.queueBusy x.part x.queue && (x.compl = 0 || !s.launchOwes l)) (fun s =>
      let s1 := { s.dropAllocs l with launches := SMap.erase s.launches l }
      let s2 := if x.compl = 0 then s1
        else match key with
          | some k =>
            let s1 := s1.takeBack (lineOf k.1)
            s1.feWrite x.ctx k ((Memory.readN s1.mem k.1 8 + 2 ^ 64 - 1) % 2 ^ 64) 8
          | none => s1.queueError x.part x.queue 5
      let s3 := if x.irq then s2.interrupt qu.vf x.queue else s2
      (s3.fetchNext x.part x.queue).callRefill x.part) s

/-! ### Mapping and teardown (R401, R402, R404) -/

/-- A queue leaves its slot; its wait is cancelled and it keeps its RPTR (R401). -/
def State.unmap (p slot : Nat) (s : State) : State :=
  match (s.part p).slots.getD slot 0 with
  | 0 => s
  | q + 1 =>
    let x := s.queue p q
    let s1 := (s.dropWait p q).setQueue p q { x with st := if x.st = 1 || x.st = 2 then 0 else x.st, wait := none }
    s1.modPart p (fun a => { a with slots := (List.range 32).map (fun i => if i = slot then 0 else a.slots.getD i 0) })

/-- Whether a PASID is being torn down (R404). -/
def State.dying (s : State) (p pasid : Nat) : Bool := s.ctxs.any (fun x => x.2.part == p && x.2.tdown && x.2.crec.pasid == pasid)

/-- A queue as mapping takes it: the fields that software writes from its descriptor, the device's own as it holds them (R387, R401). -/
def State.mapQueue (s : State) (p q : Nat) : Queue :=
  let d := queueOf p (Memory.readN s.mem (s.descAt p q) 64)
  let x := s.queue p q
  { d with rptr := x.rptr, wptr := x.wptr, gen := s.genOf p d.pasid, st := 1, err := 0, wait := none }

/-- QUEUE_MAP_WRITE: bit 15 maps the queue of bits 11:0 in a slot, else the slot's queue is unmapped (R401, R404). -/
def execQueueMapWrite (p slot value : Nat) (s : State) : Host.Outcome State Fault Refusal :=
  let busy := (value.testBit 15 && s.queueBusy p (value % 4096)) || (match (s.part p).slots.getD slot 0 with | 0 => false | q + 1 => s.queueBusy p q)
  evStep (Nat.blt slot 32 && s.configs) (!busy) (fun s =>
    let s1 := s.unmap p slot
    if !value.testBit 15 then s1
    else
      let q := value % 4096
      let x := s1.mapQueue p q
      if s1.dying p x.pasid then s1.tell .configError p
      else
        let f := fun (a : Part) => { a with slots := (List.range 32).map (fun i => if i = slot then q + 1 else a.slots.getD i 0)
                                            pending := a.pending.filter (· != q) }
        ((s1.modPart p f).setQueue p q x).fetchNext p q) s

/-- TEARDOWN_START: TDOWN is written 1 (R402, R404). -/
def execTeardownStart (c : Nat) (s : State) : Host.Outcome State Fault Refusal :=
  evStep ((s.ctx c).live && !(s.ctx c).tdown && s.configs) (s.tableFree (s.ctx c).part) (State.tearDown c) s

/-- The requests under a PASID and a generation that have not been answered: the operations and copies of its teams (R403). -/
def State.outstanding (s : State) (p pasid gen : Nat) : Nat :=
  let mine := fun (t : Nat) => let tm := s.team t; tm.part == p && tm.crec.pasid == pasid && tm.crec.gen == gen
  (s.ops.filter (fun x => x.2.origin.isNone && mine x.2.team)).length + (s.copies.filter (fun x => mine x.2.team)).length

/-- The energies of a context that no record has reported yet (R457, R458). -/
def Ctx.final (c : Ctx) : Nat × Nat × Int :=
  (c.vf, (((c.acct : Int) - c.seen - (c.corr - c.seenCorr)) % 2 ^ 72).toNat, c.corr - c.seenCorr)

/-- TEARDOWN_COMPLETE: no team and no request of the context is left; it ceases to exist and the monitor is told (R404, R458). -/
def execTeardownComplete (c : Nat) (s : State) : Host.Outcome State Fault Refusal :=
  let k := s.ctx c
  let busy := s.teams.any (fun x => x.2.ctx == c) || s.ops.any (fun x => x.2.ctx == c) || s.copies.any (fun x => x.2.ctx == c) ||
    !k.arriving.isEmpty || s.outstanding k.part k.crec.pasid ((s.genOf k.part k.crec.pasid + 255) % 256) != 0
  evStep ((s.ctx c).live && (s.ctx c).tdown) (!busy) (fun s =>
    let s1 := { s with fleet := { s.fleet with finals := s.fleet.finals ++ [(s.ctx c).final] } }
    (s1.destroyCtx c).tell .tornDown c) s

end Sys2Proof.Machine
end

