-- ==== Sys2Proof/Machine/Isolation.lean ====
section
/-! DEFINITION. Partitions and isolation: the partition control register, partition reset, the invalidation of translations, key slots and
apertures (R158, R159, R405 to R419, R423, R424). -/

namespace Sys2Proof.Machine

/-! ### The partition control register (R407) -/

/-- How many bits of a mask of 64 are set. -/
def popcount (m : Nat) : Nat := ((List.range 64).filter (fun i => m.testBit i)).length

/-- Whether a value would give a facet, a virtual function or a key slot to two partitions, set more than four bits of VFS, or change
FACETS while the partition holds a context (R407). -/
def State.controlBad (s : State) (p v : Nat) : Bool :=
  let meets := fun (x : Nat × Part) =>
    x.1 != p && (x.2.facets &&& fld v 80 16 != 0 || x.2.vfs &&& fld v 128 64 != 0 || x.2.keygrant &&& fld v 256 256 != 0)
  s.parts.any meets || Nat.blt 4 (popcount (fld v 128 64)) || (fld v 80 16 != (s.part p).facets && !(s.ctxIds p).isEmpty)

/-- The fields of a written control register; RST is not a field that is kept (R407). -/
def Part.control (v : Nat) (x : Part) : Part :=
  { x with keygrant := fld v 256 256, ctxtab := fld v 192 64, vfs := fld v 128 64, xto := fld v 96 32, facets := fld v 80 16,
           opdef := fld v 76 4, qtab := fld v 0 64 }

/-- The virtual functions that a write takes from a partition have one more record to come (R456, R457). -/
def State.leave (p v : Nat) (s : State) : State :=
  let gone := (List.range 64).filter (fun k => (s.part p).vfs.testBit k && !(fld v 128 64).testBit k)
  { s with fleet := { s.fleet with leaving := s.fleet.leaving ++ gone.map (fun k => (k, p)) } }

/-- The dispatcher of a partition runs while it has facets (R400). -/
def State.callDispatch (p : Nat) (s : State) : State :=
  if (s.part p).facets != 0 && !s.agenda.any (fun x => x.2 == .dispatch p) then s.post 0 (.dispatch p) else s

/-- PARTITION_CONTROL_WRITE: `value` is the register's 512 bits; a new XTO holds for the halves that wait, and writing RST = 1 begins a reset
(R289, R407, R424). -/
def execPartitionControlWrite (p value : Nat) (s : State) : Host.Outcome State Fault Refusal :=
  evStep (Nat.blt p 16 && s.configs) true (fun s =>
    if s.controlBad p value then s.tell .configError p
    else
      let s0 := ((s.leave p value).putPart p (Part.control value)).callDispatch p
      let s1 := s0.halves.foldl (fun s h => if s.counting h.gid then s.watchHalf h else s) s0
      if fld value 74 2 = 1 && (s1.part p).rst == 0 then s1.post 0 (.partitionReset p) else s1) s

/-! ### Partition reset (R424) -/

/-- An account with nothing unread (R456). -/
def Ctx.newExport (c : Ctx) : Ctx := { c with seen := c.acct, seenCorr := c.corr }

/-- The final reading of the accounts of a partition's contexts; what it has read no later reading counts again (R139, R424, R456). -/
def State.finalReadings (p : Nat) (s : State) : State :=
  let read := fun (x : Nat × Ctx) => if (s.ctxIds p).contains x.1 then (x.1, x.2.newExport) else x
  { s with fleet := { s.fleet with finals := s.fleet.finals ++ (s.ctxIds p).map (fun c => (s.ctx c).final) }, ctxs := s.ctxs.map read }

/-- Every team, launch, queue and pending word of a partition is discarded without completion signals (R424). -/
def State.discardPart (p : Nat) (s : State) : State :=
  let ls := (s.launches.filter (fun x => x.2.part == p)).map Prod.fst
  let s1 := ls.foldl (fun s l => s.removeLaunch l) s
  let ts := (s1.teams.filter (fun x => x.2.part == p)).map Prod.fst
  let s2 := ts.foldl (fun s t => (s.discardWork t).removeTeam t) s1
  let own := fun (q : Nat) => q / 4096 == p
  let keep := fun (m : MonEntry) => match m.queue with | some q => !own q | none => true
  let s3 := s2.forgetOps (fun i => match SMap.find s.ops i with | some o => o.origin.isSome && s.opPart o == p | none => false)
  { s3 with queues := s3.queues.filter (fun x => !own x.1), mons := s3.mons.filter keep }.modPart p (fun x =>
    { x with slots := [], pending := [], dispatched := [] })

/-- PARTITION_RESET: the final readings, then nothing of the partition goes on, and its network is purged; fabric requests find no export
any more (R424). -/
def execPartitionReset (p : Nat) (s : State) : Host.Outcome State Fault Refusal :=
  evStep (Nat.blt p 16 && (s.part p).rst == 0) true (fun s =>
    let s1 := (s.finalReadings p).discardPart p
    ({ s1 with exports := s1.exports.filter (fun x => !(s.part p).vfs.testBit x.1) }.putPart p (fun x => { x with rst := 2 })).post 1
      (.partitionResetComplete p)) s

/-- A line of the L2 is dropped without write-back: HBM4 holds what it held below it (R424). -/
def State.loseLine (line : Nat) (s : State) : State :=
  match SMap.find s.l2 line with
  | some l =>
    { s with l2 := SMap.erase s.l2 line
             dir := SMap.erase s.dir line
             mem := if l.whose = .home then Memory.writeN s.mem (64 * line) l.below 64 else Memory.clear s.mem (64 * line) 64 }
  | none => s

/-- Whether a line lock is of a context of a partition, or of a peer under one of its virtual functions (R275, R424). -/
def State.lockIn (s : State) (p : Nat) (l : Lock) : Bool :=
  if Nat.ble 4294967296 l.ctx then (s.part p).vfs.testBit l.vf else l.ctx / 1024 == p

/-- The on-chip memories of a partition's facets hold 0 (R424). -/
def State.zeroChips (p : Nat) (s : State) : State :=
  let fs := facetsOf (s.part p).facets
  let m1 := fs.foldl (fun m f => Memory.clear m (chipKey f) 16777216) s.mem
  { s with mem := (s.clustersOf p).foldl (fun m c => Memory.clear m (clusterKey c) 8388608) m1 }

/-- V cleared in an entry of a partition's context table (R408, R424). -/
def State.clearEntry (p c : Nat) (s : State) : State :=
  let a := s.entryOf p c + 40
  let b := Memory.readN s.mem a 1
  if b.testBit 6 then { s with mem := Memory.writeN s.mem a (b - 64) 1 } else s

/-- A context whose energy record, account and FAIR are 0 (R424). -/
def Ctx.scrubbed : Ctx := { Ctx.zero with enf := false, opmax := 0, share := 0, hold := 0 }

/-- The scrubbing of a partition and the end of its contexts; FB, which stands in each record, is 0 as well (R165, R424). -/
def State.scrub (p : Nat) (s : State) : State :=
  let s1 := ((s.l2.map Prod.fst).filter (s.lineIn p)).foldl (fun s l => s.loseLine l) s
  let s0 := (s1.ctxIds p).foldl (fun s c => s.destroyCtx c) (s1.zeroChips p)
  let s2 := (List.range 1024).foldl (fun s c => s.clearEntry p c) s0
  { s2 with segs := s2.segs.filter (fun x => x.2.part != p)
            tlb := s2.tlb.filter (fun e => e.part != p)
            icache := SMap.filter s2.icache (fun k _ => k / 18446744073709551616 % 65536 / 1024 != p)
            locks := s2.locks.filter (fun x => !s2.lockIn p x.2)
            ctxs := s2.ctxs.map (fun x => if x.2.part = p then (x.1, { Ctx.scrubbed with part := p, spq := x.2.spq }) else x)
            parts := SMap.modify s2.parts p (fun x => { x with fb := 0 }) }

/-- PARTITION_RESET_COMPLETE: the purge ends and the scrub begins, and then the scrub ends and RST reads 0 (R424). -/
def execPartitionResetComplete (p : Nat) (s : State) : Host.Outcome State Fault Refusal :=
  evStep ((s.part p).rst != 0) true (fun s =>
    if (s.part p).rst = 2 then (s.modPart p (fun x => { x with rst := 3 })).post 1 (.partitionResetComplete p)
    else (s.scrub p).modPart p (fun x => { x with rst := 0 })) s

/-! ### The invalidation of translations (R412, R413, R415) -/

/-- The PASIDs of a virtual function's contexts. -/
def State.pasidsOf (s : State) (p v : Nat) : List Nat :=
  (((s.ctxIds p).map (fun c => (s.ctx c).crec)).filter (fun r => r.vf == v)).map (fun r => r.pasid)

/-- Whether an invalidation covers a PASID, and addresses of `n` bytes from one on. -/
def State.coversPasid (s : State) (p pasid : Nat) : Bool :=
  let x := s.part p
  if x.invOp = 2 then (s.pasidsOf p x.invVf).contains pasid else pasid == x.invPasid
def Part.coversVa (x : Part) (va n : Nat) : Bool :=
  x.invOp != 1 || (Nat.blt (65536 * x.invFrom) (va + n) && Nat.blt va (65536 * x.invFrom + 65536 * 2 ^ x.invPages))

def State.coversEntry (s : State) (p : Nat) (e : TlbEntry) : Bool :=
  e.part == p && s.coversPasid p e.pasid && (s.part p).coversVa (e.page * 2 ^ e.size) (2 ^ e.size)

/-- The TLB entries that an invalidation covers are dropped. -/
def State.dropCovered (p : Nat) (s : State) : State := { s with tlb := s.tlb.filter (fun e => !s.coversEntry p e) }

/-- The PASID under whose tables an operation's addresses were translated (R370, R409). -/
def State.opPasid (s : State) (o : MemOp) : Nat :=
  match o.origin with
  | some x => (match s.ctxOfVf x.part x.vf with | some c => (s.ctx c).crec.pasid | none => 0)
  | none => (s.team o.team).crec.pasid

/-- Whether an access that cleared under a covered entry has still to be performed (R413). -/
def State.owesCovered (s : State) (p : Nat) : Bool :=
  s.ops.any (fun x => x.2.cleared && s.opPart x.2 == p && s.coversPasid p (s.opPasid x.2) &&
    x.2.lanes.any (fun r => !r.over && (match r.home with | .slice _ => true | .host => true | _ => false) &&
      (s.part p).coversVa (s.lanePage x.2 r) x.2.kind.bytes))

/-- An invalidation starts, unless one is in progress (R413). -/
def State.invalidate (p : Nat) (f : Part → Part) (s : State) : State :=
  if (s.part p).invBusy then s.tell .configError p
  else ((s.putPart p (fun x => { f x with invBusy := true, invFrom := x.invVa })).dropCovered p).post 1 (.tlbInvalidationComplete p)

/-- TLB_INVALIDATE_PASID: OP 0 (R413). -/
def execTlbInvalidatePasid (p pasid : Nat) (s : State) : Host.Outcome State Fault Refusal :=
  evStep (Nat.blt p 16 && s.configs) true (State.invalidate p (fun x => { x with invOp := 0, invPasid := pasid % 1048576 })) s

/-- TLB_INVALIDATE_RANGE: OP 1, from the page in TLBINVVA on (R413). -/
def execTlbInvalidateRange (p pasid pages : Nat) (s : State) : Host.Outcome State Fault Refusal :=
  evStep (Nat.blt p 16 && s.configs) true
    (State.invalidate p (fun x => { x with invOp := 1, invPasid := pasid % 1048576, invPages := pages % 16 })) s

/-- TLB_INVALIDATE_VF: OP 2 (R413). -/
def execTlbInvalidateVf (p vf : Nat) (s : State) : Host.Outcome State Fault Refusal :=
  evStep (Nat.blt p 16 && s.configs) true (State.invalidate p (fun x => { x with invOp := 2, invVf := vf % 64 })) s

/-- The running teams and the contexts that an invalidation covers take their records as the table holds them (R408). -/
def State.rereadRecs (p : Nat) (s : State) : State :=
  let hit := fun (r : CtxRec) => s.coversPasid p r.pasid
  let ft := fun (x : Nat × Team) => if x.2.part = p && hit x.2.crec then (x.1, { x.2 with crec := s.readCtx p x.2.ctx }) else x
  let fc := fun (x : Nat × Ctx) => if x.2.part = p && hit x.2.crec then (x.1, { x.2 with crec := s.readCtx p x.1 }) else x
  { s with teams := s.teams.map ft, ctxs := s.ctxs.map fc }

/-- TLB_INVALIDATION_COMPLETE: no covered entry or access is left, and BUSY clears (R408, R413). -/
def execTlbInvalidationComplete (p : Nat) (s : State) : Host.Outcome State Fault Refusal :=
  evStep (s.part p).invBusy (!s.owesCovered p) (fun s =>
    ((s.dropCovered p).rereadRecs p).modPart p (fun x => { x with invBusy := false })) s

/-- ATS_INVALIDATION of `pages` host pages of 64 KiB from one on: the host has changed its translations, and the entries that hold them are
dropped once the PASID's accesses to the host are performed (R413, R415; log entry 11). -/
def execAtsInvalidation (p pasid page pages : Nat) (s : State) : Host.Outcome State Fault Refusal :=
  let owes := s.ops.any (fun x => x.2.cleared && s.opPart x.2 == p && s.opPasid x.2 == pasid &&
    x.2.lanes.any (fun r => !r.over && r.home == .host))
  let hit := fun (e : TlbEntry) => e.part == p && e.pasid == pasid && pteHost e.pte &&
    Nat.blt (pteFrame e.pte / 65536) (page + pages) && Nat.blt page (pteFrame e.pte / 65536 + 2 ^ e.size / 65536)
  evStep true (!owes) (fun s => { s with hosted := s.hosted + 1, tlb := s.tlb.filter (fun e => !hit e) }) s

/-! ### Key slots (R417, R419) -/

/-- The 64 bytes of KDATA. -/
def Keys.data (k : Keys) : List Nat := (List.range 64).map (fun i => k.kdata.getD i 0 % 256)

/-- A key command starts (R419). -/
def State.keyCommand (slot op : Nat) (s : State) : State :=
  { s with keys := { s.keys with busy := true, slot := slot, op := op } }.post 1 .keyCommandComplete

/-- KEY_LOAD (R419). -/
def execKeyLoad (slot : Nat) (s : State) : Host.Outcome State Fault Refusal :=
  evStep (Nat.blt slot 256 && s.configs && !s.keys.busy) true (State.keyCommand slot 0) s

/-- KEY_ERASE (R419). -/
def execKeyErase (slot : Nat) (s : State) : Host.Outcome State Fault Refusal :=
  evStep (Nat.blt slot 256 && s.configs && !s.keys.busy) true (State.keyCommand slot 1) s

/-- The end of a command with a result: KDATA is cleared, and LOADED says whether the slot holds a key (R419). -/
def State.keyEnd (res : Nat) (s : State) : State :=
  { s with keys := { s.keys with busy := false, result := res, kdata := [], loaded := (SMap.find s.keys.slots s.keys.slot).isSome } }

/-- The lines that record a slot are written back and dropped (R419). -/
def State.dropSlot (k : Nat) (s : State) : State :=
  ((s.l2.filter (fun x => x.2.slot == some k)).map Prod.fst).foldl (fun s l => s.dropLine l) s

/-- KEY_COMMAND_COMPLETE: RESULT is 0 done, 1 K1 = K2, 2 already loaded, 3 granted, 4 bad command (R419). -/
def execKeyCommandComplete (s : State) : Host.Outcome State Fault Refusal :=
  evStep s.keys.busy true (fun s =>
    let k := s.keys
    let d := k.data
    match k.op with
    | 0 =>
      if d.take 32 == d.drop 32 then s.keyEnd 1
      else if (SMap.find k.slots k.slot).isSome then s.keyEnd 2
      else { s with keys := { k with slots := SMap.set k.slots k.slot d } }.keyEnd 0
    | 1 =>
      if s.parts.any (fun x => x.2.keygrant.testBit k.slot) then s.keyEnd 3
      else
        let s1 := s.dropSlot k.slot
        { s1 with keys := { s1.keys with slots := SMap.erase s1.keys.slots k.slot } }.keyEnd 0
    | _ => s.keyEnd 4) s

/-! ### Apertures (R158, R159, R423) -/

/-- The capacity of a target: an HBM4 group behind a slice, a slice, a fabric port (R159). -/
def capacityOf (target : Nat) : Option Nat :=
  if Nat.blt target 256 then some 6553
  else if Nat.ble 512 target && Nat.blt target 544 then some 6400
  else if Nat.ble 768 target && Nat.blt target 1024 then some 7200
  else none

/-- The values that the virtual functions but one hold at a target, or have been given for the next period. -/
def State.apersAt (s : State) (target but : Nat) : List (Nat × Nat) :=
  (s.apers.filter (fun x => x.1 / 64 == target && x.1 % 64 != but)).map (fun x => x.2.next.getD (x.2.lkq, x.2.aper))

/-- APERTURE_WRITE: a write beyond the capacity, or beyond 512 line locks at a slice, is refused; another takes effect at the next period
boundary (R159, R423). -/
def execApertureWrite (target vf value : Nat) (s : State) : Host.Outcome State Fault Refusal :=
  match capacityOf target with
  | none => evStep false false id s
  | some cap => evStep (Nat.blt vf 64 && s.configs) true (fun s =>
      let others := s.apersAt target vf
      let lkq := if Nat.blt target 256 then fld value 16 10 else 0
      let sum := (others.map Prod.snd).foldl (· + ·) (fld value 0 16)
      let locks := (others.map Prod.fst).foldl (· + ·) lkq
      if Nat.blt cap sum || Nat.blt 512 locks then s.tell .configError target
      else s.setAper target vf { (s.aper target vf) with next := some (lkq, fld value 0 16) }) s

end Sys2Proof.Machine
end

