-- ==== Sys2Proof/Machine/Meter.lean ====
section
/-! DEFINITION. Metering: the records that wait, the export boundary and attestation (R139, R456 to R463). -/

namespace Sys2Proof.Machine

/-! ### Records that wait (R460) -/

/-- A record takes in a later one of the same account (R460). -/
def MeterRec.merge (m n : MeterRec) : MeterRec :=
  { m with ticks := m.ticks + n.ticks, charged := m.charged + n.charged, corr := m.corr + n.corr, total := n.total, peer := m.peer + n.peer,
           optime := (List.range 16).map (fun i => m.optime.getD i 0 + n.optime.getD i 0), flags := m.flags ||| n.flags, merged := true }

/-- Whether two records are of one account. -/
def MeterRec.same (m n : MeterRec) : Bool := m.vf == n.vf && (m.vf != 255 || m.part == n.part)

/-- The last record of a ring's held records of one account takes in a further one. -/
def mergeLast (i : Nat) (n : MeterRec) (l : List (Nat × MeterRec)) : List (Nat × MeterRec) :=
  (l.foldr (fun x (r : List (Nat × MeterRec) × Bool) =>
    if !r.2 && x.1 == i && x.2.same n then ((x.1, x.2.merge n) :: r.1, true) else (x :: r.1, r.2)) ([], false)).1

/-- The intervals held for a ring. -/
def Fleet.intervals (f : Fleet) (i : Nat) : Nat := (((f.held.filter (fun x => x.1 == i)).map (fun x => x.2.seq)).eraseDups).length

/-- The number of the last interval held for a ring. -/
def Fleet.lastSeq (f : Fleet) (i : Nat) : Nat := ((f.held.filter (fun x => x.1 == i)).map (fun x => x.2.seq)).foldl max 0

/-- A new record joins those held for its ring; beyond 256 intervals it is merged into the last interval held, where that has no record
of the account as a record of its own in it (R460). -/
def Fleet.hold (f : Fleet) (x : Nat × MeterRec) : Fleet :=
  let old := f.held.any (fun y => y.1 == x.1 && y.2.same x.2)
  let last := f.held.any (fun y => y.1 == x.1 && y.2.seq == x.2.seq)
  if last || Nat.blt (f.intervals x.1) 256 then { f with held := f.held ++ [x] }
  else if old then { f with held := mergeLast x.1 x.2 f.held }
  else { f with held := f.held ++ [(x.1, { x.2 with seq := f.lastSeq x.1, merged := true })] }

/-! ### The export boundary (R139, R456 to R458) -/

/-- What no record has reported yet of a virtual function: CHARGED and CORR (R458). -/
def State.unread (s : State) (v : Nat) : Nat × Int :=
  let live := (s.ctxs.map Prod.snd).filter (fun c => c.live)
  ((live.map Ctx.final ++ s.fleet.finals).filter (fun x => x.1 == v)).foldl (fun a x => (a.1 + x.2.1, a.2 + x.2.2)) (0, 0)

/-- The flags of a partition's records (R458). -/
def State.flagsOf (s : State) (p : Nat) (final : Bool) : Nat :=
  let x := s.part p
  x.drift.toNat + 2 * final.toNat + 4 * x.capped.toNat + 8 * s.fleet.floorFlag.toNat + 16 * x.replayed.toNat

/-- A record of the interval that ends now, with its running total under a key. -/
def State.meterRec (s : State) (key vf part charged : Nat) (corr : Int) (peer : Nat) (optime : List Nat) (flags : Nat) : Nat × MeterRec :=
  (key, { vf := vf, part := part, seq := s.fleet.seq + 1, tstart := s.fleet.lastExport, ticks := s.now - s.fleet.lastExport,
          charged := charged, corr := corr, total := SMap.getD s.fleet.totals key 0 + charged + corr, peer := peer, optime := optime,
          flags := flags, merged := false })

/-- The record of a virtual function in a partition (R457, R458). -/
def State.vfRec (s : State) (v p : Nat) (final : Bool) : Nat × MeterRec :=
  let e := s.unread v
  s.meterRec v v p e.1 e.2 (SMap.getD s.fleet.peerAcct v 0 - SMap.getD s.fleet.seenPeer v 0) ((s.part p).clock s.now).optime
    (s.flagsOf p final)

/-- A change of an idle account as CHARGED holds it (R457). -/
def idleSince (a b : Int) : Nat := ((a - b) % 2 ^ 128).toNat

/-- The records of an interval: of every virtual function, of every partition's idle account, and of the device's (R457). -/
def State.exportRecs (s : State) : List (Nat × MeterRec) :=
  let own := s.parts.flatMap (fun x => ((List.range 64).filter (fun v => x.2.vfs.testBit v)).map (fun v => (v, x.1)))
  let gone := s.fleet.leaving.eraseDups.filter (fun x => !own.any (fun y => y.1 == x.1))
  let idle := s.parts.filter (fun x => x.2.facets != 0 || x.2.idle != x.2.seenIdle)
  own.map (fun x => s.vfRec x.1 x.2 false) ++ gone.map (fun x => s.vfRec x.1 x.2 true) ++
    idle.map (fun x => s.meterRec (64 + x.1) 255 x.1 (idleSince x.2.idle x.2.seenIdle) 0 0 (x.2.clock s.now).optime
      (s.flagsOf x.1 (x.2.facets == 0))) ++
    [s.meterRec 80 255 255 (idleSince s.fleet.idle s.fleet.seenIdle) 0 0 [s.now - s.fleet.lastExport] (8 * s.fleet.floorFlag.toNat)]

/-- A partition, a context and the fleet registers at the start of an interval. -/
def Part.newExport (now : Nat) (p : Part) : Part :=
  { p.clock now with optime := [], capped := false, replayed := p.replay.state == 2, drift := false, seenIdle := p.idle }
def Fleet.newExport (now : Nat) (f : Fleet) : Fleet :=
  { f with expt := f.exptNext.getD f.expt, exptNext := none, lastExport := now, seq := f.seq + 1, finals := [], leaving := [],
           floorFlag := false, seenIdle := f.idle, seenPeer := f.peerAcct }

/-- The running totals after a record, and the record held for its rings: the physical function's, and its virtual function's where one is
registered (R458, R460). -/
def Fleet.book (x : Nat × MeterRec) (f : Fleet) : Fleet :=
  let f1 := { f with totals := SMap.set f.totals x.1 x.2.total }.hold (64, x.2)
  if (SMap.find f.vfMeters x.1).isSome then f1.hold (x.1, x.2) else f1

/-- EXPORT_BOUNDARY (R139, R456 to R461). -/
def execExportBoundary (s : State) : Host.Outcome State Fault Refusal :=
  evStep true true (fun s =>
    let f1 := s.exportRecs.foldl (fun f x => f.book x) s.fleet
    let fp := fun (x : Nat × Part) => (x.1, x.2.newExport s.now)
    let fc := fun (x : Nat × Ctx) => (x.1, x.2.newExport)
    let s1 : State := { s with fleet := f1.newExport s.now, parts := s.parts.map fp, ctxs := s.ctxs.map fc }
    s1.flushMeters.post (s1.fleet.expt - s.now % s1.fleet.expt) .exportBoundary) s

/-! ### Attestation (R437, R463) -/

/-- BSTAT (R437). -/
def Boot.bits (b : Boot) : Nat :=
  b.locked.toNat * 2 ^ 31 + b.minimal.toNat * 2 ^ 30 + b.failcnt % 4 * 2 ^ 28 + b.reason % 256 * 2 ^ 20 + b.stage % 16 * 2 ^ 16 +
    b.monver % 65536

/-- The 160 bytes of an attestation report: of a virtual function, or of the physical function, numbered 255 (R463). -/
def State.reportBody (s : State) (vf nonce : Nat) : List Byte :=
  let p := s.parts.find? (fun x => x.2.vfs.testBit vf)
  let pol := s.policy vf
  let part := match p with | some x => if vf = 255 then 255 else x.1 | none => 255
  let facets := match p with | some x => if vf = 255 then 0 else x.2.facets | none => 0
  leBytes 2 3 ++ leBytes 1 vf ++ leBytes 1 part ++ leBytes 4 s.boot.bits ++ leBytes 8 Config.deviceId ++ leBytes 4 s.boot.bootno ++
    List.replicate 4 0 ++ leBytes 32 nonce ++ (List.range 48).map (Config.imageHash s.boot.monver) ++
    (if pol = 0 then List.replicate 48 0 else (List.range 48).map (Config.imageHash (65536 + pol))) ++ leBytes 2 facets ++
    leBytes 2 s.boot.monver ++ leBytes 2 pol ++ leBytes 2 0

/-- ATTESTATION_REQUEST with a nonce of 32 bytes: the signed report is returned, once BOOTOK has brought a certified key (R459, R461, R463). -/
def execAttestationRequest (vf nonce : Nat) (s : State) : Host.Outcome State Fault Refusal :=
  evStep ((Nat.blt vf 64 || vf == 255) && s.configs) s.boot.bootok (fun s =>
    let f := s.fleet.fresh
    let r := f.signed (s.reportBody vf nonce)
    { s with fleet := { f.spend with reports := f.reports ++ [r] } }.flushCerts) s

end Sys2Proof.Machine
end

