-- ==== Sys2Proof/Machine/Fleet.lean ====
section
/-! DEFINITION. Rack caps, planes and hardware errors: demands and grants, PLANEEN, failing ports, corrected and uncorrectable errors
(R464 to R471). -/

namespace Sys2Proof.Machine

/-! ### Rack caps (R464 to R466) -/

/-- The plane on which cap messages go: the configured one, else the lowest with a live port (R464). -/
def Fleet.capPlane (f : Fleet) : Option Nat :=
  if Nat.blt Config.managementPlane 32 && !f.down.contains Config.managementPlane then some Config.managementPlane
  else (List.range 32).find? (fun n => !f.down.contains n)

/-- A management flit (R464). -/
def capFlit (type dev seq dmd floor meas grant : Nat) : Nat :=
  type % 256 + dev % 4096 * 2 ^ 8 + seq % 2 ^ 32 * 2 ^ 32 + dmd % 65536 * 2 ^ 64 + floor % 65536 * 2 ^ 80 + meas % 65536 * 2 ^ 96 +
    grant % 65536 * 2 ^ 112

/-- The floors of the packages that the allocator serves: those set through the switch, and this package's (R464). -/
def Fleet.served (f : Fleet) : List (Nat × Nat) := SMap.set f.floors Config.fabricId Config.packageFloor

/-- Whether every package's demand of the period has come (R465). -/
def Fleet.complete (f : Fleet) : Bool := f.served.all (fun x => (SMap.find f.demands x.1).isSome)

/-- DEMAND_SEND: this package's demand reaches its allocator; three periods without a grant bring the floor (R464 to R466). -/
def execDemandSend (s : State) : Host.Outcome State Fault Refusal :=
  evStep true true (fun s =>
    let f := s.fleet
    let seq := f.demandSeq + 1
    let dmd := min 6000 (Config.wantedPower seq)
    let flit := capFlit 1 Config.fabricId seq dmd Config.packageFloor (Config.measuredPower seq) 0
    let f1 := match f.capPlane with
      | some n => { f with demandSeq := seq, missed := f.missed + 1, flits := f.flits ++ [(n, flit)],
                           demands := SMap.set f.demands Config.fabricId dmd }
      | none => { f with demandSeq := seq, missed := f.missed + 1 }
    let s1 := { s with fleet := f1 }.post (1000000 - s.now % 1000000) .demandSend
    let s2 := if Nat.ble 3 f.missed then s1.post 0 .grantAbsence else s1
    if f1.demands.isEmpty then s2
    else if f1.complete then s2.post 0 .allocatorGrant
    else s2.post 100000 .allocatorWaitExpiry) s

/-- The grant of a package from the rack cap, all floors, all demands and its own (R465). -/
def grantFor (cap : Nat) (all : List (Nat × Nat)) (floor dmd : Nat) : Nat :=
  let e := cap - (all.map Prod.fst).foldl (· + ·) 0
  let x := (all.map (fun y => y.2 - y.1)).foldl (· + ·) 0
  if x = 0 then floor else floor + min (dmd - floor) (e * (dmd - floor) / x)

/-- The answer of the allocator: a package that sent nothing counts at its previous demand, and this package's grant is on its way
(R465). -/
def State.answer (s : State) : State :=
  let f := s.fleet
  let dmd := fun (d : Nat) => SMap.getD f.demands d (SMap.getD f.prev d 0)
  let all := f.served.map (fun x => (x.2, dmd x.1))
  let gs := f.served.map (fun x => (x.1, grantFor f.capC all x.2 (dmd x.1)))
  let s1 := { s with fleet := { f with grants := gs, prev := f.served.map (fun x => (x.1, dmd x.1)), demands := [] } }
  if f.capPlane.isSome then s1.post 1 (.grantReceived (SMap.getD gs Config.fabricId 0) f.demandSeq) else s1

/-- ALLOCATOR_GRANT (R465). -/
def execAllocatorGrant (s : State) : Host.Outcome State Fault Refusal :=
  evStep (!s.fleet.demands.isEmpty && s.fleet.complete) true State.answer s

/-- ALLOCATOR_WAIT_EXPIRY (R465). -/
def execAllocatorWaitExpiry (s : State) : Host.Outcome State Fault Refusal :=
  evStep (!s.fleet.demands.isEmpty) true State.answer s

/-- GRANT_RECEIVED: a grant that echoes a period is held for the next decision tick (R464, R466). -/
def execGrantReceived (watts seq : Nat) (s : State) : Host.Outcome State Fault Refusal :=
  evStep (Nat.ble seq s.fleet.demandSeq) true (fun s => { s with fleet := { s.fleet with grant := some watts, missed := 0 } }) s

/-- GRANT_ABSENCE: the floor is the grant (R466). -/
def execGrantAbsence (s : State) : Host.Outcome State Fault Refusal :=
  evStep (Nat.ble 3 s.fleet.missed) true (fun s =>
    { s with fleet := { s.fleet with grant := some Config.packageFloor, floorFlag := true } }) s

/-! ### Planes (R468) -/

/-- PLANEEN_WRITE (R468). -/
def execPlaneenWrite (value : Word) (s : State) : Host.Outcome State Fault Refusal :=
  evStep s.configs true (fun s => { s with fleet := { s.fleet with planeNext := some value.toNat } }) s

/-- FABRIC_PORT_FAILURE: accesses outstanding on the port's plane end with data errors as they reach it (R468, R471). -/
def execFabricPortFailure (port : Nat) (s : State) : Host.Outcome State Fault Refusal :=
  evStep (Nat.blt port 32 && !s.fleet.down.contains port) true (fun s =>
    { s with fleet := { s.fleet with down := s.fleet.down ++ [port] } }.logError 0 port 5 255 65535) s

/-! ### Hardware errors (R469 to R471) -/

/-- The number of a partition that owns an address in an error record; 255 where none does. -/
def State.partAt (s : State) (addr : Nat) : Nat := if isHbm addr then (s.partOfFacet (addr / 34359738368)).getD 255 else 255

/-- CORRECTED_ERROR: kind 0 in SRAM, 1 in HBM4, whose scrub the device pays; the value stands as it was (R469, R471). -/
def execCorrectedError (unit kind : Nat) (addr : DWord) (s : State) : Host.Outcome State Fault Refusal :=
  evStep (Nat.ble kind 1) true (fun s =>
    let s1 := if kind = 1 then s.chargeDevice (unitsOf (amountOf s.weights [(10, 1)])) else s
    s1.logError addr.toNat unit kind (s.partAt addr.toNat) 65535) s

/-- Every team of a partition stops as for a fault (R338, R470). -/
def State.stopPart (p : Nat) (s : State) : State :=
  let f := fun (x : Nat × Team) =>
    if x.2.part = p && x.2.resident && x.2.st != .faulted then
      (x.1, { (if (s.ctx x.2.ctx).stopd then x.2 else x.2.halt s.now) with st := .faulted, stopAt := some (s.cycle (.facets p) + 24) })
    else x
  { s with teams := s.teams.map f }.tuneHalves

/-- UNCORRECTABLE_UNCONSUMED: the data is dropped and the line is bad until it is wholly written; a full table stops the owning partition
(R470, R471). -/
def execUncorrectableUnconsumed (unit line : Nat) (s : State) : Host.Outcome State Fault Refusal :=
  let addr := 64 * line
  evStep (isHbm addr && !s.isBad line) true (fun s =>
    let k := sliceOf addr
    let p := s.partAt addr
    let s1 := s.loseLine line
    if Nat.blt (s1.fleet.badLines.filter (fun x => x.1 == k)).length 64 then
      { s1 with fleet := { s1.fleet with badLines := s1.fleet.badLines ++ [(k, line)] } }.logError addr unit 4 p 65535
    else (((s1.logError addr unit 4 p 65535).logError addr k 6 p 65535).stopPart p).tell .partitionBad p) s

/-- LINK_CRC_RETRY: a flit is sent again, at the device's cost; after the eighth retry the link goes down (R469, R471). -/
def execLinkCrcRetry (port : Nat) (s : State) : Host.Outcome State Fault Refusal :=
  evStep (Nat.blt port 32 && !s.fleet.down.contains port) true (fun s =>
    let n := SMap.getD s.fleet.retries port 0
    if Nat.ble 8 n then
      { s with fleet := { s.fleet with retries := SMap.erase s.fleet.retries port } }.post 0 (.fabricPortFailure port)
    else
      ({ s with fleet := { s.fleet with retries := SMap.set s.fleet.retries port (n + 1) } }.chargeDevice
        (unitsOf (amountOf s.weights [(11, 1)]))).logError 0 port 2 255 65535) s

end Sys2Proof.Machine
end

