-- ==== Sys2Proof/Machine/Boot.lean ====
section
/-! DEFINITION. Power gating, the start of the device, its lock, and firmware update (R430 to R440, R472). -/

namespace Sys2Proof.Machine

/-! ### Cluster power gating (R431 to R433) -/

/-- Whether a cluster holds a team of a pair. -/
def State.pairOn (s : State) (cl : Nat) : Bool := (s.onCluster cl).any (fun t => t.kernel.pair)

/-- Whether a GATE write is refused (R432). -/
def State.gateBad (s : State) (cl : Nat) (ret : Bool) : Bool :=
  (!ret && s.segs.any (fun x => !x.2.chip && x.2.cluster == cl && x.2.st == .resident)) || s.pairOn cl

def ClusterSt.gated (c : ClusterSt) : ClusterSt := { c with gate := true, busy := true, power := .quiescing }

/-- RET of CPWR is written (R7, R431). -/
def State.setRet (cl : Nat) (ret : Bool) (s : State) : State := s.setCluster cl { (s.cluster cl) with ret := ret }

/-- CLUSTER_GATE: CPWR is written with GATE = 1 and RET; the front end places no more team there. A refused write leaves CPWR as it was,
and a cluster that is not on starts no further sequence (R7, R431, R432). -/
def execClusterGate (cl : Nat) (ret : Bool) (s : State) : Host.Outcome State Fault Refusal :=
  evStep (Nat.blt cl 128 && s.configs) true (fun s =>
    let s1 := s.setRet cl ret
    if (s.cluster cl).power != .on then s1
    else if s.gateBad cl ret then s.tell .configError cl
    else (s1.setCluster cl (s1.cluster cl).gated).post 1 (.clusterGated cl)) s

/-- Whether a cluster has nothing resident and no matrix word queued, and nothing of its cores outstanding (R432). -/
def State.quiet (s : State) (cl : Nat) : Bool :=
  (s.onCluster cl).isEmpty && (s.cluster cl).queue.isEmpty &&
    !s.ops.any (fun x => (s.team x.2.team).cluster == cl && (s.team x.2.team).resident)

/-- The ticks that a wake takes: within 8,192, and the spec says no more (R433; DESIGN CHOICE, log entry 3). -/
def State.wakeTicks (s : State) (cl : Nat) : Nat := Config.latency (.clusterWakeComplete cl) s.now % 8193

/-- A wake begins: STATE reads 6 (R433). -/
def State.beginWake (cl : Nat) (s : State) : State :=
  (s.setCluster cl { (s.cluster cl) with power := .waking, wake := true, busy := true }).post (s.wakeTicks cl) (.clusterWakeComplete cl)

/-- The cluster's L1 TLB and instruction caches are dropped, and without retention its memory is lost (R432). -/
def State.dropRetention (cl : Nat) (s : State) : State :=
  { s with tlb := s.tlb.filter (fun e => e.place != cl)
           icache := SMap.filter s.icache (fun k _ => k / 18446744073709551616 / 65536 != cl)
           mem := if (s.cluster cl).ret then s.mem else Memory.clear s.mem (clusterKey cl) 8388608 }

/-- The rail is off: the clock of gated energy starts, and a wake asked for meanwhile begins (R432, R433). -/
def State.railOff (cl : Nat) (s : State) : State :=
  let c := s.cluster cl
  let s1 := s.setCluster cl { c with power := .railGated, busy := false, gate := false, offSince := some s.now }
  if c.wake then s1.beginWake cl else s1

/-- The state of CPWR that follows one on the way to the gate. -/
def PowerState.next : PowerState → PowerState
  | .quiescing => .draining
  | .draining => .savingRetention
  | .savingRetention => .clockGated
  | x => x

/-- CLUSTER_GATED: the sequence of R432 goes on by one state once the cluster is quiet. -/
def execClusterGated (cl : Nat) (s : State) : Host.Outcome State Fault Refusal :=
  let c := s.cluster cl
  evStep (c.power == .quiescing || c.power == .draining || c.power == .savingRetention || c.power == .clockGated) (s.quiet cl) (fun s =>
    if c.power = .clockGated then s.railOff cl
    else
      let s1 := s.setCluster cl { c with power := c.power.next }
      (if c.power = .savingRetention then s1.dropRetention cl else s1).post 1 (.clusterGated cl)) s

/-- CLUSTER_WAKE: a wake written while gating goes on waits for its end; one written to a cluster that is on does nothing (R433). -/
def execClusterWake (cl : Nat) (s : State) : Host.Outcome State Fault Refusal :=
  let c := s.cluster cl
  evStep (Nat.blt cl 128 && c.power != .on && !c.wake && s.configs) true (fun s =>
    if c.power = .railGated then s.beginWake cl else s.setCluster cl { c with wake := true }) s

/-- A cluster that is on again, with the ticks for which it was gated. -/
def ClusterSt.woken (now : Nat) (c : ClusterSt) : ClusterSt :=
  { c with power := .on, wake := false, busy := false, offTicks := c.offTicks + (match c.offSince with | some a => now - a | none => 0),
           offSince := none }

/-- CLUSTER_WAKE_COMPLETE (R433). -/
def execClusterWakeComplete (cl : Nat) (s : State) : Host.Outcome State Fault Refusal :=
  evStep ((s.cluster cl).power == .waking) true (fun s => s.setCluster cl ((s.cluster cl).woken s.now)) s

/-! ### Boot (R434 to R438, R472) -/

/-- The steps that the spec ties to ticks, each at the first tick that is a positive multiple of its length (R472). -/
def clockSteps : List (Nat × Ev) :=
  [(Config.switchGap - Config.period, .decisionTick),
    (Config.switchGap, .switchPoint)] ++ (List.range 19).map (fun d => (Config.correction, .correctionInterval d)) ++
    [(10000000, .exportBoundary), (1000000, .demandSend), (1073741824, .bootWatchdogExpiry)]

/-- A start that failed: the device is released from reset again, with one more failure; its memories outside keep what they hold, and the
board controller its counters (R436, R461). -/
def State.failStart (reason stage : Nat) (s : State) : State :=
  { State.reset with
    ticket := s.ticket + 1
    mem := s.mem
    crypt := s.crypt
    boot := { Boot.zero with failcnt := min 3 (s.boot.failcnt + 1), reason := reason, stage := stage, bootno := s.boot.bootno }
    fleet := { Fleet.zero with rootLeaf := s.fleet.rootLeaf } }

/-- The calibrated crossing latencies, each from 2 to 15 (R430). -/
def calibrated : List Nat := (List.range 48).map (fun i => max 2 (min 15 (Config.xlat i)))

/-- The policy images that verify, each pinned to its virtual function (R434). -/
def pinnedPolicies : List (Nat × Nat) :=
  (List.range 64).filterMap (fun v =>
    match Config.policyImage v with
    | some i => if Config.imageCheck i = 0 then some (v, versionOf i) else none
    | none => none)

/-- A start that has reached its calibration: the monitor runs, it has verified the policy images, of which minimal mode has none, and the
clocks go (R427, R434, R436, R472). -/
def State.started (minimal : Bool) (s : State) : State :=
  let v := versionOf (if minimal then Config.safeImage else Config.monitorImage)
  let b := { s.boot with released := true, minimal := minimal, stage := 4, xlat := calibrated, monver := v, layouts := Config.layouts v,
                         pins := if minimal then [] else pinnedPolicies }
  let s0 := clockSteps.foldl (fun s x => s.post x.1 x.2) { s with boot := b }
  let s1 := (List.range 16).foldl (fun s p => s.nextPeriod p) s0
  if minimal then s1.putPart 0 (fun p => { p with facets := 1, point := 0 }) else s1

/-- What the checks at the start find: of the monitor, then of the configuration store, then of the identity; of the safe monitor alone in
minimal mode (R435 to R438; log entry 16). -/
def State.bootCheck (s : State) : Nat :=
  if Nat.ble 3 s.boot.failcnt then Config.imageCheck Config.safeImage
  else match Config.imageCheck Config.monitorImage with
  | 0 => if Config.imageCheck Config.storeImage != 0 then 4 else if Config.identityOk s.ticket then 0 else 5
  | r => r

/-- The last stage that a start with a failed check reached (R437). -/
def stageOf (reason : Nat) : Nat := match reason with | 4 => 1 | 5 => 2 | _ => 0

/-- RESET_RELEASE: the boot ROM and the monitor verify what they start from; a refusal fails the start, and the third failure brings minimal
mode (R434 to R438, R472). -/
def execResetRelease (s : State) : Host.Outcome State Fault Refusal :=
  evStep (!s.boot.released) true (fun s =>
    let r := s.bootCheck
    if r = 0 then { s.started (Nat.ble 3 s.boot.failcnt) with ticket := s.ticket + 1 }
    else s.failStart (min r 5) (stageOf r)) s

/-- BOOT_WATCHDOG_EXPIRY (R436). -/
def execBootWatchdogExpiry (s : State) : Host.Outcome State Fault Refusal :=
  evStep (s.boot.released && !s.boot.bootok) true (fun s => s.failStart 6 s.boot.stage) s

/-- CFGLOCK_WRITE (R7, R434, R437). -/
def execCfglockWrite (s : State) : Host.Outcome State Fault Refusal :=
  evStep s.boot.released true (fun s => { s with boot := { s.boot with locked := true, stage := max 5 s.boot.stage } }) s

/-- BOOTOK_WRITE: the start ends, the failures are cleared, BOOTNO advances, a new epoch key is certified, and the records held for it go to
their rings (R434, R436, R458, R460, R461). -/
def execBootokWrite (s : State) : Host.Outcome State Fault Refusal :=
  evStep (s.boot.released && !s.boot.bootok) true (fun s =>
    { s with boot := { s.boot with bootok := true, bootno := s.boot.bootno + 1, failcnt := 0, stage := 6 }
             fleet := s.fleet.newEpoch }.flushMeters) s

/-! ### Firmware update (R439, R440) -/

/-- UPDATE_VERIFY: VER is written 1 (R439). -/
def execUpdateVerify (s : State) : Host.Outcome State Fault Refusal :=
  evStep (!s.boot.updBusy) true (fun s =>
    { s with boot := { s.boot with updBusy := true, updVer := true } }.post 1 .updateVerifyComplete) s

/-- The result of a check of a staged image (R435, R439). -/
def checkResult (c : Nat) : Nat := match c with | 0 => 0 | 3 => 5 | _ => 2

/-- UPDATE_VERIFY_COMPLETE (R435, R439). -/
def execUpdateVerifyComplete (s : State) : Host.Outcome State Fault Refusal :=
  evStep s.boot.updVer true (fun s =>
    { s.tick with boot := { s.boot with updBusy := false, updVer := false,
                                        updResult := checkResult (Config.imageCheck s.stagedImage) } }) s

/-- UPDATE_ACTIVATE_REQUEST: ACT is written 1; the next decision tick judges it (R439, R440). -/
def execUpdateActivateRequest (s : State) : Host.Outcome State Fault Refusal :=
  evStep (!s.boot.updBusy) true (fun s => { s with boot := { s.boot with updBusy := true, updAct := true } }) s

end Sys2Proof.Machine
end

