-- ==== Sys2Proof/Machine/Registers.lean ====
section
/-! DEFINITION. Registers without behaviour of their own, the read pointers of the rings, and the performance counters (R7, R8, R140, R141,
R346, R349, R370, R402, R413, R416, R419, R430, R439, R441 to R445, R456, R460, R464, R471). -/

namespace Sys2Proof.Machine

/-- The registers that a plain write changes. -/
inductive CReg where
  | xlat | weight | scale | access | exports | expt | frBase | frLog2 | mrBase | mrLog2 | erBase | erLog2 | vfBase | vfLog2 | frontEnd
  | saveBw | pfHold | rpsel | kdata | kcmd | tlbInvVa | tlbInv | updStage | capC | floor | cpwr
  deriving DecidableEq, Repr

/-- Their numbers, in this order. -/
def cregs : List CReg :=
  [.xlat, .weight, .scale, .access, .exports, .expt, .frBase, .frLog2, .mrBase, .mrLog2, .erBase, .erLog2, .vfBase, .vfLog2, .frontEnd,
   .saveBw, .pfHold, .rpsel, .kdata, .kcmd, .tlbInvVa, .tlbInv, .updStage, .capC, .floor, .cpwr]

/-- Entry `i` of a list of numbers replaced, the list at least `n` long. -/
def setNat (n : Nat) (l : List Nat) (i v : Nat) : List Nat := (List.range n).map (fun k => if k = i then v else l.getD k 0)

/-- The eight entries of XLATn after a write; an entry of 0 or 1 is refused (R430). -/
def xlatBad (v : Nat) : Bool := (List.range 8).any (fun k => Nat.blt (fld v (4 * k) 4) 2)
def xlatSet (l : List Nat) (n v : Nat) : List Nat :=
  (List.range 48).map (fun i => if i / 8 = n then fld v (4 * (i % 8)) 4 else l.getD i 0)

/-- An access-table entry (R416). -/
def accOf (v : Nat) : AccEntry :=
  { lim := fld v 104 24, base := fld v 80 24, a := v.testBit 3, w := v.testBit 2, r := v.testBit 1, v := v.testBit 0 }

/-- An export-table entry: KEY from bit 136, the last address from bit 72, the first from bit 8, AT, WR, RD and valid (R370; log entry 25). -/
def exportOf (v : Nat) : Export :=
  { valid := v.testBit 0, key := fld v 136 32, lo := fld v 8 64, hi := fld v 72 64, at' := v.testBit 3, wr := v.testBit 2, rd := v.testBit 1 }
def Export.none : Export := { valid := false, key := 0, lo := 0, hi := 0, at' := false, wr := false, rd := false }
def exportSet (l : List Export) (i : Nat) (e : Export) : List Export :=
  (List.range 256).map (fun k => if k = i then e else l.getD k Export.none)

/-- The base and the size of a ring after a write: aligned to 64 bytes, 2^4 to 2^16 records (R402, R460, R471). -/
def Ring.setBase (v : Nat) (r : Ring) : Ring := { r with base := v / 64 * 64 }
def Ring.setLog2 (v : Nat) (r : Ring) : Ring := { r with log2 := v }

/-- A change of the fleet registers. -/
def State.modFleet (f : Fleet → Fleet) (s : State) : State := { s with fleet := f s.fleet }

/-- LOG2 written to a ring: a size outside 4 to 16 is refused. -/
def State.sized (v : Nat) (eff : State → State) (s : State) : State := if Nat.ble 4 v && Nat.ble v 16 then eff s else s.tell .configError v

/-- A context's front-end word is written: its SPQ, whether or not the context has been created (R7, R402). -/
def State.setSpq (i v : Nat) (s : State) : State :=
  if Nat.blt i 16384 then { s with ctxs := SMap.set s.ctxs i { (s.ctx i) with part := i / 1024, spq := fld v 16 24 } } else s

/-- KCMD is written: SLOT and OP stand as written, and GO = 1 starts a command, a reserved OP's with result 4. While a command is in
progress the register keeps its value (R7, R419; DESIGN CHOICE, log entry 25). -/
def State.writeKcmd (v : Nat) (s : State) : State :=
  if s.keys.busy then s
  else if v.testBit 31 then s.keyCommand (fld v 8 8) (fld v 0 2)
  else { s with keys := { s.keys with slot := fld v 8 8, op := fld v 0 2 } }

/-- The write of a register; a locked register keeps its value (R7, R434). The spec gives the weights and k_p no access kind: they are
RWL here, as R434 has the monitor load them before CFGLOCK (DEDUCED, log entry 25). -/
def State.writeReg (r : CReg) (i v : Nat) (s : State) : State :=
  match r with
  | .xlat => if s.boot.locked || Nat.ble 6 i then s else if xlatBad v then s.tell .configError i
             else { s with boot := { s.boot with xlat := xlatSet s.boot.xlat i v } }
  | .weight => if s.boot.locked || Nat.ble 18 i then s else { s with weights := setNat 18 s.weights i (v % 2 ^ 48) }
  | .scale => if s.boot.locked || Nat.ble 16 i then s else { s with scale := setNat 16 s.scale i v }
  | .access => { s with access := SMap.set s.access i (accOf v) }
  | .exports => { s with exports := SMap.set s.exports (i / 256) (exportSet (SMap.getD s.exports (i / 256) []) (i % 256) (exportOf v)) }
  | .expt => if Nat.ble 1000000 v && Nat.ble v 1000000000 then s.modFleet (fun f => { f with exptNext := some v })
             else s.tell .configError v
  | .frBase => if Nat.blt i 16 then s.putPart i (fun p => { p with ring := p.ring.setBase v }) else s
  | .frLog2 => if Nat.blt i 16 then s.sized v (fun s => s.putPart i (fun p => { p with ring := p.ring.setLog2 v })) else s
  | .mrBase => s.modFleet (fun f => { f with meter := f.meter.setBase v })
  | .mrLog2 => s.sized v (State.modFleet (fun f => { f with meter := f.meter.setLog2 v }))
  | .erBase => s.modFleet (fun f => { f with errors := f.errors.setBase v })
  | .erLog2 => s.sized v (State.modFleet (fun f => { f with errors := f.errors.setLog2 v }))
  | .vfBase => if Nat.blt i 64 then s.modFleet (fun f => f.setRing i ((f.ring i).setBase v)) else s
  | .vfLog2 => if Nat.blt i 64 then s.sized v (State.modFleet (fun f => f.setRing i ((f.ring i).setLog2 v))) else s
  | .frontEnd => s.setSpq i v
  | .saveBw => if Nat.blt i 16 then { s with savebws := SMap.set s.savebws i (v % 2 ^ 32) } else s
  | .pfHold => if Nat.blt i 16 then s.putPart i (fun p => { p with pfhold := v % 2 ^ 32 }) else s
  | .rpsel => if Nat.ble 256 i || (s.replay (i / 16)).arm then s
              else s.putPart (i / 16) (fun p => { p with replay := { p.replay with sel := setNat 16 p.replay.sel (i % 16) (v % 2 ^ 32) } })
  | .kdata => if Nat.ble 16 i || s.keys.busy then s
              else { s with keys := { s.keys with kdata := (List.range 64).map (fun k => if k / 4 = i then v / 256 ^ (k % 4) % 256
                                                                                        else s.keys.kdata.getD k 0) } }
  | .kcmd => s.writeKcmd v
  | .tlbInvVa => if Nat.blt i 16 then s.putPart i (fun p => { p with invVa := v % 2 ^ 41 }) else s
  | .tlbInv => if fld v 61 2 = 3 then s.tell .configError i else s
  | .updStage => { s with boot := { s.boot with updStage := v % 2 ^ 64 } }
  | .capC => s.modFleet (fun f => { f with capC := v })
  | .floor => s.modFleet (fun f => { f with floors := SMap.set f.floors i v })
  | .cpwr => if Nat.blt i 128 && !v.testBit 0 then s.setRet i (v.testBit 1) else s

/-- CONFIG_REGISTER_WRITE: `reg` counts the registers of `cregs`, `idx` the registers of one kind: XLAT and KDATA by their number, weights by
class, k by point, access-table entries by 1,024 × target + master, export entries by 256 × virtual function + entry, CPWR by cluster with GATE =
0, RPSEL by 16 × partition + pass, front-end words by context, SAVEBW by facet, the rest by partition, virtual function or device (R7, R8). In
minimal mode only UPDSTAGE is written (R436). -/
def execConfigRegisterWrite (reg idx value : Nat) (s : State) : Host.Outcome State Fault Refusal :=
  match cregs[reg]? with
  | none => evStep false false id s
  | some r => evStep (s.configs || r == .updStage) true (State.writeReg r idx value) s

/-- FRRPTR_WRITE: the read pointer of partition 0 to 15's fault ring, of the physical function's meter ring (16), of the error ring (17), or of a
virtual function's meter ring (18 on); what waits for a slot goes on (R402, R460, R471). -/
def execFrrptrWrite (ring : Nat) (value : Word) (s : State) : Host.Outcome State Fault Refusal :=
  let set := fun (r : Ring) => { r with rptr := value.toNat }
  evStep (Nat.blt ring 82 && s.configs) true (fun s =>
    if Nat.blt ring 16 then s.putPart ring (fun p => { p with ring := set p.ring })
    else if ring = 16 then (s.modFleet (fun f => { f with meter := set f.meter })).flushMeters
    else if ring = 17 then (s.modFleet (fun f => { f with errors := set f.errors })).flushErrors
    else (s.modFleet (fun f => f.setRing (ring - 18) (set (f.ring (ring - 18))))).flushMeters) s

/-! ### Counters (R441 to R444) -/

/-- Entry `n` of four values replaced. -/
def setFour {w : Nat} (l : List (BitVec w)) (n : Nat) (v : BitVec w) : List (BitVec w) :=
  (List.range 4).map (fun k => if k = n then v else l.getD k 0)

/-- What counter `n` has added in a router cycle (R443). -/
def Part.landedIn (x : Part) (cyc n : Nat) : Nat := match x.landed with | some (c, l) => if c = cyc then l.getD n 0 else 0 | none => 0

/-- The selectors in effect in a router cycle: a write takes effect from the next (R443). -/
def Part.selIn (x : Part) (cyc : Nat) : List Word := match x.selWas with | some (c, l) => if c = cyc then l else x.pmsel | none => x.pmsel

/-- A counter with an amount more; its selector's OV is set where the sum wraps (R441, R443). -/
def Part.sum (n amount : Nat) (x : Part) : Part :=
  let sum := (x.pmc.getD n 0).toNat + amount
  { x with pmc := setFour x.pmc n (BitVec.ofNat 64 sum)
           pmsel := if Nat.ble (2 ^ 64) sum then setFour x.pmsel n (x.pmsel.getD n 0 ||| 0x10000000) else x.pmsel }

/-- PMC_WRITE: the written value, plus the increments of the same router cycle, those before the write among them (R443, R444). -/
def execPmcWrite (p n : Nat) (value : DWord) (s : State) : Host.Outcome State Fault Refusal :=
  evStep (Nat.blt p 16 && Nat.blt n 4 && !(s.replay p).arm && s.configs) true
    (fun s => s.putPart p (fun x => ({ x with pmc := setFour x.pmc n value }).sum n (x.landedIn (s.cycle .uncore) n))) s

/-- A written selector: reserved bits are 0, and OV is cleared by a 1 (R8, R441). -/
def selWrite (old v : Word) : Word := (v &&& 0xE00FFCFF) ||| (old &&& 0x10000000 &&& ~~~v)

/-- PMSEL_WRITE: what the selectors were counts through this router cycle (R441, R443, R444). -/
def execPmselWrite (p n : Nat) (value : Word) (s : State) : Host.Outcome State Fault Refusal :=
  evStep (Nat.blt p 16 && Nat.blt n 4 && !(s.replay p).arm && s.configs) true
    (fun s => s.putPart p (fun x =>
      { x with pmsel := setFour x.pmsel n (selWrite (x.pmsel.getD n 0) value), selWas := some (s.cycle .uncore, x.selIn (s.cycle .uncore)) })) s

/-- A counter takes an amount in a router cycle. -/
def Part.add (cyc n amount : Nat) (x : Part) : Part :=
  { x.sum n amount with landed := some (cyc, (List.range 4).map (fun k => x.landedIn cyc k + (if k = n then amount else 0))) }

/-- COUNTER_EVENT: the counters that select the event as it arrives at the counter block add its size (R441 to R443). -/
def execCounterEvent (p : Nat) (x : CtxEvent) (amount : Nat) (s : State) : Host.Outcome State Fault Refusal :=
  let on := (List.range 4).filter (fun n => pmSelects (((s.part p).selIn (s.cycle .uncore)).getD n 0) x.ctx x.replay x.ev)
  evStep (Nat.blt p 16 && !on.isEmpty) true (fun s => s.putPart p (fun x => on.foldl (fun x n => x.add (s.cycle .uncore) n amount) x)) s

end Sys2Proof.Machine
end

