-- ==== Sys2Proof/Machine/Uniform.lean ====
section
/-! DEFINITION. Uniform arithmetic, comparison, immediate forms and constants (R196 to R203). -/

namespace Sys2Proof.Machine

/-- A uniform arithmetic word: classes 0 and 1, one UALU event (R142, R196, R442). -/
def uniSpec (us : List Use) : WordSpec := { uses := us, cls := fun _ => [(1, 1)], evs := fun _ => [(0x03, 1)] }

/-- A word of two scalar sources (R197). -/
def uniBin (f : Word → Word → Word) (d a b : Nat) (fa fb : Bool) (s : State) : Host.Outcome State Fault Refusal :=
  issueWord (uniSpec [srcS a fa, srcS b fb, dstS d]) (State.wrS d (f (s.src.sVal a) (s.src.sVal b))) s

/-- A word of one scalar source (R197, R200, R201). -/
def uniUn (f : Word → Word) (d a : Nat) (fa : Bool) (s : State) : Host.Outcome State Fault Refusal :=
  issueWord (uniSpec [srcS a fa, dstS d]) (State.wrS d (f (s.src.sVal a))) s

/-- A word of two scalar pairs (R198). -/
def uniPair (f : DWord → DWord → DWord) (d a b : Nat) (fa fb : Bool) (s : State) : Host.Outcome State Fault Refusal :=
  issueWord (uniSpec [srcSP a fa, srcSP b fb, dstSP d]) (State.wrSPair d (f (s.src.sPair a) (s.src.sPair b))) s

/-- A field word, whose field must lie within the word (R202). -/
def uniField (us : List Use) (pos w1 : Nat) : WordSpec :=
  { uniSpec us with opnd := fun _ => Nat.blt 32 (pos + w1 + 1) }

/-- SADD.s (R197). -/
def execSaddS (d a b : Nat) (fa fb : Bool) (s : State) : Host.Outcome State Fault Refusal :=
  uniBin (· + ·) d a b fa fb s

/-- SADD.z (R197). -/
def execSaddZ (d a b : Nat) (fa fb : Bool) (s : State) : Host.Outcome State Fault Refusal :=
  uniBin (· + ·) d a b fa fb s

/-- SSUB.s (R197). -/
def execSsubS (d a b : Nat) (fa fb : Bool) (s : State) : Host.Outcome State Fault Refusal :=
  uniBin (· - ·) d a b fa fb s

/-- SSUB.z (R197). -/
def execSsubZ (d a b : Nat) (fa fb : Bool) (s : State) : Host.Outcome State Fault Refusal :=
  uniBin (· - ·) d a b fa fb s

/-- SMUL.s (R197). -/
def execSmulS (d a b : Nat) (fa fb : Bool) (s : State) : Host.Outcome State Fault Refusal :=
  uniBin (· * ·) d a b fa fb s

/-- SMUL.z (R197). -/
def execSmulZ (d a b : Nat) (fa fb : Bool) (s : State) : Host.Outcome State Fault Refusal :=
  uniBin (· * ·) d a b fa fb s

/-- SMULH.s (R197). -/
def execSmulhS (d a b : Nat) (fa fb : Bool) (s : State) : Host.Outcome State Fault Refusal :=
  uniBin mulhS d a b fa fb s

/-- SMULH.z (R197). -/
def execSmulhZ (d a b : Nat) (fa fb : Bool) (s : State) : Host.Outcome State Fault Refusal :=
  uniBin mulhZ d a b fa fb s

/-- SDIV.s (R197). -/
def execSdivS (d a b : Nat) (fa fb : Bool) (s : State) : Host.Outcome State Fault Refusal :=
  uniBin divS d a b fa fb s

/-- SDIV.z (R197). -/
def execSdivZ (d a b : Nat) (fa fb : Bool) (s : State) : Host.Outcome State Fault Refusal :=
  uniBin divZ d a b fa fb s

/-- SREM.s (R197). -/
def execSremS (d a b : Nat) (fa fb : Bool) (s : State) : Host.Outcome State Fault Refusal :=
  uniBin remS d a b fa fb s

/-- SREM.z (R197). -/
def execSremZ (d a b : Nat) (fa fb : Bool) (s : State) : Host.Outcome State Fault Refusal :=
  uniBin remZ d a b fa fb s

/-- SAND (R197). -/
def execSand (d a b : Nat) (fa fb : Bool) (s : State) : Host.Outcome State Fault Refusal :=
  uniBin (· &&& ·) d a b fa fb s

/-- SOR (R197). -/
def execSor (d a b : Nat) (fa fb : Bool) (s : State) : Host.Outcome State Fault Refusal :=
  uniBin (· ||| ·) d a b fa fb s

/-- SXOR (R197). -/
def execSxor (d a b : Nat) (fa fb : Bool) (s : State) : Host.Outcome State Fault Refusal :=
  uniBin (· ^^^ ·) d a b fa fb s

/-- SANDN (R197). -/
def execSandn (d a b : Nat) (fa fb : Bool) (s : State) : Host.Outcome State Fault Refusal :=
  uniBin (fun a b => a &&& ~~~b) d a b fa fb s

/-- SSHL (R197). -/
def execSshl (d a b : Nat) (fa fb : Bool) (s : State) : Host.Outcome State Fault Refusal :=
  uniBin shl d a b fa fb s

/-- SSHR (R197). -/
def execSshr (d a b : Nat) (fa fb : Bool) (s : State) : Host.Outcome State Fault Refusal :=
  uniBin shr d a b fa fb s

/-- SSRA (R197). -/
def execSsra (d a b : Nat) (fa fb : Bool) (s : State) : Host.Outcome State Fault Refusal :=
  uniBin sra d a b fa fb s

/-- SROT (R197). -/
def execSrot (d a b : Nat) (fa fb : Bool) (s : State) : Host.Outcome State Fault Refusal :=
  uniBin rotl d a b fa fb s

/-- SMIN.s (R197). -/
def execSminS (d a b : Nat) (fa fb : Bool) (s : State) : Host.Outcome State Fault Refusal :=
  uniBin minS d a b fa fb s

/-- SMIN.z (R197). -/
def execSminZ (d a b : Nat) (fa fb : Bool) (s : State) : Host.Outcome State Fault Refusal :=
  uniBin minZ d a b fa fb s

/-- SMAX.s (R197). -/
def execSmaxS (d a b : Nat) (fa fb : Bool) (s : State) : Host.Outcome State Fault Refusal :=
  uniBin maxS d a b fa fb s

/-- SMAX.z (R197). -/
def execSmaxZ (d a b : Nat) (fa fb : Bool) (s : State) : Host.Outcome State Fault Refusal :=
  uniBin maxZ d a b fa fb s

/-- SADD64 (R197, R198). -/
def execSadd64 (d a b : Nat) (fa fb : Bool) (s : State) : Host.Outcome State Fault Refusal :=
  uniPair (· + ·) d a b fa fb s

/-- SSUB64 (R197, R198). -/
def execSsub64 (d a b : Nat) (fa fb : Bool) (s : State) : Host.Outcome State Fault Refusal :=
  uniPair (· - ·) d a b fa fb s

/-- SPOPC (R197). -/
def execSpopc (d a : Nat) (fa : Bool) (s : State) : Host.Outcome State Fault Refusal :=
  uniUn popc d a fa s

/-- SCLZ (R197). -/
def execSclz (d a : Nat) (fa : Bool) (s : State) : Host.Outcome State Fault Refusal :=
  uniUn clz d a fa s

/-- SCTZ (R197). -/
def execSctz (d a : Nat) (fa : Bool) (s : State) : Host.Outcome State Fault Refusal :=
  uniUn ctz d a fa s

/-- SBREV (R197). -/
def execSbrev (d a : Nat) (fa : Bool) (s : State) : Host.Outcome State Fault Refusal :=
  uniUn brev d a fa s

/-- SMOV (R197). -/
def execSmov (d a : Nat) (fa : Bool) (s : State) : Host.Outcome State Fault Refusal :=
  uniUn id d a fa s

/-- SSEL: `d` keeps its value where `b` is 0 (R197, R198). -/
def execSsel (d a b : Nat) (fa fb : Bool) (s : State) : Host.Outcome State Fault Refusal :=
  issueWord (uniSpec [srcS a fa, srcS b fb, updS d])
    (State.wrS d (if s.src.sVal b = 0 then s.src.sVal d else s.src.sVal a)) s

/-- SCMP (R199). -/
def execScmp (cc d a b : Nat) (fa fb : Bool) (s : State) : Host.Outcome State Fault Refusal :=
  uniBin (fun x y => if intCond cc x y then 1 else 0) d a b fa fb s

/-- SADD.s with an immediate (R200). -/
def execSaddSImm (d a : Nat) (fa : Bool) (imm : Nat) (s : State) : Host.Outcome State Fault Refusal :=
  uniUn (fun x => x + simm 12 imm) d a fa s

/-- SSHL by a constant (R201). -/
def execSshlImm (d a : Nat) (fa : Bool) (n : Nat) (s : State) : Host.Outcome State Fault Refusal :=
  uniUn (fun x => shl x (BitVec.ofNat 32 n)) d a fa s

/-- SSHR by a constant (R201). -/
def execSshrImm (d a : Nat) (fa : Bool) (n : Nat) (s : State) : Host.Outcome State Fault Refusal :=
  uniUn (fun x => shr x (BitVec.ofNat 32 n)) d a fa s

/-- SSRA by a constant (R201). -/
def execSsraImm (d a : Nat) (fa : Bool) (n : Nat) (s : State) : Host.Outcome State Fault Refusal :=
  uniUn (fun x => sra x (BitVec.ofNat 32 n)) d a fa s

/-- SROT by a constant (R201). -/
def execSrotImm (d a : Nat) (fa : Bool) (n : Nat) (s : State) : Host.Outcome State Fault Refusal :=
  uniUn (fun x => rotl x (BitVec.ofNat 32 n)) d a fa s

/-- SBFE.s (R202). -/
def execSbfeS (d a : Nat) (fa : Bool) (w1 pos : Nat) (s : State) : Host.Outcome State Fault Refusal :=
  issueWord (uniField [srcS a fa, dstS d] pos w1) (State.wrS d (bfeS (s.src.sVal a) pos (w1 + 1))) s

/-- SBFE.z (R202). -/
def execSbfeZ (d a : Nat) (fa : Bool) (w1 pos : Nat) (s : State) : Host.Outcome State Fault Refusal :=
  issueWord (uniField [srcS a fa, dstS d] pos w1) (State.wrS d (bfeZ (s.src.sVal a) pos (w1 + 1))) s

/-- SBFI (R202). -/
def execSbfi (d a : Nat) (fa : Bool) (w1 pos : Nat) (s : State) : Host.Outcome State Fault Refusal :=
  issueWord (uniField [srcS a fa, updS d] pos w1) (State.wrS d (bfi (s.src.sVal d) (s.src.sVal a) pos (w1 + 1))) s

/-- SLI (R203). -/
def execSli (d imm : Nat) (s : State) : Host.Outcome State Fault Refusal :=
  issueWord (uniSpec [dstS d]) (State.wrS d (simm 19 imm)) s

/-- SLIT (R188, R203). -/
def execSlit (d value : Nat) (s : State) : Host.Outcome State Fault Refusal :=
  issueWord (uniSpec [dstS d]) (State.wrS d (BitVec.ofNat 32 value)) s

end Sys2Proof.Machine
end

