-- ==== Sys2Proof/Machine/VectorFloat.lean ====
section
/-! DEFINITION. Vector float words and conversions (R84 to R96, R226, R239 to R249). -/

namespace Sys2Proof.Machine

/-- The format of a float tag. -/
def fFmt (t : Tag) : Fmt := (fmtOf? t).getD .fp32

/-- Element-wise operations on the patterns of a lane (R79). -/
def mapE (t : Tag) (op : Fmt → Nat → Nat) (a : Word) : Word :=
  ofElems (elems t) (fun j => op (fFmt t) (elemOf a (elems t) j))
def mapE2 (t : Tag) (op : Fmt → Nat → Nat → Nat) (a b : Word) : Word :=
  ofElems (elems t) (fun j => op (fFmt t) (elemOf a (elems t) j) (elemOf b (elems t) j))
def mapE3 (t : Tag) (op : Fmt → Nat → Nat → Nat → Nat) (a b c : Word) : Word :=
  ofElems (elems t) (fun j => op (fFmt t) (elemOf a (elems t) j) (elemOf b (elems t) j) (elemOf c (elems t) j))

/-- The class of a float word by its source: 3 for FP32 and 4 otherwise; I32, and RAW read as I32, count as FP32
(R142). -/
def fCls (a : Nat) (g : Group) : Nat := if g.tag a = .fp32 || g.tag a = .i32 || g.tag a = .raw then 3 else 4

/-- A float word of two sources of one format (R226, R239). -/
def fltBin (op : Fmt → Nat → Nat → Nat) (d a b : Nat) (fa fb : Bool) (s : State) : Host.Outcome State Fault Refusal :=
  issueWord (laneSpec [srcV a fa, srcV b fb, dstV d] (fmtFloat a [b]) (fCls a))
    (State.laneWr d (s.src.tag a) s.src.em (fun i => mapE2 (s.src.tag a) op (s.src.vLane a i) (s.src.vLane b i))) s

/-- A float word of one source, of class `k` (R226, R242). -/
def fltUn (k : Group → Nat) (op : Fmt → Nat → Nat) (d a : Nat) (fa : Bool) (s : State) :
    Host.Outcome State Fault Refusal :=
  issueWord (laneSpec [srcV a fa, dstV d] (fmtFloat a []) k)
    (State.laneWr d (s.src.tag a) s.src.em (fun i => mapE (s.src.tag a) op (s.src.vLane a i))) s

/-- A special function of one source: its exact value rounded once (R91, R242). -/
def fltSpec (f : FVal → FVal) (rm d a : Nat) (fa : Bool) (s : State) : Host.Outcome State Fault Refusal :=
  fltUn (fun _ => 5) (fun m x => roundF m (f (fval m x)) (rmodeOf rm)) d a fa s

/-- The tags whose elements carry a sign (R243). -/
def signTags : List Tag := [.fp32, .bf16x2, .fp16x2, .e4m3x4, .e5m2x4, .e2m1x8]

/-- VFABS and VFNEG: a change of the sign bits alone (R88, R243). -/
def fltSign (op : Word → Word → Word) (d a : Nat) (fa : Bool) (s : State) : Host.Outcome State Fault Refusal :=
  issueWord (laneSpec [srcV a fa, dstV d] (fmtIn a signTags) (fCls a))
    (State.laneWr d (s.src.tag a) s.src.em
      (fun i => op (s.src.vLane a i) (ofElems (elems (s.src.tag a)) (fun _ => (fFmt (s.src.tag a)).signBit)))) s

/-- `x` times 2 to the power `n`, exactly (R240). -/
def fscaleE (x : FVal) (n : Int) : FVal := fmulE x (.fin false 1 n)

/-- The tag that VFSCALE asks of its scale for a source (R240). -/
def fmtScale (a b : Nat) (g : Group) : Option Nat :=
  if (g.tag a = .fp32 && g.tag b = .i32) || ((g.tag a = .bf16x2 || g.tag a = .fp16x2) && g.tag b = .i16x2) then none
  else some 0

/-- The formats of VFDOT2 (R241). -/
def fmtDot (a b d : Nat) (g : Group) : Option Nat :=
  if (g.tag a = .bf16x2 || g.tag a = .fp16x2) && g.tag b = g.tag a && g.tag d = .fp32 then none else some 0

/-- The exact sum of VFDOT2 (R241). -/
def fdot2 (f : Fmt) (rm : RMode) (a b acc : Word) : Word :=
  BitVec.ofNat 32 (roundF .fp32 (fsum [fmulE (fval f (elemOf a 2 0)) (fval f (elemOf b 2 0)),
    fmulE (fval f (elemOf a 2 1)) (fval f (elemOf b 2 1)), f32 acc] rm) rm)

/-- The ratio of elements per lane between two tags (R246). -/
def cvtRatio (x y : Tag) : Nat := max (elems x) (elems y) / min (elems x) (elems y)

/-- A conversion of one lane from tag `x` to tag `t` at a part, merging into `old` where the destination has more
elements (R246). -/
def cvtLane (cvt : Nat → Nat) (x t : Tag) (part : Nat) (a old : Word) : Word :=
  if Nat.ble (elems x) (elems t) then
    (List.range (elems x)).foldl (fun r j => setElem r (elems t) (part * elems x + j) (cvt (elemOf a (elems x) j))) old
  else ofElems (elems t) (fun j => cvt (elemOf a (elems x) (part * elems t + j)))

/-- A conversion: its accepted destinations and sources, its element operation; where the destination has more elements it is a source as
well (R246 to R249). -/
def fltCvt (dsts srcs : List Tag) (cvt : Tag → Tag → Nat → Nat) (d a : Nat) (fa : Bool) (part tag : Nat) (s : State) :
    Host.Outcome State Fault Refusal :=
  let t := (tagOf? tag).getD .raw
  issueWord
    { laneSpec [srcV a fa, if Nat.blt (elems (s.src.tag a)) (elems t) then updV d else dstV d] (fmtIn a srcs) (fCls a) with
      opnd := fun s => Nat.blt 10 tag || !dsts.contains t || cvtRatio (s.src.tag a) t == 8
        || Nat.ble (cvtRatio (s.src.tag a) t) part }
    (State.laneWr d t s.src.em
      (fun i => cvtLane (cvt (s.src.tag a) t) (s.src.tag a) t part (s.src.vLane a i) (s.src.vLane d i))) s

/-- VFADD (R239). -/
def execVfadd (rm d a b : Nat) (fa fb : Bool) (s : State) : Host.Outcome State Fault Refusal :=
  fltBin (fun m x y => roundF m (fsum [fval m x, fval m y] (rmodeOf rm)) (rmodeOf rm)) d a b fa fb s

/-- VFSUB (R239). -/
def execVfsub (rm d a b : Nat) (fa fb : Bool) (s : State) : Host.Outcome State Fault Refusal :=
  fltBin (fun m x y => roundF m (fsum [fval m x, (fval m y).negate] (rmodeOf rm)) (rmodeOf rm)) d a b fa fb s

/-- VFMUL (R239). -/
def execVfmul (rm d a b : Nat) (fa fb : Bool) (s : State) : Host.Outcome State Fault Refusal :=
  fltBin (fun m x y => roundF m (fmulE (fval m x) (fval m y)) (rmodeOf rm)) d a b fa fb s

/-- VFMA: one rounding of the exact product and sum (R85, R239). -/
def execVfma (rm d a b : Nat) (fa fb : Bool) (s : State) : Host.Outcome State Fault Refusal :=
  issueWord (laneSpec [srcV a fa, srcV b fb, updV d] (fmtFloat a [b, d]) (fCls a))
    (State.laneWr d (s.src.tag a) s.src.em (fun i => mapE3 (s.src.tag a)
      (fun m x y z => roundF m (fsum [fmulE (fval m x) (fval m y), fval m z] (rmodeOf rm)) (rmodeOf rm))
      (s.src.vLane a i) (s.src.vLane b i) (s.src.vLane d i))) s

/-- VFDOT2 (R241). -/
def execVfdot2 (rm d a b : Nat) (fa fb : Bool) (s : State) : Host.Outcome State Fault Refusal :=
  issueWord (laneSpec [srcV a fa, srcV b fb, updV d] (fmtDot a b d) (fun _ => 4))
    (State.laneWr d .fp32 s.src.em (fun i =>
      fdot2 (fFmt (s.src.tag a)) (rmodeOf rm) (s.src.vLane a i) (s.src.vLane b i) (s.src.vLane d i))) s

/-- VFMIN (R90, R239). -/
def execVfmin (d a b : Nat) (fa fb : Bool) (s : State) : Host.Outcome State Fault Refusal :=
  fltBin (fminmax false) d a b fa fb s

/-- VFMAX (R90, R239). -/
def execVfmax (d a b : Nat) (fa fb : Bool) (s : State) : Host.Outcome State Fault Refusal :=
  fltBin (fminmax true) d a b fa fb s

/-- VFSCALE (R240). -/
def execVfscale (rm d a b : Nat) (fa fb : Bool) (s : State) : Host.Outcome State Fault Refusal :=
  issueWord (laneSpec [srcV a fa, srcV b fb, dstV d] (fmtScale a b) (fCls a))
    (State.laneWr d (s.src.tag a) s.src.em (fun i => mapE2 (s.src.tag a)
      (fun m x n => roundF m (fscaleE (fval m x) (elemInt (32 / elems (s.src.tag a)) n)) (rmodeOf rm))
      (s.src.vLane a i) (s.src.vLane b i))) s

/-- VFRCP (R91, R242). -/
def execVfrcp (rm d a : Nat) (fa : Bool) (s : State) : Host.Outcome State Fault Refusal :=
  fltSpec frcpE rm d a fa s

/-- VFRSQ (R91, R242). -/
def execVfrsq (rm d a : Nat) (fa : Bool) (s : State) : Host.Outcome State Fault Refusal :=
  fltSpec frsqE rm d a fa s

/-- VFSQRT (R91, R242). -/
def execVfsqrt (rm d a : Nat) (fa : Bool) (s : State) : Host.Outcome State Fault Refusal :=
  fltSpec fsqrtE rm d a fa s

/-- VFEXP2 (R91, R242). -/
def execVfexp2 (rm d a : Nat) (fa : Bool) (s : State) : Host.Outcome State Fault Refusal :=
  fltSpec fexp2E rm d a fa s

/-- VFLOG2 (R91, R242). -/
def execVflog2 (rm d a : Nat) (fa : Bool) (s : State) : Host.Outcome State Fault Refusal :=
  fltSpec flog2E rm d a fa s

/-- VFSIN (R91, R242). -/
def execVfsin (rm d a : Nat) (fa : Bool) (s : State) : Host.Outcome State Fault Refusal :=
  fltSpec (fturnE 0) rm d a fa s

/-- VFCOS (R91, R242). -/
def execVfcos (rm d a : Nat) (fa : Bool) (s : State) : Host.Outcome State Fault Refusal :=
  fltSpec (fturnE 1) rm d a fa s

/-- VFRND (R242). -/
def execVfrnd (rm d a : Nat) (fa : Bool) (s : State) : Host.Outcome State Fault Refusal :=
  fltUn (fCls a) (fun m x => roundF m (frndE (fval m x) (rmodeOf rm)) (rmodeOf rm)) d a fa s

/-- VFABS (R243). -/
def execVfabs (d a : Nat) (fa : Bool) (s : State) : Host.Outcome State Fault Refusal :=
  fltSign (fun x m => x &&& ~~~m) d a fa s

/-- VFNEG (R243). -/
def execVfneg (d a : Nat) (fa : Bool) (s : State) : Host.Outcome State Fault Refusal :=
  fltSign (fun x m => x ^^^ m) d a fa s

/-- VFCLASS (R244). -/
def execVfclass (d a : Nat) (fa : Bool) (s : State) : Host.Outcome State Fault Refusal :=
  issueWord (laneSpec [srcV a fa, dstV d] (fmtFloat a []) (fCls a))
    (State.laneWr d .i32 s.src.em (fun i => mapE (s.src.tag a) (fun m x => 2 ^ fclass m x) (s.src.vLane a i))) s

/-- VFCMP (R245). -/
def execVfcmp (cc d a b : Nat) (fa fb : Bool) (s : State) : Host.Outcome State Fault Refusal :=
  issueWord (laneSpec [srcV a fa, srcV b fb, dstS d] (fmtBoth (fmtIn a [.fp32]) (fmtIn b [.fp32])) (fCls a))
    (State.laneWrS d s.src.em
      (maskOf (fun i => s.src.active i && fcond cc (f32 (s.src.vLane a i)) (f32 (s.src.vLane b i))))) s

/-- The float tags that conversions read (R247). -/
def cvtTags : List Tag := [.fp32, .bf16x2, .fp16x2, .e4m3x4, .e5m2x4, .e2m1x8, .e8m0x4]

/-- VFCVT (R92 to R94, R247). -/
def execVfcvt (d a : Nat) (fa : Bool) (part : Nat) (sat : Bool) (rm tag : Nat) (s : State) : Host.Outcome State Fault Refusal :=
  fltCvt cvtTags cvtTags (fun x t v => cvtFF (fFmt x) (fFmt t) v (rmodeOf rm) sat) d a fa part tag s

/-- VFCVTI (R95, R248). -/
def execVfcvti (d a : Nat) (fa : Bool) (part rm tag : Nat) (s : State) : Host.Outcome State Fault Refusal :=
  fltCvt [.i32, .i8x4, .i16x2] cvtTags (fun x t v => cvtFI (fFmt x) (32 / elems t) v (rmodeOf rm)) d a fa part tag s

/-- VICVTF (R96, R249). -/
def execVicvtf (d a : Nat) (fa : Bool) (part : Nat) (sat : Bool) (rm tag : Nat) (s : State) : Host.Outcome State Fault Refusal :=
  fltCvt signTags [.raw, .i32, .i8x4, .i16x2] (fun x t v => cvtIF (fFmt t) (32 / elems x) v (rmodeOf rm) sat) d a fa part tag s

end Sys2Proof.Machine
end

