-- ==== Sys2Proof/Machine/Dispatch.lean ====
section
/-! DEFINITION. The dispatch of an instruction or step to its meaning, one arm per constructor. -/

namespace Sys2Proof.Machine

def exec (i : Instr) (s : State) : Host.Outcome State Fault Refusal :=
  match i with
  | .saddS d a b fa fb => Sys2Proof.Machine.execSaddS d a b fa fb s
  | .saddZ d a b fa fb => Sys2Proof.Machine.execSaddZ d a b fa fb s
  | .ssubS d a b fa fb => Sys2Proof.Machine.execSsubS d a b fa fb s
  | .ssubZ d a b fa fb => Sys2Proof.Machine.execSsubZ d a b fa fb s
  | .smulS d a b fa fb => Sys2Proof.Machine.execSmulS d a b fa fb s
  | .smulZ d a b fa fb => Sys2Proof.Machine.execSmulZ d a b fa fb s
  | .smulhS d a b fa fb => Sys2Proof.Machine.execSmulhS d a b fa fb s
  | .smulhZ d a b fa fb => Sys2Proof.Machine.execSmulhZ d a b fa fb s
  | .sdivS d a b fa fb => Sys2Proof.Machine.execSdivS d a b fa fb s
  | .sdivZ d a b fa fb => Sys2Proof.Machine.execSdivZ d a b fa fb s
  | .sremS d a b fa fb => Sys2Proof.Machine.execSremS d a b fa fb s
  | .sremZ d a b fa fb => Sys2Proof.Machine.execSremZ d a b fa fb s
  | .sand d a b fa fb => Sys2Proof.Machine.execSand d a b fa fb s
  | .sor d a b fa fb => Sys2Proof.Machine.execSor d a b fa fb s
  | .sxor d a b fa fb => Sys2Proof.Machine.execSxor d a b fa fb s
  | .sandn d a b fa fb => Sys2Proof.Machine.execSandn d a b fa fb s
  | .sshl d a b fa fb => Sys2Proof.Machine.execSshl d a b fa fb s
  | .sshr d a b fa fb => Sys2Proof.Machine.execSshr d a b fa fb s
  | .ssra d a b fa fb => Sys2Proof.Machine.execSsra d a b fa fb s
  | .srot d a b fa fb => Sys2Proof.Machine.execSrot d a b fa fb s
  | .sminS d a b fa fb => Sys2Proof.Machine.execSminS d a b fa fb s
  | .sminZ d a b fa fb => Sys2Proof.Machine.execSminZ d a b fa fb s
  | .smaxS d a b fa fb => Sys2Proof.Machine.execSmaxS d a b fa fb s
  | .smaxZ d a b fa fb => Sys2Proof.Machine.execSmaxZ d a b fa fb s
  | .sadd64 d a b fa fb => Sys2Proof.Machine.execSadd64 d a b fa fb s
  | .ssub64 d a b fa fb => Sys2Proof.Machine.execSsub64 d a b fa fb s
  | .spopc d a fa => Sys2Proof.Machine.execSpopc d a fa s
  | .sclz d a fa => Sys2Proof.Machine.execSclz d a fa s
  | .sctz d a fa => Sys2Proof.Machine.execSctz d a fa s
  | .sbrev d a fa => Sys2Proof.Machine.execSbrev d a fa s
  | .smov d a fa => Sys2Proof.Machine.execSmov d a fa s
  | .ssel d a b fa fb => Sys2Proof.Machine.execSsel d a b fa fb s
  | .scmp cc d a b fa fb => Sys2Proof.Machine.execScmp cc d a b fa fb s
  | .saddSImm d a fa imm => Sys2Proof.Machine.execSaddSImm d a fa imm s
  | .sshlImm d a fa n => Sys2Proof.Machine.execSshlImm d a fa n s
  | .sshrImm d a fa n => Sys2Proof.Machine.execSshrImm d a fa n s
  | .ssraImm d a fa n => Sys2Proof.Machine.execSsraImm d a fa n s
  | .srotImm d a fa n => Sys2Proof.Machine.execSrotImm d a fa n s
  | .sbfeS d a fa w1 pos => Sys2Proof.Machine.execSbfeS d a fa w1 pos s
  | .sbfeZ d a fa w1 pos => Sys2Proof.Machine.execSbfeZ d a fa w1 pos s
  | .sbfi d a fa w1 pos => Sys2Proof.Machine.execSbfi d a fa w1 pos s
  | .sli d imm => Sys2Proof.Machine.execSli d imm s
  | .slit d value => Sys2Proof.Machine.execSlit d value s
  | .jmp cond off => Sys2Proof.Machine.execJmp cond off s
  | .brz d off => Sys2Proof.Machine.execBrz d off s
  | .brnz d off => Sys2Proof.Machine.execBrnz d off s
  | .call d off => Sys2Proof.Machine.execCall d off s
  | .jmpr a fa => Sys2Proof.Machine.execJmpr a fa s
  | .callr d a fa => Sys2Proof.Machine.execCallr d a fa s
  | .ret a fa => Sys2Proof.Machine.execRet a fa s
  | .emrd d => Sys2Proof.Machine.execEmrd d s
  | .emwr a fa => Sys2Proof.Machine.execEmwr a fa s
  | .nop => Sys2Proof.Machine.execNop s
  | .exit => Sys2Proof.Machine.execExit s
  | .join => Sys2Proof.Machine.execJoin s
  | .itemput a fa => Sys2Proof.Machine.execItemput a fa s
  | .div d other joff => Sys2Proof.Machine.execDiv d other joff s
  | .itemhead d a fa imm => Sys2Proof.Machine.execItemhead d a fa imm s
  | .loopb d n => Sys2Proof.Machine.execLoopb d n s
  | .vadd d a b fa fb => Sys2Proof.Machine.execVadd d a b fa fb s
  | .vsub d a b fa fb => Sys2Proof.Machine.execVsub d a b fa fb s
  | .vaddc d a b fa fb => Sys2Proof.Machine.execVaddc d a b fa fb s
  | .vsubb d a b fa fb => Sys2Proof.Machine.execVsubb d a b fa fb s
  | .vmul d a b fa fb => Sys2Proof.Machine.execVmul d a b fa fb s
  | .vmulhS d a b fa fb => Sys2Proof.Machine.execVmulhS d a b fa fb s
  | .vmulhZ d a b fa fb => Sys2Proof.Machine.execVmulhZ d a b fa fb s
  | .vand d a b fa fb => Sys2Proof.Machine.execVand d a b fa fb s
  | .vor d a b fa fb => Sys2Proof.Machine.execVor d a b fa fb s
  | .vxor d a b fa fb => Sys2Proof.Machine.execVxor d a b fa fb s
  | .vandn d a b fa fb => Sys2Proof.Machine.execVandn d a b fa fb s
  | .vshl d a b fa fb => Sys2Proof.Machine.execVshl d a b fa fb s
  | .vshr d a b fa fb => Sys2Proof.Machine.execVshr d a b fa fb s
  | .vsra d a b fa fb => Sys2Proof.Machine.execVsra d a b fa fb s
  | .vminS d a b fa fb => Sys2Proof.Machine.execVminS d a b fa fb s
  | .vminZ d a b fa fb => Sys2Proof.Machine.execVminZ d a b fa fb s
  | .vmaxS d a b fa fb => Sys2Proof.Machine.execVmaxS d a b fa fb s
  | .vmaxZ d a b fa fb => Sys2Proof.Machine.execVmaxZ d a b fa fb s
  | .vabs d a fa => Sys2Proof.Machine.execVabs d a fa s
  | .vpopc d a fa => Sys2Proof.Machine.execVpopc d a fa s
  | .vclz d a fa => Sys2Proof.Machine.execVclz d a fa s
  | .vbrev d a fa => Sys2Proof.Machine.execVbrev d a fa s
  | .vmov d a fa => Sys2Proof.Machine.execVmov d a fa s
  | .vsel d a b fa fb => Sys2Proof.Machine.execVsel d a b fa fb s
  | .vbcast d a fa => Sys2Proof.Machine.execVbcast d a fa s
  | .vlane d a b fa fb => Sys2Proof.Machine.execVlane d a b fa fb s
  | .vcmp cc d a b fa fb => Sys2Proof.Machine.execVcmp cc d a b fa fb s
  | .vaddImm d a fa imm => Sys2Proof.Machine.execVaddImm d a fa imm s
  | .vshlImm d a fa n => Sys2Proof.Machine.execVshlImm d a fa n s
  | .vshrImm d a fa n => Sys2Proof.Machine.execVshrImm d a fa n s
  | .vsraImm d a fa n => Sys2Proof.Machine.execVsraImm d a fa n s
  | .vbfeS d a fa w1 pos => Sys2Proof.Machine.execVbfeS d a fa w1 pos s
  | .vbfeZ d a fa w1 pos => Sys2Proof.Machine.execVbfeZ d a fa w1 pos s
  | .vbfi d a fa w1 pos => Sys2Proof.Machine.execVbfi d a fa w1 pos s
  | .vsatS8 d a fa => Sys2Proof.Machine.execVsatS8 d a fa s
  | .vsatZ8 d a fa => Sys2Proof.Machine.execVsatZ8 d a fa s
  | .vsatS16 d a fa => Sys2Proof.Machine.execVsatS16 d a fa s
  | .vsatZ16 d a fa => Sys2Proof.Machine.execVsatZ16 d a fa s
  | .vpackB8 d a b fa fb => Sys2Proof.Machine.execVpackB8 d a b fa fb s
  | .vpackB16 d a b fa fb => Sys2Proof.Machine.execVpackB16 d a b fa fb s
  | .vunpackS8 d a b fa fb => Sys2Proof.Machine.execVunpackS8 d a b fa fb s
  | .vunpackZ8 d a b fa fb => Sys2Proof.Machine.execVunpackZ8 d a b fa fb s
  | .vunpackS16 d a b fa fb => Sys2Proof.Machine.execVunpackS16 d a b fa fb s
  | .vunpackZ16 d a b fa fb => Sys2Proof.Machine.execVunpackZ16 d a b fa fb s
  | .vpermb d a b fa fb => Sys2Proof.Machine.execVpermb d a b fa fb s
  | .vmad d a b fa fb => Sys2Proof.Machine.execVmad d a b fa fb s
  | .vfadd rm d a b fa fb => Sys2Proof.Machine.execVfadd rm d a b fa fb s
  | .vfsub rm d a b fa fb => Sys2Proof.Machine.execVfsub rm d a b fa fb s
  | .vfmul rm d a b fa fb => Sys2Proof.Machine.execVfmul rm d a b fa fb s
  | .vfma rm d a b fa fb => Sys2Proof.Machine.execVfma rm d a b fa fb s
  | .vfdot2 rm d a b fa fb => Sys2Proof.Machine.execVfdot2 rm d a b fa fb s
  | .vfmin d a b fa fb => Sys2Proof.Machine.execVfmin d a b fa fb s
  | .vfmax d a b fa fb => Sys2Proof.Machine.execVfmax d a b fa fb s
  | .vfscale rm d a b fa fb => Sys2Proof.Machine.execVfscale rm d a b fa fb s
  | .vfrcp rm d a fa => Sys2Proof.Machine.execVfrcp rm d a fa s
  | .vfrsq rm d a fa => Sys2Proof.Machine.execVfrsq rm d a fa s
  | .vfsqrt rm d a fa => Sys2Proof.Machine.execVfsqrt rm d a fa s
  | .vfexp2 rm d a fa => Sys2Proof.Machine.execVfexp2 rm d a fa s
  | .vflog2 rm d a fa => Sys2Proof.Machine.execVflog2 rm d a fa s
  | .vfsin rm d a fa => Sys2Proof.Machine.execVfsin rm d a fa s
  | .vfcos rm d a fa => Sys2Proof.Machine.execVfcos rm d a fa s
  | .vfrnd rm d a fa => Sys2Proof.Machine.execVfrnd rm d a fa s
  | .vfabs d a fa => Sys2Proof.Machine.execVfabs d a fa s
  | .vfneg d a fa => Sys2Proof.Machine.execVfneg d a fa s
  | .vfclass d a fa => Sys2Proof.Machine.execVfclass d a fa s
  | .vfcmp cc d a b fa fb => Sys2Proof.Machine.execVfcmp cc d a b fa fb s
  | .vfcvt d a fa part sat rm tag => Sys2Proof.Machine.execVfcvt d a fa part sat rm tag s
  | .vfcvti d a fa part rm tag => Sys2Proof.Machine.execVfcvti d a fa part rm tag s
  | .vicvtf d a fa part sat rm tag => Sys2Proof.Machine.execVicvtf d a fa part sat rm tag s
  | .vclmulLo d a b fa fb => Sys2Proof.Machine.execVclmulLo d a b fa fb s
  | .vclmulHi d a b fa fb => Sys2Proof.Machine.execVclmulHi d a b fa fb s
  | .vtag tag d a fa => Sys2Proof.Machine.execVtag tag d a fa s
  | .ldB32 d base idx pol fx => Sys2Proof.Machine.execLdB32 d base idx pol fx s
  | .ldB64 d base idx pol fx => Sys2Proof.Machine.execLdB64 d base idx pol fx s
  | .ldZ8 d base idx pol fx => Sys2Proof.Machine.execLdZ8 d base idx pol fx s
  | .ldS8 d base idx pol fx => Sys2Proof.Machine.execLdS8 d base idx pol fx s
  | .ldZ16 d base idx pol fx => Sys2Proof.Machine.execLdZ16 d base idx pol fx s
  | .ldS16 d base idx pol fx => Sys2Proof.Machine.execLdS16 d base idx pol fx s
  | .stB8 d base idx pol fx => Sys2Proof.Machine.execStB8 d base idx pol fx s
  | .stB16 d base idx pol fx => Sys2Proof.Machine.execStB16 d base idx pol fx s
  | .stB32 d base idx pol fx => Sys2Proof.Machine.execStB32 d base idx pol fx s
  | .stB64 d base idx pol fx => Sys2Proof.Machine.execStB64 d base idx pol fx s
  | .ldmcB32 d base idx pol fx => Sys2Proof.Machine.execLdmcB32 d base idx pol fx s
  | .ldsB32 d base idx pol fx => Sys2Proof.Machine.execLdsB32 d base idx pol fx s
  | .ldsB64 d base idx pol fx => Sys2Proof.Machine.execLdsB64 d base idx pol fx s
  | .stsB32 d base idx pol fx => Sys2Proof.Machine.execStsB32 d base idx pol fx s
  | .stsB64 d base idx pol fx => Sys2Proof.Machine.execStsB64 d base idx pol fx s
  | .pref base idx pol fx => Sys2Proof.Machine.execPref base idx pol fx s
  | .lflush base idx pol fx => Sys2Proof.Machine.execLflush base idx pol fx s
  | .atomAdd d base idx pol fx x fy u => Sys2Proof.Machine.execAtomAdd d base idx pol fx x fy u s
  | .atomSub d base idx pol fx x fy u => Sys2Proof.Machine.execAtomSub d base idx pol fx x fy u s
  | .atomAnd d base idx pol fx x fy u => Sys2Proof.Machine.execAtomAnd d base idx pol fx x fy u s
  | .atomOr d base idx pol fx x fy u => Sys2Proof.Machine.execAtomOr d base idx pol fx x fy u s
  | .atomXor d base idx pol fx x fy u => Sys2Proof.Machine.execAtomXor d base idx pol fx x fy u s
  | .atomMins d base idx pol fx x fy u => Sys2Proof.Machine.execAtomMins d base idx pol fx x fy u s
  | .atomMaxs d base idx pol fx x fy u => Sys2Proof.Machine.execAtomMaxs d base idx pol fx x fy u s
  | .atomMinz d base idx pol fx x fy u => Sys2Proof.Machine.execAtomMinz d base idx pol fx x fy u s
  | .atomMaxz d base idx pol fx x fy u => Sys2Proof.Machine.execAtomMaxz d base idx pol fx x fy u s
  | .atomExch d base idx pol fx x fy u => Sys2Proof.Machine.execAtomExch d base idx pol fx x fy u s
  | .atomCas d base idx pol fx x fy u => Sys2Proof.Machine.execAtomCas d base idx pol fx x fy u s
  | .fatomAdd d base idx pol fx x fy u => Sys2Proof.Machine.execFatomAdd d base idx pol fx x fy u s
  | .fatomMin d base idx pol fx x fy u => Sys2Proof.Machine.execFatomMin d base idx pol fx x fy u s
  | .fatomMax d base idx pol fx x fy u => Sys2Proof.Machine.execFatomMax d base idx pol fx x fy u s
  | .cadd base idx pol fx x fy u => Sys2Proof.Machine.execCadd base idx pol fx x fy u s
  | .crd d base idx pol fx u => Sys2Proof.Machine.execCrd d base idx pol fx u s
  | .crdRst d base idx pol fx u => Sys2Proof.Machine.execCrdRst d base idx pol fx u s
  | .qpush d base idx pol fx x fy u => Sys2Proof.Machine.execQpush d base idx pol fx x fy u s
  | .qpop d base idx pol fx x u => Sys2Proof.Machine.execQpop d base idx pol fx x u s
  | .waitc cc d base idx pol fx x fy u => Sys2Proof.Machine.execWaitc cc d base idx pol fx x fy u s
  | .lkl d base idx pol fx => Sys2Proof.Machine.execLkl d base idx pol fx s
  | .ulkl base idx pol fx => Sys2Proof.Machine.execUlkl base idx pol fx s
  | .winchk d base idx pol fx => Sys2Proof.Machine.execWinchk d base idx pol fx s
  | .voteAll d a b fa => Sys2Proof.Machine.execVoteAll d a b fa s
  | .voteAny d a b fa => Sys2Proof.Machine.execVoteAny d a b fa s
  | .voteBallot d a b fa => Sys2Proof.Machine.execVoteBallot d a b fa s
  | .shflIdx d a b fa sel fy => Sys2Proof.Machine.execShflIdx d a b fa sel fy s
  | .shflUp d a b fa delta => Sys2Proof.Machine.execShflUp d a b fa delta s
  | .shflDown d a b fa delta => Sys2Proof.Machine.execShflDown d a b fa delta s
  | .shflXor d a b fa delta => Sys2Proof.Machine.execShflXor d a b fa delta s
  | .gredAdd d a b fa => Sys2Proof.Machine.execGredAdd d a b fa s
  | .gredMins d a b fa => Sys2Proof.Machine.execGredMins d a b fa s
  | .gredMaxs d a b fa => Sys2Proof.Machine.execGredMaxs d a b fa s
  | .gredMinz d a b fa => Sys2Proof.Machine.execGredMinz d a b fa s
  | .gredMaxz d a b fa => Sys2Proof.Machine.execGredMaxz d a b fa s
  | .gredAnd d a b fa => Sys2Proof.Machine.execGredAnd d a b fa s
  | .gredOr d a b fa => Sys2Proof.Machine.execGredOr d a b fa s
  | .gredXor d a b fa => Sys2Proof.Machine.execGredXor d a b fa s
  | .gredFadd d a b fa => Sys2Proof.Machine.execGredFadd d a b fa s
  | .gredFmin d a b fa => Sys2Proof.Machine.execGredFmin d a b fa s
  | .gredFmax d a b fa => Sys2Proof.Machine.execGredFmax d a b fa s
  | .gscanAdd d a b fa => Sys2Proof.Machine.execGscanAdd d a b fa s
  | .gscanMins d a b fa => Sys2Proof.Machine.execGscanMins d a b fa s
  | .gscanMaxs d a b fa => Sys2Proof.Machine.execGscanMaxs d a b fa s
  | .gscanMinz d a b fa => Sys2Proof.Machine.execGscanMinz d a b fa s
  | .gscanMaxz d a b fa => Sys2Proof.Machine.execGscanMaxz d a b fa s
  | .gscanAnd d a b fa => Sys2Proof.Machine.execGscanAnd d a b fa s
  | .gscanOr d a b fa => Sys2Proof.Machine.execGscanOr d a b fa s
  | .gscanXor d a b fa => Sys2Proof.Machine.execGscanXor d a b fa s
  | .gscanFadd d a b fa => Sys2Proof.Machine.execGscanFadd d a b fa s
  | .gscanFmin d a b fa => Sys2Proof.Machine.execGscanFmin d a b fa s
  | .gscanFmax d a b fa => Sys2Proof.Machine.execGscanFmax d a b fa s
  | .xchg d a b fa => Sys2Proof.Machine.execXchg d a b fa s
  | .binit bar a fa => Sys2Proof.Machine.execBinit bar a fa s
  | .barr bar a fa => Sys2Proof.Machine.execBarr bar a fa s
  | .bwait bar a fa => Sys2Proof.Machine.execBwait bar a fa s
  | .barrw bar a fa => Sys2Proof.Machine.execBarrw bar a fa s
  | .bexp bar a fa => Sys2Proof.Machine.execBexp bar a fa s
  | .bqry bar d => Sys2Proof.Machine.execBqry bar d s
  | .barrPeer bar a fa => Sys2Proof.Machine.execBarrPeer bar a fa s
  | .acp d base idx pol fx dbase didx fy size cmpl bar csc => Sys2Proof.Machine.execAcp d base idx pol fx dbase didx fy size cmpl bar csc s
  | .mzero tag d memb => Sys2Proof.Machine.execMzero tag d memb s
  | .mld d a b fa fb memb desc fy => Sys2Proof.Machine.execMld d a b fa fb memb desc fy s
  | .mst d a b fa fb memb desc fy => Sys2Proof.Machine.execMst d a b fa fb memb desc fy s
  | .mscale a b fa fb memb desc fy => Sys2Proof.Machine.execMscale a b fa fb memb desc fy s
  | .mma d a b memb desc fy => Sys2Proof.Machine.execMma d a b memb desc fy s
  | .mloop d a b memb desc fy => Sys2Proof.Machine.execMloop d a b memb desc fy s
  | .mfence d => Sys2Proof.Machine.execMfence d s
  | .mwait a fa memb => Sys2Proof.Machine.execMwait a fa memb s
  | .segcrtCm d a b fa fb => Sys2Proof.Machine.execSegcrtCm d a b fa fb s
  | .segcrtChip d a b fa fb => Sys2Proof.Machine.execSegcrtChip d a b fa fb s
  | .segatt d a fa => Sys2Proof.Machine.execSegatt d a fa s
  | .segdet a fa => Sys2Proof.Machine.execSegdet a fa s
  | .segdel d a fa => Sys2Proof.Machine.execSegdel d a fa s
  | .segqry d a fa => Sys2Proof.Machine.execSegqry d a fa s
  | .emit16 a b fa fb => Sys2Proof.Machine.execEmit16 a b fa fb s
  | .emit32 a b fa fb => Sys2Proof.Machine.execEmit32 a b fa fb s
  | .emit64 a b fa fb => Sys2Proof.Machine.execEmit64 a b fa fb s
  | .csrr d n => Sys2Proof.Machine.execCsrr d n s
  | .csrw d n => Sys2Proof.Machine.execCsrw d n s
  | .icinv => Sys2Proof.Machine.execIcinv s
  | .icinvAll => Sys2Proof.Machine.execIcinvAll s
  | .clk d => Sys2Proof.Machine.execClk d s
  | .rdmeter d => Sys2Proof.Machine.execRdmeter d s
  | .rdbkt d => Sys2Proof.Machine.execRdbkt d s
  | .opreq a fa => Sys2Proof.Machine.execOpreq a fa s
  | .yieldW => Sys2Proof.Machine.execYieldW s
  | .trap n => Sys2Proof.Machine.execTrap n s
  | .trapret => Sys2Proof.Machine.execTrapret s
  | .pathReady g => Sys2Proof.Machine.execPathReady g s
  | .teamEnd t => Sys2Proof.Machine.execTeamEnd t s
  | .dispatch p => Sys2Proof.Machine.execDispatch p s
  | .longLatencyCompletion op => Sys2Proof.Machine.execLongLatencyCompletion op s
  | .storeAcknowledgement op => Sys2Proof.Machine.execStoreAcknowledgement op s
  | .memoryWordClearance op => Sys2Proof.Machine.execMemoryWordClearance op s
  | .deferredFaultReport g f => Sys2Proof.Machine.execDeferredFaultReport g f s
  | .faultReport t => Sys2Proof.Machine.execFaultReport t s
  | .monitorResume t => Sys2Proof.Machine.execMonitorResume t s
  | .monitorResumeNext t => Sys2Proof.Machine.execMonitorResumeNext t s
  | .monitorSave t area => Sys2Proof.Machine.execMonitorSave t area s
  | .endTeam t => Sys2Proof.Machine.execEndTeam t s
  | .endGrid l => Sys2Proof.Machine.execEndGrid l s
  | .endContext c => Sys2Proof.Machine.execEndContext c s
  | .preemptionRequest t cause bound area => Sys2Proof.Machine.execPreemptionRequest t cause bound area s
  | .teamFlush t => Sys2Proof.Machine.execTeamFlush t s
  | .teamSave t area => Sys2Proof.Machine.execTeamSave t area s
  | .teamRestore t => Sys2Proof.Machine.execTeamRestore t s
  | .attachMissReplay t area => Sys2Proof.Machine.execAttachMissReplay t area s
  | .pageFaultReplay t => Sys2Proof.Machine.execPageFaultReplay t s
  | .pfholdExpiry t area => Sys2Proof.Machine.execPfholdExpiry t area s
  | .xchgHalvesMeet g h => Sys2Proof.Machine.execXchgHalvesMeet g h s
  | .exchangeTimeout g => Sys2Proof.Machine.execExchangeTimeout g s
  | .barrierPhaseComplete t bar => Sys2Proof.Machine.execBarrierPhaseComplete t bar s
  | .peerArrival t bar n g pos => Sys2Proof.Machine.execPeerArrival t bar n g pos s
  | .copyLineTransfer k => Sys2Proof.Machine.execCopyLineTransfer k s
  | .copyCompletion k => Sys2Proof.Machine.execCopyCompletion k s
  | .tilePortService cl => Sys2Proof.Machine.execTilePortService cl s
  | .matrixStep cl => Sys2Proof.Machine.execMatrixStep cl s
  | .batchComplete t => Sys2Proof.Machine.execBatchComplete t s
  | .homeAtomicService op lane => Sys2Proof.Machine.execHomeAtomicService op lane s
  | .poolWordAtHome op lane => Sys2Proof.Machine.execPoolWordAtHome op lane s
  | .reflectorEntry op lane => Sys2Proof.Machine.execReflectorEntry op lane s
  | .reflectorForward op lane => Sys2Proof.Machine.execReflectorForward op lane s
  | .conditionMonitorTest op lane => Sys2Proof.Machine.execConditionMonitorTest op lane s
  | .waitcPoll op lane => Sys2Proof.Machine.execWaitcPoll op lane s
  | .sliceAccessService op lane => Sys2Proof.Machine.execSliceAccessService op lane s
  | .mergeRequestPass op lane => Sys2Proof.Machine.execMergeRequestPass op lane s
  | .mergedResponseSplit id => Sys2Proof.Machine.execMergedResponseSplit id s
  | .peerAccess peer net key addr who kind word => Sys2Proof.Machine.execPeerAccess peer net key addr who kind word s
  | .peerKeyAccept c handle => Sys2Proof.Machine.execPeerKeyAccept c handle s
  | .segcrtZeroingDone seg => Sys2Proof.Machine.execSegcrtZeroingDone seg s
  | .segmentEvictionStart seg cause => Sys2Proof.Machine.execSegmentEvictionStart seg cause s
  | .segmentMirrored seg => Sys2Proof.Machine.execSegmentMirrored seg s
  | .segmentRestoreStart seg cl => Sys2Proof.Machine.execSegmentRestoreStart seg cl s
  | .segmentResident seg => Sys2Proof.Machine.execSegmentResident seg s
  | .budgetPeriodBoundary p => Sys2Proof.Machine.execBudgetPeriodBoundary p s
  | .chargeArrival c => Sys2Proof.Machine.execChargeArrival c s
  | .stopTakesEffect x => Sys2Proof.Machine.execStopTakesEffect x s
  | .resumeTakesEffect x => Sys2Proof.Machine.execResumeTakesEffect x s
  | .energyRecordWrite c fld value => Sys2Proof.Machine.execEnergyRecordWrite c fld value s
  | .correctionInterval dom => Sys2Proof.Machine.execCorrectionInterval dom s
  | .switchPoint => Sys2Proof.Machine.execSwitchPoint s
  | .decisionTick => Sys2Proof.Machine.execDecisionTick s
  | .exportBoundary => Sys2Proof.Machine.execExportBoundary s
  | .doorbellWrite p q value => Sys2Proof.Machine.execDoorbellWrite p q value s
  | .fetchRetryTimer p q => Sys2Proof.Machine.execFetchRetryTimer p q s
  | .gridLaunch p q => Sys2Proof.Machine.execGridLaunch p q s
  | .graphLaunch p q => Sys2Proof.Machine.execGraphLaunch p q s
  | .waitPacket p q => Sys2Proof.Machine.execWaitPacket p q s
  | .signalPacket p q => Sys2Proof.Machine.execSignalPacket p q s
  | .waitCompletion p q => Sys2Proof.Machine.execWaitCompletion p q s
  | .waitTimeout p q => Sys2Proof.Machine.execWaitTimeout p q s
  | .launchCompletion l => Sys2Proof.Machine.execLaunchCompletion l s
  | .recordArrival id => Sys2Proof.Machine.execRecordArrival id s
  | .spillRefill l n => Sys2Proof.Machine.execSpillRefill l n s
  | .coalesceTimerExpiry l n => Sys2Proof.Machine.execCoalesceTimerExpiry l n s
  | .queueMapWrite p slot value => Sys2Proof.Machine.execQueueMapWrite p slot value s
  | .teardownStart c => Sys2Proof.Machine.execTeardownStart c s
  | .teardownComplete c => Sys2Proof.Machine.execTeardownComplete c s
  | .partitionControlWrite p value => Sys2Proof.Machine.execPartitionControlWrite p value s
  | .partitionReset p => Sys2Proof.Machine.execPartitionReset p s
  | .tlbInvalidatePasid p pasid => Sys2Proof.Machine.execTlbInvalidatePasid p pasid s
  | .tlbInvalidateRange p pasid pages => Sys2Proof.Machine.execTlbInvalidateRange p pasid pages s
  | .tlbInvalidateVf p vf => Sys2Proof.Machine.execTlbInvalidateVf p vf s
  | .tlbInvalidationComplete p => Sys2Proof.Machine.execTlbInvalidationComplete p s
  | .atsInvalidation p pasid page pages => Sys2Proof.Machine.execAtsInvalidation p pasid page pages s
  | .pageRequestResponse t granted => Sys2Proof.Machine.execPageRequestResponse t granted s
  | .keyLoad slot => Sys2Proof.Machine.execKeyLoad slot s
  | .keyErase slot => Sys2Proof.Machine.execKeyErase slot s
  | .apertureWrite target vf value => Sys2Proof.Machine.execApertureWrite target vf value s
  | .clusterGate cl ret => Sys2Proof.Machine.execClusterGate cl ret s
  | .clusterGated cl => Sys2Proof.Machine.execClusterGated cl s
  | .clusterWake cl => Sys2Proof.Machine.execClusterWake cl s
  | .clusterWakeComplete cl => Sys2Proof.Machine.execClusterWakeComplete cl s
  | .resetRelease => Sys2Proof.Machine.execResetRelease s
  | .bootWatchdogExpiry => Sys2Proof.Machine.execBootWatchdogExpiry s
  | .cfglockWrite => Sys2Proof.Machine.execCfglockWrite s
  | .bootokWrite => Sys2Proof.Machine.execBootokWrite s
  | .updateVerify => Sys2Proof.Machine.execUpdateVerify s
  | .updateActivateRequest => Sys2Proof.Machine.execUpdateActivateRequest s
  | .pmcWrite p n value => Sys2Proof.Machine.execPmcWrite p n value s
  | .pmselWrite p n value => Sys2Proof.Machine.execPmselWrite p n value s
  | .counterEvent p x amount => Sys2Proof.Machine.execCounterEvent p x amount s
  | .replayArm p value => Sys2Proof.Machine.execReplayArm p value s
  | .replayPassEnd p => Sys2Proof.Machine.execReplayPassEnd p s
  | .pageCapture p page => Sys2Proof.Machine.execPageCapture p page s
  | .pageCaptureComplete p page => Sys2Proof.Machine.execPageCaptureComplete p page s
  | .demandSend => Sys2Proof.Machine.execDemandSend s
  | .allocatorGrant => Sys2Proof.Machine.execAllocatorGrant s
  | .allocatorWaitExpiry => Sys2Proof.Machine.execAllocatorWaitExpiry s
  | .grantReceived watts seq => Sys2Proof.Machine.execGrantReceived watts seq s
  | .grantAbsence => Sys2Proof.Machine.execGrantAbsence s
  | .attestationRequest vf nonce => Sys2Proof.Machine.execAttestationRequest vf nonce s
  | .planeenWrite value => Sys2Proof.Machine.execPlaneenWrite value s
  | .fabricPortFailure port => Sys2Proof.Machine.execFabricPortFailure port s
  | .correctedError unit kind addr => Sys2Proof.Machine.execCorrectedError unit kind addr s
  | .uncorrectableUnconsumed unit line => Sys2Proof.Machine.execUncorrectableUnconsumed unit line s
  | .linkCrcRetry port => Sys2Proof.Machine.execLinkCrcRetry port s
  | .configRegisterWrite reg idx value => Sys2Proof.Machine.execConfigRegisterWrite reg idx value s
  | .illegalInstruction => Sys2Proof.Machine.execIllegalInstruction s
  | .hostAccess write host addr data => Sys2Proof.Machine.execHostAccess write host addr data s
  | .peerInvalidation line => Sys2Proof.Machine.execPeerInvalidation line s
  | .exchangeHalfArrival g => Sys2Proof.Machine.execExchangeHalfArrival g s
  | .frrptrWrite ring value => Sys2Proof.Machine.execFrrptrWrite ring value s
  | .keyCommandComplete => Sys2Proof.Machine.execKeyCommandComplete s
  | .updateVerifyComplete => Sys2Proof.Machine.execUpdateVerifyComplete s
  | .partitionResetComplete p => Sys2Proof.Machine.execPartitionResetComplete p s

end Sys2Proof.Machine
end

