-- ==== Sys2Proof/WellFormed.lean ====
section
/-! DEFINITION. When an instruction's fields fit the places that the encoding gives them (R174 to R188), and when
a step's arguments name a partition, a slot or a unit that the device has (R387, R401, R405, R419). -/

namespace Sys2Proof

/-- A field of at most `k` values. -/
def fits (k n : Nat) : Bool := Nat.blt n k

/-- Every field of a word lies within its width; a step's partition, slot, cluster, domain, port and virtual
function exist. -/
def Instr.wellFormed : Instr → Bool
  | .saddS d a b _ _ => fits 64 d && fits 64 a && fits 64 b
  | .saddZ d a b _ _ => fits 64 d && fits 64 a && fits 64 b
  | .ssubS d a b _ _ => fits 64 d && fits 64 a && fits 64 b
  | .ssubZ d a b _ _ => fits 64 d && fits 64 a && fits 64 b
  | .smulS d a b _ _ => fits 64 d && fits 64 a && fits 64 b
  | .smulZ d a b _ _ => fits 64 d && fits 64 a && fits 64 b
  | .smulhS d a b _ _ => fits 64 d && fits 64 a && fits 64 b
  | .smulhZ d a b _ _ => fits 64 d && fits 64 a && fits 64 b
  | .sdivS d a b _ _ => fits 64 d && fits 64 a && fits 64 b
  | .sdivZ d a b _ _ => fits 64 d && fits 64 a && fits 64 b
  | .sremS d a b _ _ => fits 64 d && fits 64 a && fits 64 b
  | .sremZ d a b _ _ => fits 64 d && fits 64 a && fits 64 b
  | .sand d a b _ _ => fits 64 d && fits 64 a && fits 64 b
  | .sor d a b _ _ => fits 64 d && fits 64 a && fits 64 b
  | .sxor d a b _ _ => fits 64 d && fits 64 a && fits 64 b
  | .sandn d a b _ _ => fits 64 d && fits 64 a && fits 64 b
  | .sshl d a b _ _ => fits 64 d && fits 64 a && fits 64 b
  | .sshr d a b _ _ => fits 64 d && fits 64 a && fits 64 b
  | .ssra d a b _ _ => fits 64 d && fits 64 a && fits 64 b
  | .srot d a b _ _ => fits 64 d && fits 64 a && fits 64 b
  | .sminS d a b _ _ => fits 64 d && fits 64 a && fits 64 b
  | .sminZ d a b _ _ => fits 64 d && fits 64 a && fits 64 b
  | .smaxS d a b _ _ => fits 64 d && fits 64 a && fits 64 b
  | .smaxZ d a b _ _ => fits 64 d && fits 64 a && fits 64 b
  | .sadd64 d a b _ _ => fits 64 d && fits 64 a && fits 64 b
  | .ssub64 d a b _ _ => fits 64 d && fits 64 a && fits 64 b
  | .spopc d a _ => fits 64 d && fits 64 a
  | .sclz d a _ => fits 64 d && fits 64 a
  | .sctz d a _ => fits 64 d && fits 64 a
  | .sbrev d a _ => fits 64 d && fits 64 a
  | .smov d a _ => fits 64 d && fits 64 a
  | .ssel d a b _ _ => fits 64 d && fits 64 a && fits 64 b
  | .scmp cc d a b _ _ => fits 10 cc && fits 64 d && fits 64 a && fits 64 b
  | .saddSImm d a _ imm => fits 64 d && fits 64 a && fits 4096 imm
  | .sshlImm d a _ n => fits 64 d && fits 64 a && fits 32 n
  | .sshrImm d a _ n => fits 64 d && fits 64 a && fits 32 n
  | .ssraImm d a _ n => fits 64 d && fits 64 a && fits 32 n
  | .srotImm d a _ n => fits 64 d && fits 64 a && fits 32 n
  | .sbfeS d a _ w1 pos => fits 64 d && fits 64 a && fits 32 w1 && fits 32 pos
  | .sbfeZ d a _ w1 pos => fits 64 d && fits 64 a && fits 32 w1 && fits 32 pos
  | .sbfi d a _ w1 pos => fits 64 d && fits 64 a && fits 32 w1 && fits 32 pos
  | .sli d imm => fits 64 d && fits 524288 imm
  | .slit d value => fits 64 d && fits 4294967296 value
  | .jmp cond off => fits 5 cond && fits 2097152 off
  | .brz d off => fits 64 d && fits 524288 off
  | .brnz d off => fits 64 d && fits 524288 off
  | .call d off => fits 64 d && fits 524288 off
  | .jmpr a _ => fits 64 a
  | .callr d a _ => fits 64 d && fits 64 a
  | .ret a _ => fits 64 a
  | .emrd d => fits 64 d
  | .emwr a _ => fits 64 a
  | .nop => true
  | .exit => true
  | .join => true
  | .itemput a _ => fits 64 a
  | .div d other joff => fits 64 d && fits 524288 other && fits 4294967296 joff
  | .itemhead d a _ imm => fits 64 d && fits 64 a && fits 4096 imm
  | .loopb d n => fits 64 d && fits 64 n
  | .vadd d a b _ _ => fits 64 d && fits 64 a && fits 64 b
  | .vsub d a b _ _ => fits 64 d && fits 64 a && fits 64 b
  | .vaddc d a b _ _ => fits 64 d && fits 64 a && fits 64 b
  | .vsubb d a b _ _ => fits 64 d && fits 64 a && fits 64 b
  | .vmul d a b _ _ => fits 64 d && fits 64 a && fits 64 b
  | .vmulhS d a b _ _ => fits 64 d && fits 64 a && fits 64 b
  | .vmulhZ d a b _ _ => fits 64 d && fits 64 a && fits 64 b
  | .vand d a b _ _ => fits 64 d && fits 64 a && fits 64 b
  | .vor d a b _ _ => fits 64 d && fits 64 a && fits 64 b
  | .vxor d a b _ _ => fits 64 d && fits 64 a && fits 64 b
  | .vandn d a b _ _ => fits 64 d && fits 64 a && fits 64 b
  | .vshl d a b _ _ => fits 64 d && fits 64 a && fits 64 b
  | .vshr d a b _ _ => fits 64 d && fits 64 a && fits 64 b
  | .vsra d a b _ _ => fits 64 d && fits 64 a && fits 64 b
  | .vminS d a b _ _ => fits 64 d && fits 64 a && fits 64 b
  | .vminZ d a b _ _ => fits 64 d && fits 64 a && fits 64 b
  | .vmaxS d a b _ _ => fits 64 d && fits 64 a && fits 64 b
  | .vmaxZ d a b _ _ => fits 64 d && fits 64 a && fits 64 b
  | .vabs d a _ => fits 64 d && fits 64 a
  | .vpopc d a _ => fits 64 d && fits 64 a
  | .vclz d a _ => fits 64 d && fits 64 a
  | .vbrev d a _ => fits 64 d && fits 64 a
  | .vmov d a _ => fits 64 d && fits 64 a
  | .vsel d a b _ _ => fits 64 d && fits 64 a && fits 64 b
  | .vbcast d a _ => fits 64 d && fits 64 a
  | .vlane d a b _ _ => fits 64 d && fits 64 a && fits 64 b
  | .vcmp cc d a b _ _ => fits 10 cc && fits 64 d && fits 64 a && fits 64 b
  | .vaddImm d a _ imm => fits 64 d && fits 64 a && fits 4096 imm
  | .vshlImm d a _ n => fits 64 d && fits 64 a && fits 32 n
  | .vshrImm d a _ n => fits 64 d && fits 64 a && fits 32 n
  | .vsraImm d a _ n => fits 64 d && fits 64 a && fits 32 n
  | .vbfeS d a _ w1 pos => fits 64 d && fits 64 a && fits 32 w1 && fits 32 pos
  | .vbfeZ d a _ w1 pos => fits 64 d && fits 64 a && fits 32 w1 && fits 32 pos
  | .vbfi d a _ w1 pos => fits 64 d && fits 64 a && fits 32 w1 && fits 32 pos
  | .vsatS8 d a _ => fits 64 d && fits 64 a
  | .vsatZ8 d a _ => fits 64 d && fits 64 a
  | .vsatS16 d a _ => fits 64 d && fits 64 a
  | .vsatZ16 d a _ => fits 64 d && fits 64 a
  | .vpackB8 d a b _ _ => fits 64 d && fits 64 a && fits 64 b
  | .vpackB16 d a b _ _ => fits 64 d && fits 64 a && fits 64 b
  | .vunpackS8 d a b _ _ => fits 64 d && fits 64 a && fits 64 b
  | .vunpackZ8 d a b _ _ => fits 64 d && fits 64 a && fits 64 b
  | .vunpackS16 d a b _ _ => fits 64 d && fits 64 a && fits 64 b
  | .vunpackZ16 d a b _ _ => fits 64 d && fits 64 a && fits 64 b
  | .vpermb d a b _ _ => fits 64 d && fits 64 a && fits 64 b
  | .vmad d a b _ _ => fits 64 d && fits 64 a && fits 64 b
  | .vfadd rm d a b _ _ => fits 4 rm && fits 64 d && fits 64 a && fits 64 b
  | .vfsub rm d a b _ _ => fits 4 rm && fits 64 d && fits 64 a && fits 64 b
  | .vfmul rm d a b _ _ => fits 4 rm && fits 64 d && fits 64 a && fits 64 b
  | .vfma rm d a b _ _ => fits 4 rm && fits 64 d && fits 64 a && fits 64 b
  | .vfdot2 rm d a b _ _ => fits 4 rm && fits 64 d && fits 64 a && fits 64 b
  | .vfmin d a b _ _ => fits 64 d && fits 64 a && fits 64 b
  | .vfmax d a b _ _ => fits 64 d && fits 64 a && fits 64 b
  | .vfscale rm d a b _ _ => fits 4 rm && fits 64 d && fits 64 a && fits 64 b
  | .vfrcp rm d a _ => fits 4 rm && fits 64 d && fits 64 a
  | .vfrsq rm d a _ => fits 4 rm && fits 64 d && fits 64 a
  | .vfsqrt rm d a _ => fits 4 rm && fits 64 d && fits 64 a
  | .vfexp2 rm d a _ => fits 4 rm && fits 64 d && fits 64 a
  | .vflog2 rm d a _ => fits 4 rm && fits 64 d && fits 64 a
  | .vfsin rm d a _ => fits 4 rm && fits 64 d && fits 64 a
  | .vfcos rm d a _ => fits 4 rm && fits 64 d && fits 64 a
  | .vfrnd rm d a _ => fits 4 rm && fits 64 d && fits 64 a
  | .vfabs d a _ => fits 64 d && fits 64 a
  | .vfneg d a _ => fits 64 d && fits 64 a
  | .vfclass d a _ => fits 64 d && fits 64 a
  | .vfcmp cc d a b _ _ => fits 8 cc && fits 64 d && fits 64 a && fits 64 b
  | .vfcvt d a _ part _ rm tag => fits 64 d && fits 64 a && fits 4 part && fits 4 rm && fits 16 tag
  | .vfcvti d a _ part rm tag => fits 64 d && fits 64 a && fits 4 part && fits 4 rm && fits 16 tag
  | .vicvtf d a _ part _ rm tag => fits 64 d && fits 64 a && fits 4 part && fits 4 rm && fits 16 tag
  | .vclmulLo d a b _ _ => fits 64 d && fits 64 a && fits 64 b
  | .vclmulHi d a b _ _ => fits 64 d && fits 64 a && fits 64 b
  | .vtag tag d a _ => fits 16 tag && fits 64 d && fits 64 a
  | .ldB32 d base idx pol _ => fits 64 d && fits 64 base && fits 64 idx && fits 64 pol
  | .ldB64 d base idx pol _ => fits 64 d && fits 64 base && fits 64 idx && fits 64 pol
  | .ldZ8 d base idx pol _ => fits 64 d && fits 64 base && fits 64 idx && fits 64 pol
  | .ldS8 d base idx pol _ => fits 64 d && fits 64 base && fits 64 idx && fits 64 pol
  | .ldZ16 d base idx pol _ => fits 64 d && fits 64 base && fits 64 idx && fits 64 pol
  | .ldS16 d base idx pol _ => fits 64 d && fits 64 base && fits 64 idx && fits 64 pol
  | .stB8 d base idx pol _ => fits 64 d && fits 64 base && fits 64 idx && fits 64 pol
  | .stB16 d base idx pol _ => fits 64 d && fits 64 base && fits 64 idx && fits 64 pol
  | .stB32 d base idx pol _ => fits 64 d && fits 64 base && fits 64 idx && fits 64 pol
  | .stB64 d base idx pol _ => fits 64 d && fits 64 base && fits 64 idx && fits 64 pol
  | .ldmcB32 d base idx pol _ => fits 64 d && fits 64 base && fits 64 idx && fits 64 pol
  | .ldsB32 d base idx pol _ => fits 64 d && fits 64 base && fits 64 idx && fits 64 pol
  | .ldsB64 d base idx pol _ => fits 64 d && fits 64 base && fits 64 idx && fits 64 pol
  | .stsB32 d base idx pol _ => fits 64 d && fits 64 base && fits 64 idx && fits 64 pol
  | .stsB64 d base idx pol _ => fits 64 d && fits 64 base && fits 64 idx && fits 64 pol
  | .pref base idx pol _ => fits 64 base && fits 64 idx && fits 64 pol
  | .lflush base idx pol _ => fits 64 base && fits 64 idx && fits 64 pol
  | .atomAdd d base idx pol _ x _ _ => fits 64 d && fits 64 base && fits 64 idx && fits 64 pol && fits 64 x
  | .atomSub d base idx pol _ x _ _ => fits 64 d && fits 64 base && fits 64 idx && fits 64 pol && fits 64 x
  | .atomAnd d base idx pol _ x _ _ => fits 64 d && fits 64 base && fits 64 idx && fits 64 pol && fits 64 x
  | .atomOr d base idx pol _ x _ _ => fits 64 d && fits 64 base && fits 64 idx && fits 64 pol && fits 64 x
  | .atomXor d base idx pol _ x _ _ => fits 64 d && fits 64 base && fits 64 idx && fits 64 pol && fits 64 x
  | .atomMins d base idx pol _ x _ _ => fits 64 d && fits 64 base && fits 64 idx && fits 64 pol && fits 64 x
  | .atomMaxs d base idx pol _ x _ _ => fits 64 d && fits 64 base && fits 64 idx && fits 64 pol && fits 64 x
  | .atomMinz d base idx pol _ x _ _ => fits 64 d && fits 64 base && fits 64 idx && fits 64 pol && fits 64 x
  | .atomMaxz d base idx pol _ x _ _ => fits 64 d && fits 64 base && fits 64 idx && fits 64 pol && fits 64 x
  | .atomExch d base idx pol _ x _ _ => fits 64 d && fits 64 base && fits 64 idx && fits 64 pol && fits 64 x
  | .atomCas d base idx pol _ x _ _ => fits 64 d && fits 64 base && fits 64 idx && fits 64 pol && fits 64 x
  | .fatomAdd d base idx pol _ x _ _ => fits 64 d && fits 64 base && fits 64 idx && fits 64 pol && fits 64 x
  | .fatomMin d base idx pol _ x _ _ => fits 64 d && fits 64 base && fits 64 idx && fits 64 pol && fits 64 x
  | .fatomMax d base idx pol _ x _ _ => fits 64 d && fits 64 base && fits 64 idx && fits 64 pol && fits 64 x
  | .cadd base idx pol _ x _ _ => fits 64 base && fits 64 idx && fits 64 pol && fits 64 x
  | .crd d base idx pol _ _ => fits 64 d && fits 64 base && fits 64 idx && fits 64 pol
  | .crdRst d base idx pol _ _ => fits 64 d && fits 64 base && fits 64 idx && fits 64 pol
  | .qpush d base idx pol _ x _ _ => fits 64 d && fits 64 base && fits 64 idx && fits 64 pol && fits 64 x
  | .qpop d base idx pol _ x _ => fits 64 d && fits 64 base && fits 64 idx && fits 64 pol && fits 64 x
  | .waitc cc d base idx pol _ x _ _ => fits 10 cc && fits 64 d && fits 64 base && fits 64 idx && fits 64 pol && fits 64 x
  | .lkl d base idx pol _ => fits 64 d && fits 64 base && fits 64 idx && fits 64 pol
  | .ulkl base idx pol _ => fits 64 base && fits 64 idx && fits 64 pol
  | .winchk d base idx pol _ => fits 64 d && fits 64 base && fits 64 idx && fits 64 pol
  | .voteAll d a b _ => fits 64 d && fits 64 a && fits 64 b
  | .voteAny d a b _ => fits 64 d && fits 64 a && fits 64 b
  | .voteBallot d a b _ => fits 64 d && fits 64 a && fits 64 b
  | .shflIdx d a b _ sel _ => fits 64 d && fits 64 a && fits 64 b && fits 64 sel
  | .shflUp d a b _ delta => fits 64 d && fits 64 a && fits 64 b && fits 32 delta
  | .shflDown d a b _ delta => fits 64 d && fits 64 a && fits 64 b && fits 32 delta
  | .shflXor d a b _ delta => fits 64 d && fits 64 a && fits 64 b && fits 32 delta
  | .gredAdd d a b _ => fits 64 d && fits 64 a && fits 64 b
  | .gredMins d a b _ => fits 64 d && fits 64 a && fits 64 b
  | .gredMaxs d a b _ => fits 64 d && fits 64 a && fits 64 b
  | .gredMinz d a b _ => fits 64 d && fits 64 a && fits 64 b
  | .gredMaxz d a b _ => fits 64 d && fits 64 a && fits 64 b
  | .gredAnd d a b _ => fits 64 d && fits 64 a && fits 64 b
  | .gredOr d a b _ => fits 64 d && fits 64 a && fits 64 b
  | .gredXor d a b _ => fits 64 d && fits 64 a && fits 64 b
  | .gredFadd d a b _ => fits 64 d && fits 64 a && fits 64 b
  | .gredFmin d a b _ => fits 64 d && fits 64 a && fits 64 b
  | .gredFmax d a b _ => fits 64 d && fits 64 a && fits 64 b
  | .gscanAdd d a b _ => fits 64 d && fits 64 a && fits 64 b
  | .gscanMins d a b _ => fits 64 d && fits 64 a && fits 64 b
  | .gscanMaxs d a b _ => fits 64 d && fits 64 a && fits 64 b
  | .gscanMinz d a b _ => fits 64 d && fits 64 a && fits 64 b
  | .gscanMaxz d a b _ => fits 64 d && fits 64 a && fits 64 b
  | .gscanAnd d a b _ => fits 64 d && fits 64 a && fits 64 b
  | .gscanOr d a b _ => fits 64 d && fits 64 a && fits 64 b
  | .gscanXor d a b _ => fits 64 d && fits 64 a && fits 64 b
  | .gscanFadd d a b _ => fits 64 d && fits 64 a && fits 64 b
  | .gscanFmin d a b _ => fits 64 d && fits 64 a && fits 64 b
  | .gscanFmax d a b _ => fits 64 d && fits 64 a && fits 64 b
  | .xchg d a b _ => fits 64 d && fits 64 a && fits 64 b
  | .binit bar a _ => fits 32 bar && fits 64 a
  | .barr bar a _ => fits 32 bar && fits 64 a
  | .bwait bar a _ => fits 32 bar && fits 64 a
  | .barrw bar a _ => fits 32 bar && fits 64 a
  | .bexp bar a _ => fits 32 bar && fits 64 a
  | .bqry bar d => fits 32 bar && fits 64 d
  | .barrPeer bar a _ => fits 32 bar && fits 64 a
  | .acp d base idx pol _ dbase didx _ size cmpl bar csc => fits 64 d && fits 64 base && fits 64 idx && fits 64 pol && fits 64 dbase && fits 64 didx && fits 7 size && fits 3 cmpl && fits 32 bar && fits 4 csc && (if cmpl = 1 then Nat.beq d 0 else Nat.beq bar 0)
  | .mzero tag d memb => fits 16 tag && fits 64 d && fits 64 memb
  | .mld d a b _ _ memb desc _ => fits 64 d && fits 64 a && fits 64 b && fits 64 memb && fits 64 desc
  | .mst d a b _ _ memb desc _ => fits 64 d && fits 64 a && fits 64 b && fits 64 memb && fits 64 desc
  | .mscale a b _ _ memb desc _ => fits 64 a && fits 64 b && fits 64 memb && fits 64 desc
  | .mma d a b memb desc _ => fits 64 d && fits 64 a && fits 64 b && fits 64 memb && fits 64 desc
  | .mloop d a b memb desc _ => fits 64 d && fits 64 a && fits 64 b && fits 64 memb && fits 64 desc
  | .mfence d => fits 64 d
  | .mwait a _ memb => fits 64 a && fits 64 memb
  | .segcrtCm d a b _ _ => fits 64 d && fits 64 a && fits 64 b
  | .segcrtChip d a b _ _ => fits 64 d && fits 64 a && fits 64 b
  | .segatt d a _ => fits 64 d && fits 64 a
  | .segdet a _ => fits 64 a
  | .segdel d a _ => fits 64 d && fits 64 a
  | .segqry d a _ => fits 64 d && fits 64 a
  | .emit16 a b _ _ => fits 64 a && fits 64 b
  | .emit32 a b _ _ => fits 64 a && fits 64 b
  | .emit64 a b _ _ => fits 64 a && fits 64 b
  | .csrr d n => fits 64 d && fits 4096 n
  | .csrw d n => fits 64 d && fits 4096 n
  | .icinv => true
  | .icinvAll => true
  | .clk d => fits 64 d
  | .rdmeter d => fits 64 d
  | .rdbkt d => fits 64 d
  | .opreq a _ => fits 64 a
  | .yieldW => true
  | .trap n => fits 4096 n
  | .trapret => true
  | .pathReady _ => true
  | .teamEnd _ => true
  | .dispatch p => fits 16 p
  | .longLatencyCompletion _ => true
  | .storeAcknowledgement _ => true
  | .memoryWordClearance _ => true
  | .deferredFaultReport _ _ => true
  | .faultReport _ => true
  | .monitorResume _ => true
  | .monitorResumeNext _ => true
  | .monitorSave _ _ => true
  | .endTeam _ => true
  | .endGrid _ => true
  | .endContext _ => true
  | .preemptionRequest _ _ _ _ => true
  | .teamFlush _ => true
  | .teamSave _ _ => true
  | .teamRestore _ => true
  | .attachMissReplay _ _ => true
  | .pageFaultReplay _ => true
  | .pfholdExpiry _ _ => true
  | .xchgHalvesMeet _ _ => true
  | .exchangeTimeout _ => true
  | .barrierPhaseComplete _ bar => fits 32 bar
  | .peerArrival _ bar _ _ _ => fits 32 bar
  | .copyLineTransfer _ => true
  | .copyCompletion _ => true
  | .tilePortService cl => fits 128 cl
  | .matrixStep cl => fits 128 cl
  | .batchComplete _ => true
  | .homeAtomicService _ lane => fits 32 lane
  | .poolWordAtHome _ lane => fits 32 lane
  | .reflectorEntry _ lane => fits 32 lane
  | .reflectorForward _ lane => fits 32 lane
  | .conditionMonitorTest _ lane => fits 32 lane
  | .waitcPoll _ lane => fits 32 lane
  | .sliceAccessService _ lane => fits 32 lane
  | .mergeRequestPass _ lane => fits 32 lane
  | .mergedResponseSplit _ => true
  | .peerAccess _ _ _ _ _ _ _ => true
  | .peerKeyAccept _ _ => true
  | .segcrtZeroingDone _ => true
  | .segmentEvictionStart _ _ => true
  | .segmentMirrored _ => true
  | .segmentRestoreStart _ cl => fits 128 cl
  | .segmentResident _ => true
  | .budgetPeriodBoundary p => fits 16 p
  | .chargeArrival _ => true
  | .stopTakesEffect x => fits 16 x.facet
  | .resumeTakesEffect x => fits 16 x.facet
  | .energyRecordWrite _ _ _ => true
  | .correctionInterval dom => fits 19 dom
  | .switchPoint => true
  | .decisionTick => true
  | .exportBoundary => true
  | .doorbellWrite p q _ => fits 16 p && fits 4096 q
  | .fetchRetryTimer p q => fits 16 p && fits 4096 q
  | .gridLaunch p q => fits 16 p && fits 4096 q
  | .graphLaunch p q => fits 16 p && fits 4096 q
  | .waitPacket p q => fits 16 p && fits 4096 q
  | .signalPacket p q => fits 16 p && fits 4096 q
  | .waitCompletion p q => fits 16 p && fits 4096 q
  | .waitTimeout p q => fits 16 p && fits 4096 q
  | .launchCompletion _ => true
  | .recordArrival _ => true
  | .spillRefill _ _ => true
  | .coalesceTimerExpiry _ _ => true
  | .queueMapWrite p slot _ => fits 16 p && fits 32 slot
  | .teardownStart _ => true
  | .teardownComplete _ => true
  | .partitionControlWrite p _ => fits 16 p
  | .partitionReset p => fits 16 p
  | .tlbInvalidatePasid p _ => fits 16 p
  | .tlbInvalidateRange p _ _ => fits 16 p
  | .tlbInvalidateVf p vf => fits 16 p && fits 64 vf
  | .tlbInvalidationComplete p => fits 16 p
  | .atsInvalidation p _ _ _ => fits 16 p
  | .pageRequestResponse _ _ => true
  | .keyLoad slot => fits 256 slot
  | .keyErase slot => fits 256 slot
  | .apertureWrite _ vf _ => fits 64 vf
  | .clusterGate cl _ => fits 128 cl
  | .clusterGated cl => fits 128 cl
  | .clusterWake cl => fits 128 cl
  | .clusterWakeComplete cl => fits 128 cl
  | .resetRelease => true
  | .bootWatchdogExpiry => true
  | .cfglockWrite => true
  | .bootokWrite => true
  | .updateVerify => true
  | .updateActivateRequest => true
  | .pmcWrite p n _ => fits 16 p && fits 4 n
  | .pmselWrite p n _ => fits 16 p && fits 4 n
  | .counterEvent p x _ => fits 16 p && fits 256 x.ev
  | .replayArm p _ => fits 16 p
  | .replayPassEnd p => fits 16 p
  | .pageCapture p _ => fits 16 p
  | .pageCaptureComplete p _ => fits 16 p
  | .demandSend => true
  | .allocatorGrant => true
  | .allocatorWaitExpiry => true
  | .grantReceived _ _ => true
  | .grantAbsence => true
  | .attestationRequest vf _ => fits 256 vf
  | .planeenWrite _ => true
  | .fabricPortFailure port => fits 32 port
  | .correctedError _ _ _ => true
  | .uncorrectableUnconsumed _ _ => true
  | .linkCrcRetry port => fits 32 port
  | .configRegisterWrite _ _ _ => true
  | .illegalInstruction => true
  | .hostAccess _ _ _ _ => true
  | .peerInvalidation _ => true
  | .exchangeHalfArrival _ => true
  | .frrptrWrite _ _ => true
  | .keyCommandComplete => true
  | .updateVerifyComplete => true
  | .partitionResetComplete p => fits 16 p

end Sys2Proof
end

