-- ==== Sys2Proof/Decode.lean ====
section
/-! DEFINITION. The decoder of instruction words, total on any bits and rejecting by name, and after it the encoder,
both written from the encoding tables of 06 (R167 to R188), 07 (R197 to R221), 08, 09 (R184), 10 and 11. -/

namespace Sys2Proof

/-- Why a word is no instruction. Each reason raises the illegal-instruction fault (R169, R175, R179 to R182). -/
inductive DecErr where
  /-- A major that is not assigned (R179). -/
  | major
  /-- A minor, a condition or a literal operation that is not assigned (R180, R181, R184). -/
  | minor
  /-- A field that the operand form does not use is not 0 (R175). -/
  | reserved
  /-- A literal head without a literal after it in its packet (R169). -/
  | literal
  deriving DecidableEq, Repr

/-- Bits [30:25] of a word, its major opcode (R174). -/
def majorOf (w : Nat) : Nat := w / 33554432 % 64

/-- Bit 31 of a word, its chain bit (R168). -/
def chainOf (w : Nat) : Bool := w / 2147483648 % 2 == 1

/-- The majors whose word takes the next word of its packet as a literal (R169). -/
def isHeadMajor (m : Nat) : Bool :=
  m == 0x07 || m == 0x0D || (Nat.ble 0x2B m && Nat.ble m 0x30) || m == 0x35 || m == 0x3A || m == 0x3B

/-- A form whose unused fields must sum to 0 (R175). -/
def zeroFields (n : Nat) (i : Instr) : Except DecErr Instr := if n = 0 then .ok i else .error .reserved

/-- Major 0x01 (R180). -/
def decode01 (d a b f g mn : Nat) : Except DecErr Instr :=
  match mn with
  | 0 => .ok (.saddS d a b (f == 1) (g == 1))
  | 1 => .ok (.saddZ d a b (f == 1) (g == 1))
  | 2 => .ok (.ssubS d a b (f == 1) (g == 1))
  | 3 => .ok (.ssubZ d a b (f == 1) (g == 1))
  | 4 => .ok (.smulS d a b (f == 1) (g == 1))
  | 5 => .ok (.smulZ d a b (f == 1) (g == 1))
  | 6 => .ok (.smulhS d a b (f == 1) (g == 1))
  | 7 => .ok (.smulhZ d a b (f == 1) (g == 1))
  | 8 => .ok (.sdivS d a b (f == 1) (g == 1))
  | 9 => .ok (.sdivZ d a b (f == 1) (g == 1))
  | 10 => .ok (.sremS d a b (f == 1) (g == 1))
  | 11 => .ok (.sremZ d a b (f == 1) (g == 1))
  | 12 => .ok (.sand d a b (f == 1) (g == 1))
  | 13 => .ok (.sor d a b (f == 1) (g == 1))
  | 14 => .ok (.sxor d a b (f == 1) (g == 1))
  | 15 => .ok (.sandn d a b (f == 1) (g == 1))
  | 16 => .ok (.sshl d a b (f == 1) (g == 1))
  | 17 => .ok (.sshr d a b (f == 1) (g == 1))
  | 18 => .ok (.ssra d a b (f == 1) (g == 1))
  | 19 => .ok (.srot d a b (f == 1) (g == 1))
  | 20 => .ok (.sminS d a b (f == 1) (g == 1))
  | 21 => .ok (.sminZ d a b (f == 1) (g == 1))
  | 22 => .ok (.smaxS d a b (f == 1) (g == 1))
  | 23 => .ok (.smaxZ d a b (f == 1) (g == 1))
  | 24 => .ok (.sadd64 d a b (f == 1) (g == 1))
  | 25 => .ok (.ssub64 d a b (f == 1) (g == 1))
  | 26 => zeroFields (b + g) (.spopc d a (f == 1))
  | 27 => zeroFields (b + g) (.sclz d a (f == 1))
  | 28 => zeroFields (b + g) (.sctz d a (f == 1))
  | 29 => zeroFields (b + g) (.sbrev d a (f == 1))
  | 30 => zeroFields (b + g) (.smov d a (f == 1))
  | 31 => .ok (.ssel d a b (f == 1) (g == 1))
  | _ => .error .minor

/-- Major 0x02 (R180). -/
def decode02 (d a b f g mn : Nat) : Except DecErr Instr :=
  if Nat.blt mn 10 then .ok (.scmp mn d a b (f == 1) (g == 1)) else .error .minor

/-- Major 0x03 (R182). -/
def decode03 (d a f imm : Nat) : Except DecErr Instr :=
  .ok (.saddSImm d a (f == 1) imm)

/-- Major 0x04 (R182). -/
def decode04 (d a f imm : Nat) : Except DecErr Instr :=
  match imm / 1024 with
  | 0 => zeroFields (imm / 32 % 32) (.sshlImm d a (f == 1) (imm % 32))
  | 1 => zeroFields (imm / 32 % 32) (.sshrImm d a (f == 1) (imm % 32))
  | 2 => zeroFields (imm / 32 % 32) (.ssraImm d a (f == 1) (imm % 32))
  | 3 => zeroFields (imm / 32 % 32) (.srotImm d a (f == 1) (imm % 32))
  | _ => .error .minor

/-- Major 0x05 (R182). -/
def decode05 (d a f imm : Nat) : Except DecErr Instr :=
  match imm / 1024 with
  | 0 => .ok (.sbfeZ d a (f == 1) (imm / 32 % 32) (imm % 32))
  | 1 => .ok (.sbfeS d a (f == 1) (imm / 32 % 32) (imm % 32))
  | 2 => .ok (.sbfi d a (f == 1) (imm / 32 % 32) (imm % 32))
  | _ => .error .minor

/-- Major 0x06 (R182). -/
def decode06 (d imm : Nat) : Except DecErr Instr :=
  .ok (.sli d imm)

/-- Major 0x07 (R182). -/
def decode07 (d imm l : Nat) : Except DecErr Instr :=
  zeroFields imm (.slit d l)

/-- Major 0x08 (R181, R206). -/
def decode08 (cond off : Nat) : Except DecErr Instr :=
  if Nat.blt cond 5 then .ok (.jmp cond off) else .error .minor

/-- Major 0x09 (R182). -/
def decode09 (d imm : Nat) : Except DecErr Instr :=
  .ok (.brz d imm)

/-- Major 0x0a (R182). -/
def decode0A (d imm : Nat) : Except DecErr Instr :=
  .ok (.brnz d imm)

/-- Major 0x0b (R182). -/
def decode0B (d imm : Nat) : Except DecErr Instr :=
  .ok (.call d imm)

/-- Major 0x0c (R180). -/
def decode0C (d a b f g mn : Nat) : Except DecErr Instr :=
  match mn with
  | 0 => zeroFields (d + b + g) (.jmpr a (f == 1))
  | 1 => zeroFields (b + g) (.callr d a (f == 1))
  | 2 => zeroFields (d + b + g) (.ret a (f == 1))
  | 3 => zeroFields (a + b + f + g) (.emrd d)
  | 4 => zeroFields (d + b + g) (.emwr a (f == 1))
  | 5 => zeroFields (d + a + b + f + g) (.nop)
  | 6 => zeroFields (d + a + b + f + g) (.exit)
  | 7 => zeroFields (d + a + b + f + g) (.join)
  | 8 => zeroFields (d + b + g) (.itemput a (f == 1))
  | _ => .error .minor

/-- Major 0x0d (R182). -/
def decode0D (d imm l : Nat) : Except DecErr Instr :=
  .ok (.div d imm l)

/-- Major 0x0e (R182). -/
def decode0E (d a f imm : Nat) : Except DecErr Instr :=
  .ok (.itemhead d a (f == 1) imm)

/-- Major 0x0f (R182). -/
def decode0F (d imm : Nat) : Except DecErr Instr :=
  zeroFields (imm / 64) (.loopb d (imm % 64))

/-- Major 0x10 (R180). -/
def decode10 (d a b f g mn : Nat) : Except DecErr Instr :=
  match mn with
  | 0 => .ok (.vadd d a b (f == 1) (g == 1))
  | 1 => .ok (.vsub d a b (f == 1) (g == 1))
  | 2 => .ok (.vaddc d a b (f == 1) (g == 1))
  | 3 => .ok (.vsubb d a b (f == 1) (g == 1))
  | 4 => .ok (.vmul d a b (f == 1) (g == 1))
  | 5 => .ok (.vmulhS d a b (f == 1) (g == 1))
  | 6 => .ok (.vmulhZ d a b (f == 1) (g == 1))
  | 7 => .ok (.vand d a b (f == 1) (g == 1))
  | 8 => .ok (.vor d a b (f == 1) (g == 1))
  | 9 => .ok (.vxor d a b (f == 1) (g == 1))
  | 10 => .ok (.vandn d a b (f == 1) (g == 1))
  | 11 => .ok (.vshl d a b (f == 1) (g == 1))
  | 12 => .ok (.vshr d a b (f == 1) (g == 1))
  | 13 => .ok (.vsra d a b (f == 1) (g == 1))
  | 14 => .ok (.vminS d a b (f == 1) (g == 1))
  | 15 => .ok (.vminZ d a b (f == 1) (g == 1))
  | 16 => .ok (.vmaxS d a b (f == 1) (g == 1))
  | 17 => .ok (.vmaxZ d a b (f == 1) (g == 1))
  | 18 => zeroFields (b + g) (.vabs d a (f == 1))
  | 19 => zeroFields (b + g) (.vpopc d a (f == 1))
  | 20 => zeroFields (b + g) (.vclz d a (f == 1))
  | 21 => zeroFields (b + g) (.vbrev d a (f == 1))
  | 22 => zeroFields (b + g) (.vmov d a (f == 1))
  | 23 => .ok (.vsel d a b (f == 1) (g == 1))
  | 24 => zeroFields (b + g) (.vbcast d a (f == 1))
  | 25 => .ok (.vlane d a b (f == 1) (g == 1))
  | _ => .error .minor

/-- Major 0x11 (R180). -/
def decode11 (d a b f g mn : Nat) : Except DecErr Instr :=
  if Nat.blt mn 10 then .ok (.vcmp mn d a b (f == 1) (g == 1)) else .error .minor

/-- Major 0x12 (R182). -/
def decode12 (d a f imm : Nat) : Except DecErr Instr :=
  .ok (.vaddImm d a (f == 1) imm)

/-- Major 0x13 (R182). -/
def decode13 (d a f imm : Nat) : Except DecErr Instr :=
  match imm / 1024 with
  | 0 => zeroFields (imm / 32 % 32) (.vshlImm d a (f == 1) (imm % 32))
  | 1 => zeroFields (imm / 32 % 32) (.vshrImm d a (f == 1) (imm % 32))
  | 2 => zeroFields (imm / 32 % 32) (.vsraImm d a (f == 1) (imm % 32))
  | _ => .error .minor

/-- Major 0x14 (R182). -/
def decode14 (d a f imm : Nat) : Except DecErr Instr :=
  match imm / 1024 with
  | 0 => .ok (.vbfeZ d a (f == 1) (imm / 32 % 32) (imm % 32))
  | 1 => .ok (.vbfeS d a (f == 1) (imm / 32 % 32) (imm % 32))
  | 2 => .ok (.vbfi d a (f == 1) (imm / 32 % 32) (imm % 32))
  | _ => .error .minor

/-- Major 0x15 (R180). -/
def decode15 (d a b f g mn : Nat) : Except DecErr Instr :=
  match mn with
  | 0 => zeroFields (b + g) (.vsatS8 d a (f == 1))
  | 1 => zeroFields (b + g) (.vsatZ8 d a (f == 1))
  | 2 => zeroFields (b + g) (.vsatS16 d a (f == 1))
  | 3 => zeroFields (b + g) (.vsatZ16 d a (f == 1))
  | 4 => .ok (.vpackB8 d a b (f == 1) (g == 1))
  | 5 => .ok (.vpackB16 d a b (f == 1) (g == 1))
  | 6 => .ok (.vunpackS8 d a b (f == 1) (g == 1))
  | 7 => .ok (.vunpackZ8 d a b (f == 1) (g == 1))
  | 8 => .ok (.vunpackS16 d a b (f == 1) (g == 1))
  | 9 => .ok (.vunpackZ16 d a b (f == 1) (g == 1))
  | 10 => .ok (.vpermb d a b (f == 1) (g == 1))
  | _ => .error .minor

/-- Major 0x16 (R180). -/
def decode16 (d a b f g mn : Nat) : Except DecErr Instr :=
  match mn with
  | 0 => .ok (.vmad d a b (f == 1) (g == 1))
  | _ => .error .minor

/-- Major 0x18 (R180). -/
def decode18 (d a b f g mn : Nat) : Except DecErr Instr :=
  match mn / 4 with
  | 0 => .ok (.vfadd (mn % 4) d a b (f == 1) (g == 1))
  | 1 => .ok (.vfsub (mn % 4) d a b (f == 1) (g == 1))
  | 2 => .ok (.vfmul (mn % 4) d a b (f == 1) (g == 1))
  | 3 => .ok (.vfma (mn % 4) d a b (f == 1) (g == 1))
  | 4 => .ok (.vfdot2 (mn % 4) d a b (f == 1) (g == 1))
  | 5 => zeroFields (mn % 4) (.vfmin d a b (f == 1) (g == 1))
  | 6 => zeroFields (mn % 4) (.vfmax d a b (f == 1) (g == 1))
  | 7 => .ok (.vfscale (mn % 4) d a b (f == 1) (g == 1))
  | _ => .error .minor

/-- Major 0x19 (R180). -/
def decode19 (d a b f g mn : Nat) : Except DecErr Instr :=
  match mn / 4 with
  | 0 => zeroFields (b + g) (.vfrcp (mn % 4) d a (f == 1))
  | 1 => zeroFields (b + g) (.vfrsq (mn % 4) d a (f == 1))
  | 2 => zeroFields (b + g) (.vfsqrt (mn % 4) d a (f == 1))
  | 3 => zeroFields (b + g) (.vfexp2 (mn % 4) d a (f == 1))
  | 4 => zeroFields (b + g) (.vflog2 (mn % 4) d a (f == 1))
  | 5 => zeroFields (b + g) (.vfsin (mn % 4) d a (f == 1))
  | 6 => zeroFields (b + g) (.vfcos (mn % 4) d a (f == 1))
  | 7 => zeroFields (b + g) (.vfrnd (mn % 4) d a (f == 1))
  | _ => .error .minor

/-- Major 0x1a (R180). -/
def decode1A (d a b f g mn : Nat) : Except DecErr Instr :=
  match mn with
  | 0 => zeroFields (b + g) (.vfabs d a (f == 1))
  | 1 => zeroFields (b + g) (.vfneg d a (f == 1))
  | 2 => zeroFields (b + g) (.vfclass d a (f == 1))
  | _ => .error .minor

/-- Major 0x1b (R180). -/
def decode1B (d a b f g mn : Nat) : Except DecErr Instr :=
  if Nat.blt mn 8 then .ok (.vfcmp mn d a b (f == 1) (g == 1)) else .error .minor

/-- Major 0x1c (R182). -/
def decode1C (d a f imm : Nat) : Except DecErr Instr :=
  zeroFields (imm / 512) (.vfcvt d a (f == 1) (imm / 128 % 4) (imm / 64 % 2 == 1) (imm / 16 % 4) (imm % 16))

/-- Major 0x1d (R182). -/
def decode1D (d a f imm : Nat) : Except DecErr Instr :=
  zeroFields (imm / 512 + imm / 64 % 2) (.vfcvti d a (f == 1) (imm / 128 % 4) (imm / 16 % 4) (imm % 16))

/-- Major 0x1e (R182). -/
def decode1E (d a f imm : Nat) : Except DecErr Instr :=
  zeroFields (imm / 512) (.vicvtf d a (f == 1) (imm / 128 % 4) (imm / 64 % 2 == 1) (imm / 16 % 4) (imm % 16))

/-- Major 0x1f (R180). -/
def decode1F (d a b f g mn : Nat) : Except DecErr Instr :=
  match mn with
  | 0 => .ok (.vclmulLo d a b (f == 1) (g == 1))
  | 1 => .ok (.vclmulHi d a b (f == 1) (g == 1))
  | n => if Nat.ble 16 n then zeroFields (b + g) (.vtag (n - 16) d a (f == 1)) else .error .minor

/-- Major 0x20 (R183 to R185). -/
def decode20 (d base idx pol fx : Nat) : Except DecErr Instr :=
  .ok (.ldB32 d base idx pol (fx == 1))

/-- Major 0x21 (R183 to R185). -/
def decode21 (d base idx pol fx : Nat) : Except DecErr Instr :=
  .ok (.ldB64 d base idx pol (fx == 1))

/-- Major 0x22 (R183 to R185). -/
def decode22 (d base idx pol fx : Nat) : Except DecErr Instr :=
  .ok (.ldZ8 d base idx pol (fx == 1))

/-- Major 0x23 (R183 to R185). -/
def decode23 (d base idx pol fx : Nat) : Except DecErr Instr :=
  .ok (.ldS8 d base idx pol (fx == 1))

/-- Major 0x24 (R183 to R185). -/
def decode24 (d base idx pol fx : Nat) : Except DecErr Instr :=
  .ok (.ldZ16 d base idx pol (fx == 1))

/-- Major 0x25 (R183 to R185). -/
def decode25 (d base idx pol fx : Nat) : Except DecErr Instr :=
  .ok (.ldS16 d base idx pol (fx == 1))

/-- Major 0x26 (R183 to R185). -/
def decode26 (d base idx pol fx : Nat) : Except DecErr Instr :=
  .ok (.stB8 d base idx pol (fx == 1))

/-- Major 0x27 (R183 to R185). -/
def decode27 (d base idx pol fx : Nat) : Except DecErr Instr :=
  .ok (.stB16 d base idx pol (fx == 1))

/-- Major 0x28 (R183 to R185). -/
def decode28 (d base idx pol fx : Nat) : Except DecErr Instr :=
  .ok (.stB32 d base idx pol (fx == 1))

/-- Major 0x29 (R183 to R185). -/
def decode29 (d base idx pol fx : Nat) : Except DecErr Instr :=
  .ok (.stB64 d base idx pol (fx == 1))

/-- Major 0x2a (R183 to R185). -/
def decode2A (d base idx pol fx : Nat) : Except DecErr Instr :=
  .ok (.ldmcB32 d base idx pol (fx == 1))

/-- Major 0x2b (R183 to R185). -/
def decode2B (d base idx pol fx l : Nat) : Except DecErr Instr :=
  match l / 67108864 % 64 with
  | 0 => zeroFields (l / 1048576 % 64 + l / 524288 % 2 + l / 262144 % 2 + l % 262144) (.ldsB32 d base idx pol (fx == 1))
  | 1 => zeroFields (l / 1048576 % 64 + l / 524288 % 2 + l / 262144 % 2 + l % 262144) (.ldsB64 d base idx pol (fx == 1))
  | 2 => zeroFields (l / 1048576 % 64 + l / 524288 % 2 + l / 262144 % 2 + l % 262144) (.stsB32 d base idx pol (fx == 1))
  | 3 => zeroFields (l / 1048576 % 64 + l / 524288 % 2 + l / 262144 % 2 + l % 262144) (.stsB64 d base idx pol (fx == 1))
  | 8 => zeroFields (d + l / 1048576 % 64 + l / 524288 % 2 + l / 262144 % 2 + l % 262144) (.pref base idx pol (fx == 1))
  | 9 => zeroFields (d + l / 1048576 % 64 + l / 524288 % 2 + l / 262144 % 2 + l % 262144) (.lflush base idx pol (fx == 1))
  | _ => .error .minor

/-- Major 0x2c (R183 to R185). -/
def decode2C (d base idx pol fx l : Nat) : Except DecErr Instr :=
  match l / 67108864 % 64 with
  | 0 => zeroFields (l % 262144) (.atomAdd d base idx pol (fx == 1) (l / 1048576 % 64) (l / 524288 % 2 == 1) (l / 262144 % 2 == 1))
  | 1 => zeroFields (l % 262144) (.atomSub d base idx pol (fx == 1) (l / 1048576 % 64) (l / 524288 % 2 == 1) (l / 262144 % 2 == 1))
  | 2 => zeroFields (l % 262144) (.atomAnd d base idx pol (fx == 1) (l / 1048576 % 64) (l / 524288 % 2 == 1) (l / 262144 % 2 == 1))
  | 3 => zeroFields (l % 262144) (.atomOr d base idx pol (fx == 1) (l / 1048576 % 64) (l / 524288 % 2 == 1) (l / 262144 % 2 == 1))
  | 4 => zeroFields (l % 262144) (.atomXor d base idx pol (fx == 1) (l / 1048576 % 64) (l / 524288 % 2 == 1) (l / 262144 % 2 == 1))
  | 5 => zeroFields (l % 262144) (.atomMins d base idx pol (fx == 1) (l / 1048576 % 64) (l / 524288 % 2 == 1) (l / 262144 % 2 == 1))
  | 6 => zeroFields (l % 262144) (.atomMaxs d base idx pol (fx == 1) (l / 1048576 % 64) (l / 524288 % 2 == 1) (l / 262144 % 2 == 1))
  | 7 => zeroFields (l % 262144) (.atomMinz d base idx pol (fx == 1) (l / 1048576 % 64) (l / 524288 % 2 == 1) (l / 262144 % 2 == 1))
  | 8 => zeroFields (l % 262144) (.atomMaxz d base idx pol (fx == 1) (l / 1048576 % 64) (l / 524288 % 2 == 1) (l / 262144 % 2 == 1))
  | 9 => zeroFields (l % 262144) (.atomExch d base idx pol (fx == 1) (l / 1048576 % 64) (l / 524288 % 2 == 1) (l / 262144 % 2 == 1))
  | 10 => zeroFields (l % 262144) (.atomCas d base idx pol (fx == 1) (l / 1048576 % 64) (l / 524288 % 2 == 1) (l / 262144 % 2 == 1))
  | _ => .error .minor

/-- Major 0x2d (R183 to R185). -/
def decode2D (d base idx pol fx l : Nat) : Except DecErr Instr :=
  match l / 67108864 % 64 with
  | 0 => zeroFields (l % 262144) (.fatomAdd d base idx pol (fx == 1) (l / 1048576 % 64) (l / 524288 % 2 == 1) (l / 262144 % 2 == 1))
  | 1 => zeroFields (l % 262144) (.fatomMin d base idx pol (fx == 1) (l / 1048576 % 64) (l / 524288 % 2 == 1) (l / 262144 % 2 == 1))
  | 2 => zeroFields (l % 262144) (.fatomMax d base idx pol (fx == 1) (l / 1048576 % 64) (l / 524288 % 2 == 1) (l / 262144 % 2 == 1))
  | _ => .error .minor

/-- Major 0x2e (R183 to R185). -/
def decode2E (d base idx pol fx l : Nat) : Except DecErr Instr :=
  match l / 67108864 % 64 with
  | 0 => zeroFields (d + l % 262144) (.cadd base idx pol (fx == 1) (l / 1048576 % 64) (l / 524288 % 2 == 1) (l / 262144 % 2 == 1))
  | 1 => zeroFields (l / 1048576 % 64 + l / 524288 % 2 + l % 262144) (.crd d base idx pol (fx == 1) (l / 262144 % 2 == 1))
  | 2 => zeroFields (l / 1048576 % 64 + l / 524288 % 2 + l % 262144) (.crdRst d base idx pol (fx == 1) (l / 262144 % 2 == 1))
  | _ => .error .minor

/-- Major 0x2f (R183 to R185). -/
def decode2F (d base idx pol fx l : Nat) : Except DecErr Instr :=
  match l / 67108864 % 64 with
  | 0 => zeroFields (l % 262144) (.qpush d base idx pol (fx == 1) (l / 1048576 % 64) (l / 524288 % 2 == 1) (l / 262144 % 2 == 1))
  | 1 => zeroFields (l / 524288 % 2 + l % 262144) (.qpop d base idx pol (fx == 1) (l / 1048576 % 64) (l / 262144 % 2 == 1))
  | _ => .error .minor

/-- Major 0x30 (R183 to R185). -/
def decode30 (d base idx pol fx l : Nat) : Except DecErr Instr :=
  if Nat.blt (l / 67108864 % 64) 10 then zeroFields (l % 262144) (.waitc (l / 67108864 % 64) d base idx pol (fx == 1) (l / 1048576 % 64) (l / 524288 % 2 == 1) (l / 262144 % 2 == 1)) else .error .minor

/-- Major 0x31 (R183 to R185). -/
def decode31 (d base idx pol fx : Nat) : Except DecErr Instr :=
  .ok (.lkl d base idx pol (fx == 1))

/-- Major 0x32 (R183 to R185). -/
def decode32 (d base idx pol fx : Nat) : Except DecErr Instr :=
  zeroFields (d) (.ulkl base idx pol (fx == 1))

/-- Major 0x33 (R183 to R185). -/
def decode33 (d base idx pol fx : Nat) : Except DecErr Instr :=
  .ok (.winchk d base idx pol (fx == 1))

/-- Major 0x34 (R180). -/
def decode34 (d a b f g mn : Nat) : Except DecErr Instr :=
  match mn with
  | 0 => zeroFields (g) (.voteAll d a b (f == 1))
  | 1 => zeroFields (g) (.voteAny d a b (f == 1))
  | 2 => zeroFields (g) (.voteBallot d a b (f == 1))
  | _ => .error .minor

/-- Major 0x35 (R180). -/
def decode35 (d a b f g mn l : Nat) : Except DecErr Instr :=
  if mn = 0 then
    match l / 1073741824 % 4 with
    | 0 => zeroFields (g + l % 262144 + l / 33554432 % 32) (.shflIdx d a b (f == 1) (l / 524288 % 64) (l / 262144 % 2 == 1))
    | 1 => zeroFields (g + l % 262144 + l / 524288 % 64 + l / 262144 % 2) (.shflUp d a b (f == 1) (l / 33554432 % 32))
    | 2 => zeroFields (g + l % 262144 + l / 524288 % 64 + l / 262144 % 2) (.shflDown d a b (f == 1) (l / 33554432 % 32))
    | _ => zeroFields (g + l % 262144 + l / 524288 % 64 + l / 262144 % 2) (.shflXor d a b (f == 1) (l / 33554432 % 32))
  else .error .minor

/-- Major 0x36 (R180). -/
def decode36 (d a b f g mn : Nat) : Except DecErr Instr :=
  match mn with
  | 0 => zeroFields (g) (.gredAdd d a b (f == 1))
  | 1 => zeroFields (g) (.gredMins d a b (f == 1))
  | 2 => zeroFields (g) (.gredMaxs d a b (f == 1))
  | 3 => zeroFields (g) (.gredMinz d a b (f == 1))
  | 4 => zeroFields (g) (.gredMaxz d a b (f == 1))
  | 5 => zeroFields (g) (.gredAnd d a b (f == 1))
  | 6 => zeroFields (g) (.gredOr d a b (f == 1))
  | 7 => zeroFields (g) (.gredXor d a b (f == 1))
  | 8 => zeroFields (g) (.gredFadd d a b (f == 1))
  | 9 => zeroFields (g) (.gredFmin d a b (f == 1))
  | 10 => zeroFields (g) (.gredFmax d a b (f == 1))
  | 16 => zeroFields (g) (.gscanAdd d a b (f == 1))
  | 17 => zeroFields (g) (.gscanMins d a b (f == 1))
  | 18 => zeroFields (g) (.gscanMaxs d a b (f == 1))
  | 19 => zeroFields (g) (.gscanMinz d a b (f == 1))
  | 20 => zeroFields (g) (.gscanMaxz d a b (f == 1))
  | 21 => zeroFields (g) (.gscanAnd d a b (f == 1))
  | 22 => zeroFields (g) (.gscanOr d a b (f == 1))
  | 23 => zeroFields (g) (.gscanXor d a b (f == 1))
  | 24 => zeroFields (g) (.gscanFadd d a b (f == 1))
  | 25 => zeroFields (g) (.gscanFmin d a b (f == 1))
  | 26 => zeroFields (g) (.gscanFmax d a b (f == 1))
  | _ => .error .minor

/-- Major 0x37 (R180). -/
def decode37 (d a b f g mn : Nat) : Except DecErr Instr :=
  match mn with
  | 0 => zeroFields (g) (.xchg d a b (f == 1))
  | _ => .error .minor

/-- Major 0x38 (R182). -/
def decode38 (d a f imm : Nat) : Except DecErr Instr :=
  match imm / 32 with
  | 0 => zeroFields (d) (.binit (imm % 32) a (f == 1))
  | 1 => zeroFields (d) (.barr (imm % 32) a (f == 1))
  | 2 => zeroFields (d) (.bwait (imm % 32) a (f == 1))
  | 3 => zeroFields (d) (.barrw (imm % 32) a (f == 1))
  | 4 => zeroFields (d) (.bexp (imm % 32) a (f == 1))
  | 5 => zeroFields (a + f) (.bqry (imm % 32) d)
  | 6 => zeroFields (d) (.barrPeer (imm % 32) a (f == 1))
  | _ => .error .minor

/-- Major 0x3a (R183 to R185). -/
def decode3A (d base idx pol fx l : Nat) : Except DecErr Instr :=
  if l / 65536 % 8 = 7 then .error .minor
  else match l / 16384 % 4 with
    | 0 => zeroFields (l % 128 + l / 512 % 32) (.acp d base idx pol (fx == 1) (l / 67108864 % 64) (l / 1048576 % 64) (l / 524288 % 2 == 1) (l / 65536 % 8) (l / 16384 % 4) (l / 512 % 32) (l / 128 % 4))
    | 1 => zeroFields (l % 128 + d) (.acp d base idx pol (fx == 1) (l / 67108864 % 64) (l / 1048576 % 64) (l / 524288 % 2 == 1) (l / 65536 % 8) (l / 16384 % 4) (l / 512 % 32) (l / 128 % 4))
    | 2 => zeroFields (l % 128 + l / 512 % 32) (.acp d base idx pol (fx == 1) (l / 67108864 % 64) (l / 1048576 % 64) (l / 524288 % 2 == 1) (l / 65536 % 8) (l / 16384 % 4) (l / 512 % 32) (l / 128 % 4))
    | _ => .error .minor

/-- Major 0x3b (R180). -/
def decode3B (d a b f g mn l : Nat) : Except DecErr Instr :=
  match mn with
  | 0 => zeroFields (b / 16 + a + f + g + l / 1048576 % 64 + l / 524288 % 2 + l % 524288) (.mzero (b % 16) d (l / 67108864 % 64))
  | 1 => zeroFields (l % 524288) (.mld d a b (f == 1) (g == 1) (l / 67108864 % 64) (l / 1048576 % 64) (l / 524288 % 2 == 1))
  | 2 => zeroFields (l % 524288) (.mst d a b (f == 1) (g == 1) (l / 67108864 % 64) (l / 1048576 % 64) (l / 524288 % 2 == 1))
  | 3 => zeroFields (d + l % 524288) (.mscale a b (f == 1) (g == 1) (l / 67108864 % 64) (l / 1048576 % 64) (l / 524288 % 2 == 1))
  | 4 => zeroFields (f + g + l % 524288) (.mma d a b (l / 67108864 % 64) (l / 1048576 % 64) (l / 524288 % 2 == 1))
  | 5 => zeroFields (f + g + l % 524288) (.mloop d a b (l / 67108864 % 64) (l / 1048576 % 64) (l / 524288 % 2 == 1))
  | 6 => zeroFields (a + b + f + g + l / 67108864 % 64 + l / 1048576 % 64 + l / 524288 % 2 + l % 524288) (.mfence d)
  | 7 => zeroFields (d + b + g + l / 1048576 % 64 + l / 524288 % 2 + l % 524288) (.mwait a (f == 1) (l / 67108864 % 64))
  | _ => .error .minor

/-- Major 0x3c (R180). -/
def decode3C (d a b f g mn : Nat) : Except DecErr Instr :=
  match mn with
  | 0 => .ok (.segcrtCm d a b (f == 1) (g == 1))
  | 1 => .ok (.segcrtChip d a b (f == 1) (g == 1))
  | 2 => zeroFields (b + g) (.segatt d a (f == 1))
  | 3 => zeroFields (d + b + g) (.segdet a (f == 1))
  | 4 => zeroFields (b + g) (.segdel d a (f == 1))
  | 5 => zeroFields (b + g) (.segqry d a (f == 1))
  | 6 => zeroFields (d) (.emit16 a b (f == 1) (g == 1))
  | 7 => zeroFields (d) (.emit32 a b (f == 1) (g == 1))
  | 8 => zeroFields (d) (.emit64 a b (f == 1) (g == 1))
  | _ => .error .minor

/-- Major 0x3d (R180). -/
def decode3D (d a b f g mn : Nat) : Except DecErr Instr :=
  match mn with
  | 0 => zeroFields (f + g) (.csrr d (a * 64 + b))
  | 1 => zeroFields (f + g) (.csrw d (a * 64 + b))
  | 2 => zeroFields (d + a + b + f + g) (.icinv)
  | 3 => zeroFields (d + a + b + f + g) (.icinvAll)
  | 4 => zeroFields (a + b + f + g) (.clk d)
  | 5 => zeroFields (a + b + f + g) (.rdmeter d)
  | 6 => zeroFields (a + b + f + g) (.rdbkt d)
  | 7 => zeroFields (d + b + g) (.opreq a (f == 1))
  | 8 => zeroFields (d + a + b + f + g) (.yieldW)
  | 9 => zeroFields (d + f + g) (.trap (a * 64 + b))
  | 10 => zeroFields (d + a + b + f + g) (.trapret)
  | _ => .error .minor

/-- The instruction of a word and, for a literal head, of the literal after it (R174, R179). -/
def decodeInstr (w : Nat) (lit : Option Nat) : Except DecErr Instr :=
  let d := w / 524288 % 64
  let a := w / 8192 % 64
  let b := w / 128 % 64
  let f := w / 64 % 2
  let g := w / 32 % 2
  let mn := w % 32
  let fi := w / 4096 % 2
  let imm := w % 4096
  let pol := w / 2 % 64
  let fx := w % 2
  let u := w % 524288
  match majorOf w, lit with
  | 0x01, _ => decode01 d a b f g mn
  | 0x02, _ => decode02 d a b f g mn
  | 0x03, _ => decode03 d a fi imm
  | 0x04, _ => decode04 d a fi imm
  | 0x05, _ => decode05 d a fi imm
  | 0x06, _ => decode06 d u
  | 0x07, some l => decode07 d u l
  | 0x07, none => .error .literal
  | 0x08, _ => decode08 (w / 2097152 % 16) (w % 2097152)
  | 0x09, _ => decode09 d u
  | 0x0a, _ => decode0A d u
  | 0x0b, _ => decode0B d u
  | 0x0c, _ => decode0C d a b f g mn
  | 0x0d, some l => decode0D d u l
  | 0x0d, none => .error .literal
  | 0x0e, _ => decode0E d a fi imm
  | 0x0f, _ => decode0F d u
  | 0x10, _ => decode10 d a b f g mn
  | 0x11, _ => decode11 d a b f g mn
  | 0x12, _ => decode12 d a fi imm
  | 0x13, _ => decode13 d a fi imm
  | 0x14, _ => decode14 d a fi imm
  | 0x15, _ => decode15 d a b f g mn
  | 0x16, _ => decode16 d a b f g mn
  | 0x18, _ => decode18 d a b f g mn
  | 0x19, _ => decode19 d a b f g mn
  | 0x1a, _ => decode1A d a b f g mn
  | 0x1b, _ => decode1B d a b f g mn
  | 0x1c, _ => decode1C d a fi imm
  | 0x1d, _ => decode1D d a fi imm
  | 0x1e, _ => decode1E d a fi imm
  | 0x1f, _ => decode1F d a b f g mn
  | 0x20, _ => decode20 d a b pol fx
  | 0x21, _ => decode21 d a b pol fx
  | 0x22, _ => decode22 d a b pol fx
  | 0x23, _ => decode23 d a b pol fx
  | 0x24, _ => decode24 d a b pol fx
  | 0x25, _ => decode25 d a b pol fx
  | 0x26, _ => decode26 d a b pol fx
  | 0x27, _ => decode27 d a b pol fx
  | 0x28, _ => decode28 d a b pol fx
  | 0x29, _ => decode29 d a b pol fx
  | 0x2a, _ => decode2A d a b pol fx
  | 0x2b, some l => decode2B d a b pol fx l
  | 0x2b, none => .error .literal
  | 0x2c, some l => decode2C d a b pol fx l
  | 0x2c, none => .error .literal
  | 0x2d, some l => decode2D d a b pol fx l
  | 0x2d, none => .error .literal
  | 0x2e, some l => decode2E d a b pol fx l
  | 0x2e, none => .error .literal
  | 0x2f, some l => decode2F d a b pol fx l
  | 0x2f, none => .error .literal
  | 0x30, some l => decode30 d a b pol fx l
  | 0x30, none => .error .literal
  | 0x31, _ => decode31 d a b pol fx
  | 0x32, _ => decode32 d a b pol fx
  | 0x33, _ => decode33 d a b pol fx
  | 0x34, _ => decode34 d a b f g mn
  | 0x35, some l => decode35 d a b f g mn l
  | 0x35, none => .error .literal
  | 0x36, _ => decode36 d a b f g mn
  | 0x37, _ => decode37 d a b f g mn
  | 0x38, _ => decode38 d a fi imm
  | 0x3a, some l => decode3A d a b pol fx l
  | 0x3a, none => .error .literal
  | 0x3b, some l => decode3B d a b f g mn l
  | 0x3b, none => .error .literal
  | 0x3c, _ => decode3C d a b f g mn
  | 0x3d, _ => decode3D d a b f g mn
  | _, _ => .error .major

/-- A word with its chain bit (R168). -/
def decodeWord (w : Nat) (lit : Option Nat) : Except DecErr (Bool × Instr) :=
  match decodeInstr w lit with
  | .ok i => .ok (chainOf w, i)
  | .error e => .error e

/-- The little-endian word at byte `k` of a list of bytes (R3, R167). -/
def wordAt (bs : List Nat) (k : Nat) : Nat :=
  bs.getD k 0 + 256 * bs.getD (k + 1) 0 + 65536 * bs.getD (k + 2) 0 + 16777216 * bs.getD (k + 3) 0

/-- The bytes of a word, lowest address first (R3). -/
def wordBytes (w : Nat) : List Nat := [w % 256, w / 256 % 256, w / 65536 % 256, w / 16777216 % 256]

/-- The instruction at the head of a list of bytes as the hardware stores it (R167). -/
def decodeBytes (bs : List Nat) : Except DecErr (Bool × Instr) := decodeWord (wordAt bs 0) (some (wordAt bs 4))

/-- The decoder's answer for the bits of an opcode-table row, numbered as the table numbers them: the first word in
bits 31 to 0 and the literal above it, zero where the table gives none. -/
def decodeTableWord (_nbits w : Nat) : Option Instr :=
  match decodeBytes (wordBytes (w % 4294967296) ++ wordBytes (w / 4294967296 % 4294967296)) with
  | .ok (_, i) => some i
  | .error _ => none

/-! The encoder. -/

/-- The R format (R174). -/
def encR (c maj d a b f g mn : Nat) : Nat :=
  c * 2147483648 + maj * 33554432 + d * 524288 + a * 8192 + b * 128 + f * 64 + g * 32 + mn

/-- The I format (R174). -/
def encI (c maj d a f imm : Nat) : Nat :=
  c * 2147483648 + maj * 33554432 + d * 524288 + a * 8192 + f * 4096 + imm

/-- The M format (R174). -/
def encM (c maj d base idx pol fx : Nat) : Nat :=
  c * 2147483648 + maj * 33554432 + d * 524288 + base * 8192 + idx * 128 + pol * 2 + fx

/-- The U format (R174). -/
def encU (c maj d imm : Nat) : Nat := c * 2147483648 + maj * 33554432 + d * 524288 + imm

/-- The J format (R174). -/
def encJ (c maj cond off : Nat) : Nat := c * 2147483648 + maj * 33554432 + cond * 2097152 + off

/-- The memory extension literal (R184). -/
def encExt (op x fy u : Nat) : Nat := op * 67108864 + x * 1048576 + fy * 524288 + u * 262144

/-- The literal of the matrix words (R186). -/
def encMx (memb desc fy : Nat) : Nat := memb * 67108864 + desc * 1048576 + fy * 524288

/-- The literal of SHFL (R187). -/
def encShfl (kind delta sel fy : Nat) : Nat := kind * 1073741824 + delta * 33554432 + sel * 524288 + fy * 262144

/-- The literal of ACP (R185). -/
def encAcp (dbase didx fy size cmpl bar csc : Nat) : Nat :=
  dbase * 67108864 + didx * 1048576 + fy * 524288 + size * 65536 + cmpl * 16384 + bar * 512 + csc * 128

/-- The words of an instruction with chain bit `c` (R174 to R188); a step without an encoding has none. -/
def encodeWords (c : Nat) : Instr → List Nat
  | .saddS d a b fa fb => [encR c 0x01 d a b fa.toNat fb.toNat 0]
  | .saddZ d a b fa fb => [encR c 0x01 d a b fa.toNat fb.toNat 1]
  | .ssubS d a b fa fb => [encR c 0x01 d a b fa.toNat fb.toNat 2]
  | .ssubZ d a b fa fb => [encR c 0x01 d a b fa.toNat fb.toNat 3]
  | .smulS d a b fa fb => [encR c 0x01 d a b fa.toNat fb.toNat 4]
  | .smulZ d a b fa fb => [encR c 0x01 d a b fa.toNat fb.toNat 5]
  | .smulhS d a b fa fb => [encR c 0x01 d a b fa.toNat fb.toNat 6]
  | .smulhZ d a b fa fb => [encR c 0x01 d a b fa.toNat fb.toNat 7]
  | .sdivS d a b fa fb => [encR c 0x01 d a b fa.toNat fb.toNat 8]
  | .sdivZ d a b fa fb => [encR c 0x01 d a b fa.toNat fb.toNat 9]
  | .sremS d a b fa fb => [encR c 0x01 d a b fa.toNat fb.toNat 10]
  | .sremZ d a b fa fb => [encR c 0x01 d a b fa.toNat fb.toNat 11]
  | .sand d a b fa fb => [encR c 0x01 d a b fa.toNat fb.toNat 12]
  | .sor d a b fa fb => [encR c 0x01 d a b fa.toNat fb.toNat 13]
  | .sxor d a b fa fb => [encR c 0x01 d a b fa.toNat fb.toNat 14]
  | .sandn d a b fa fb => [encR c 0x01 d a b fa.toNat fb.toNat 15]
  | .sshl d a b fa fb => [encR c 0x01 d a b fa.toNat fb.toNat 16]
  | .sshr d a b fa fb => [encR c 0x01 d a b fa.toNat fb.toNat 17]
  | .ssra d a b fa fb => [encR c 0x01 d a b fa.toNat fb.toNat 18]
  | .srot d a b fa fb => [encR c 0x01 d a b fa.toNat fb.toNat 19]
  | .sminS d a b fa fb => [encR c 0x01 d a b fa.toNat fb.toNat 20]
  | .sminZ d a b fa fb => [encR c 0x01 d a b fa.toNat fb.toNat 21]
  | .smaxS d a b fa fb => [encR c 0x01 d a b fa.toNat fb.toNat 22]
  | .smaxZ d a b fa fb => [encR c 0x01 d a b fa.toNat fb.toNat 23]
  | .sadd64 d a b fa fb => [encR c 0x01 d a b fa.toNat fb.toNat 24]
  | .ssub64 d a b fa fb => [encR c 0x01 d a b fa.toNat fb.toNat 25]
  | .spopc d a fa => [encR c 0x01 d a 0 fa.toNat 0 26]
  | .sclz d a fa => [encR c 0x01 d a 0 fa.toNat 0 27]
  | .sctz d a fa => [encR c 0x01 d a 0 fa.toNat 0 28]
  | .sbrev d a fa => [encR c 0x01 d a 0 fa.toNat 0 29]
  | .smov d a fa => [encR c 0x01 d a 0 fa.toNat 0 30]
  | .ssel d a b fa fb => [encR c 0x01 d a b fa.toNat fb.toNat 31]
  | .scmp cc d a b fa fb => [encR c 0x02 d a b fa.toNat fb.toNat (cc)]
  | .saddSImm d a fa imm => [encI c 0x03 d a fa.toNat (imm)]
  | .sshlImm d a fa n => [encI c 0x04 d a fa.toNat (0 * 1024 + n)]
  | .sshrImm d a fa n => [encI c 0x04 d a fa.toNat (1 * 1024 + n)]
  | .ssraImm d a fa n => [encI c 0x04 d a fa.toNat (2 * 1024 + n)]
  | .srotImm d a fa n => [encI c 0x04 d a fa.toNat (3 * 1024 + n)]
  | .sbfeS d a fa w1 pos => [encI c 0x05 d a fa.toNat (1 * 1024 + w1 * 32 + pos)]
  | .sbfeZ d a fa w1 pos => [encI c 0x05 d a fa.toNat (0 * 1024 + w1 * 32 + pos)]
  | .sbfi d a fa w1 pos => [encI c 0x05 d a fa.toNat (2 * 1024 + w1 * 32 + pos)]
  | .sli d imm => [encU c 0x06 d imm]
  | .slit d value => [encU c 0x07 d 0, value]
  | .jmp cond off => [encJ c 0x08 cond off]
  | .brz d off => [encU c 0x09 d off]
  | .brnz d off => [encU c 0x0a d off]
  | .call d off => [encU c 0x0b d off]
  | .jmpr a fa => [encR c 0x0c 0 a 0 fa.toNat 0 0]
  | .callr d a fa => [encR c 0x0c d a 0 fa.toNat 0 1]
  | .ret a fa => [encR c 0x0c 0 a 0 fa.toNat 0 2]
  | .emrd d => [encR c 0x0c d 0 0 0 0 3]
  | .emwr a fa => [encR c 0x0c 0 a 0 fa.toNat 0 4]
  | .nop => [encR c 0x0c 0 0 0 0 0 5]
  | .exit => [encR c 0x0c 0 0 0 0 0 6]
  | .join => [encR c 0x0c 0 0 0 0 0 7]
  | .itemput a fa => [encR c 0x0c 0 a 0 fa.toNat 0 8]
  | .div d other joff => [encU c 0x0d d other, joff]
  | .itemhead d a fa imm => [encI c 0x0e d a fa.toNat (imm)]
  | .loopb d n => [encU c 0x0f d n]
  | .vadd d a b fa fb => [encR c 0x10 d a b fa.toNat fb.toNat 0]
  | .vsub d a b fa fb => [encR c 0x10 d a b fa.toNat fb.toNat 1]
  | .vaddc d a b fa fb => [encR c 0x10 d a b fa.toNat fb.toNat 2]
  | .vsubb d a b fa fb => [encR c 0x10 d a b fa.toNat fb.toNat 3]
  | .vmul d a b fa fb => [encR c 0x10 d a b fa.toNat fb.toNat 4]
  | .vmulhS d a b fa fb => [encR c 0x10 d a b fa.toNat fb.toNat 5]
  | .vmulhZ d a b fa fb => [encR c 0x10 d a b fa.toNat fb.toNat 6]
  | .vand d a b fa fb => [encR c 0x10 d a b fa.toNat fb.toNat 7]
  | .vor d a b fa fb => [encR c 0x10 d a b fa.toNat fb.toNat 8]
  | .vxor d a b fa fb => [encR c 0x10 d a b fa.toNat fb.toNat 9]
  | .vandn d a b fa fb => [encR c 0x10 d a b fa.toNat fb.toNat 10]
  | .vshl d a b fa fb => [encR c 0x10 d a b fa.toNat fb.toNat 11]
  | .vshr d a b fa fb => [encR c 0x10 d a b fa.toNat fb.toNat 12]
  | .vsra d a b fa fb => [encR c 0x10 d a b fa.toNat fb.toNat 13]
  | .vminS d a b fa fb => [encR c 0x10 d a b fa.toNat fb.toNat 14]
  | .vminZ d a b fa fb => [encR c 0x10 d a b fa.toNat fb.toNat 15]
  | .vmaxS d a b fa fb => [encR c 0x10 d a b fa.toNat fb.toNat 16]
  | .vmaxZ d a b fa fb => [encR c 0x10 d a b fa.toNat fb.toNat 17]
  | .vabs d a fa => [encR c 0x10 d a 0 fa.toNat 0 18]
  | .vpopc d a fa => [encR c 0x10 d a 0 fa.toNat 0 19]
  | .vclz d a fa => [encR c 0x10 d a 0 fa.toNat 0 20]
  | .vbrev d a fa => [encR c 0x10 d a 0 fa.toNat 0 21]
  | .vmov d a fa => [encR c 0x10 d a 0 fa.toNat 0 22]
  | .vsel d a b fa fb => [encR c 0x10 d a b fa.toNat fb.toNat 23]
  | .vbcast d a fa => [encR c 0x10 d a 0 fa.toNat 0 24]
  | .vlane d a b fa fb => [encR c 0x10 d a b fa.toNat fb.toNat 25]
  | .vcmp cc d a b fa fb => [encR c 0x11 d a b fa.toNat fb.toNat (cc)]
  | .vaddImm d a fa imm => [encI c 0x12 d a fa.toNat (imm)]
  | .vshlImm d a fa n => [encI c 0x13 d a fa.toNat (0 * 1024 + n)]
  | .vshrImm d a fa n => [encI c 0x13 d a fa.toNat (1 * 1024 + n)]
  | .vsraImm d a fa n => [encI c 0x13 d a fa.toNat (2 * 1024 + n)]
  | .vbfeS d a fa w1 pos => [encI c 0x14 d a fa.toNat (1 * 1024 + w1 * 32 + pos)]
  | .vbfeZ d a fa w1 pos => [encI c 0x14 d a fa.toNat (0 * 1024 + w1 * 32 + pos)]
  | .vbfi d a fa w1 pos => [encI c 0x14 d a fa.toNat (2 * 1024 + w1 * 32 + pos)]
  | .vsatS8 d a fa => [encR c 0x15 d a 0 fa.toNat 0 0]
  | .vsatZ8 d a fa => [encR c 0x15 d a 0 fa.toNat 0 1]
  | .vsatS16 d a fa => [encR c 0x15 d a 0 fa.toNat 0 2]
  | .vsatZ16 d a fa => [encR c 0x15 d a 0 fa.toNat 0 3]
  | .vpackB8 d a b fa fb => [encR c 0x15 d a b fa.toNat fb.toNat 4]
  | .vpackB16 d a b fa fb => [encR c 0x15 d a b fa.toNat fb.toNat 5]
  | .vunpackS8 d a b fa fb => [encR c 0x15 d a b fa.toNat fb.toNat 6]
  | .vunpackZ8 d a b fa fb => [encR c 0x15 d a b fa.toNat fb.toNat 7]
  | .vunpackS16 d a b fa fb => [encR c 0x15 d a b fa.toNat fb.toNat 8]
  | .vunpackZ16 d a b fa fb => [encR c 0x15 d a b fa.toNat fb.toNat 9]
  | .vpermb d a b fa fb => [encR c 0x15 d a b fa.toNat fb.toNat 10]
  | .vmad d a b fa fb => [encR c 0x16 d a b fa.toNat fb.toNat 0]
  | .vfadd rm d a b fa fb => [encR c 0x18 d a b fa.toNat fb.toNat (0 + rm)]
  | .vfsub rm d a b fa fb => [encR c 0x18 d a b fa.toNat fb.toNat (4 + rm)]
  | .vfmul rm d a b fa fb => [encR c 0x18 d a b fa.toNat fb.toNat (8 + rm)]
  | .vfma rm d a b fa fb => [encR c 0x18 d a b fa.toNat fb.toNat (12 + rm)]
  | .vfdot2 rm d a b fa fb => [encR c 0x18 d a b fa.toNat fb.toNat (16 + rm)]
  | .vfmin d a b fa fb => [encR c 0x18 d a b fa.toNat fb.toNat 20]
  | .vfmax d a b fa fb => [encR c 0x18 d a b fa.toNat fb.toNat 24]
  | .vfscale rm d a b fa fb => [encR c 0x18 d a b fa.toNat fb.toNat (28 + rm)]
  | .vfrcp rm d a fa => [encR c 0x19 d a 0 fa.toNat 0 (0 + rm)]
  | .vfrsq rm d a fa => [encR c 0x19 d a 0 fa.toNat 0 (4 + rm)]
  | .vfsqrt rm d a fa => [encR c 0x19 d a 0 fa.toNat 0 (8 + rm)]
  | .vfexp2 rm d a fa => [encR c 0x19 d a 0 fa.toNat 0 (12 + rm)]
  | .vflog2 rm d a fa => [encR c 0x19 d a 0 fa.toNat 0 (16 + rm)]
  | .vfsin rm d a fa => [encR c 0x19 d a 0 fa.toNat 0 (20 + rm)]
  | .vfcos rm d a fa => [encR c 0x19 d a 0 fa.toNat 0 (24 + rm)]
  | .vfrnd rm d a fa => [encR c 0x19 d a 0 fa.toNat 0 (28 + rm)]
  | .vfabs d a fa => [encR c 0x1a d a 0 fa.toNat 0 0]
  | .vfneg d a fa => [encR c 0x1a d a 0 fa.toNat 0 1]
  | .vfclass d a fa => [encR c 0x1a d a 0 fa.toNat 0 2]
  | .vfcmp cc d a b fa fb => [encR c 0x1b d a b fa.toNat fb.toNat (cc)]
  | .vfcvt d a fa part sat rm tag => [encI c 0x1c d a fa.toNat (part * 128 + sat.toNat * 64 + rm * 16 + tag)]
  | .vfcvti d a fa part rm tag => [encI c 0x1d d a fa.toNat (part * 128 + rm * 16 + tag)]
  | .vicvtf d a fa part sat rm tag => [encI c 0x1e d a fa.toNat (part * 128 + sat.toNat * 64 + rm * 16 + tag)]
  | .vclmulLo d a b fa fb => [encR c 0x1f d a b fa.toNat fb.toNat 0]
  | .vclmulHi d a b fa fb => [encR c 0x1f d a b fa.toNat fb.toNat 1]
  | .vtag tag d a fa => [encR c 0x1f d a 0 fa.toNat 0 (16 + tag)]
  | .ldB32 d base idx pol fx => [encM c 0x20 d base idx pol fx.toNat]
  | .ldB64 d base idx pol fx => [encM c 0x21 d base idx pol fx.toNat]
  | .ldZ8 d base idx pol fx => [encM c 0x22 d base idx pol fx.toNat]
  | .ldS8 d base idx pol fx => [encM c 0x23 d base idx pol fx.toNat]
  | .ldZ16 d base idx pol fx => [encM c 0x24 d base idx pol fx.toNat]
  | .ldS16 d base idx pol fx => [encM c 0x25 d base idx pol fx.toNat]
  | .stB8 d base idx pol fx => [encM c 0x26 d base idx pol fx.toNat]
  | .stB16 d base idx pol fx => [encM c 0x27 d base idx pol fx.toNat]
  | .stB32 d base idx pol fx => [encM c 0x28 d base idx pol fx.toNat]
  | .stB64 d base idx pol fx => [encM c 0x29 d base idx pol fx.toNat]
  | .ldmcB32 d base idx pol fx => [encM c 0x2a d base idx pol fx.toNat]
  | .ldsB32 d base idx pol fx => [encM c 0x2b d base idx pol fx.toNat, encExt 0 0 0 0]
  | .ldsB64 d base idx pol fx => [encM c 0x2b d base idx pol fx.toNat, encExt 1 0 0 0]
  | .stsB32 d base idx pol fx => [encM c 0x2b d base idx pol fx.toNat, encExt 2 0 0 0]
  | .stsB64 d base idx pol fx => [encM c 0x2b d base idx pol fx.toNat, encExt 3 0 0 0]
  | .pref base idx pol fx => [encM c 0x2b 0 base idx pol fx.toNat, encExt 8 0 0 0]
  | .lflush base idx pol fx => [encM c 0x2b 0 base idx pol fx.toNat, encExt 9 0 0 0]
  | .atomAdd d base idx pol fx x fy u => [encM c 0x2c d base idx pol fx.toNat, encExt 0 x fy.toNat u.toNat]
  | .atomSub d base idx pol fx x fy u => [encM c 0x2c d base idx pol fx.toNat, encExt 1 x fy.toNat u.toNat]
  | .atomAnd d base idx pol fx x fy u => [encM c 0x2c d base idx pol fx.toNat, encExt 2 x fy.toNat u.toNat]
  | .atomOr d base idx pol fx x fy u => [encM c 0x2c d base idx pol fx.toNat, encExt 3 x fy.toNat u.toNat]
  | .atomXor d base idx pol fx x fy u => [encM c 0x2c d base idx pol fx.toNat, encExt 4 x fy.toNat u.toNat]
  | .atomMins d base idx pol fx x fy u => [encM c 0x2c d base idx pol fx.toNat, encExt 5 x fy.toNat u.toNat]
  | .atomMaxs d base idx pol fx x fy u => [encM c 0x2c d base idx pol fx.toNat, encExt 6 x fy.toNat u.toNat]
  | .atomMinz d base idx pol fx x fy u => [encM c 0x2c d base idx pol fx.toNat, encExt 7 x fy.toNat u.toNat]
  | .atomMaxz d base idx pol fx x fy u => [encM c 0x2c d base idx pol fx.toNat, encExt 8 x fy.toNat u.toNat]
  | .atomExch d base idx pol fx x fy u => [encM c 0x2c d base idx pol fx.toNat, encExt 9 x fy.toNat u.toNat]
  | .atomCas d base idx pol fx x fy u => [encM c 0x2c d base idx pol fx.toNat, encExt 10 x fy.toNat u.toNat]
  | .fatomAdd d base idx pol fx x fy u => [encM c 0x2d d base idx pol fx.toNat, encExt 0 x fy.toNat u.toNat]
  | .fatomMin d base idx pol fx x fy u => [encM c 0x2d d base idx pol fx.toNat, encExt 1 x fy.toNat u.toNat]
  | .fatomMax d base idx pol fx x fy u => [encM c 0x2d d base idx pol fx.toNat, encExt 2 x fy.toNat u.toNat]
  | .cadd base idx pol fx x fy u => [encM c 0x2e 0 base idx pol fx.toNat, encExt 0 x fy.toNat u.toNat]
  | .crd d base idx pol fx u => [encM c 0x2e d base idx pol fx.toNat, encExt 1 0 0 u.toNat]
  | .crdRst d base idx pol fx u => [encM c 0x2e d base idx pol fx.toNat, encExt 2 0 0 u.toNat]
  | .qpush d base idx pol fx x fy u => [encM c 0x2f d base idx pol fx.toNat, encExt 0 x fy.toNat u.toNat]
  | .qpop d base idx pol fx x u => [encM c 0x2f d base idx pol fx.toNat, encExt 1 x 0 u.toNat]
  | .waitc cc d base idx pol fx x fy u => [encM c 0x30 d base idx pol fx.toNat, encExt cc x fy.toNat u.toNat]
  | .lkl d base idx pol fx => [encM c 0x31 d base idx pol fx.toNat]
  | .ulkl base idx pol fx => [encM c 0x32 0 base idx pol fx.toNat]
  | .winchk d base idx pol fx => [encM c 0x33 d base idx pol fx.toNat]
  | .voteAll d a b fa => [encR c 0x34 d a b fa.toNat 0 0]
  | .voteAny d a b fa => [encR c 0x34 d a b fa.toNat 0 1]
  | .voteBallot d a b fa => [encR c 0x34 d a b fa.toNat 0 2]
  | .shflIdx d a b fa sel fy => [encR c 0x35 d a b fa.toNat 0 0, encShfl 0 0 sel fy.toNat]
  | .shflUp d a b fa delta => [encR c 0x35 d a b fa.toNat 0 0, encShfl 1 delta 0 0]
  | .shflDown d a b fa delta => [encR c 0x35 d a b fa.toNat 0 0, encShfl 2 delta 0 0]
  | .shflXor d a b fa delta => [encR c 0x35 d a b fa.toNat 0 0, encShfl 3 delta 0 0]
  | .gredAdd d a b fa => [encR c 0x36 d a b fa.toNat 0 0]
  | .gredMins d a b fa => [encR c 0x36 d a b fa.toNat 0 1]
  | .gredMaxs d a b fa => [encR c 0x36 d a b fa.toNat 0 2]
  | .gredMinz d a b fa => [encR c 0x36 d a b fa.toNat 0 3]
  | .gredMaxz d a b fa => [encR c 0x36 d a b fa.toNat 0 4]
  | .gredAnd d a b fa => [encR c 0x36 d a b fa.toNat 0 5]
  | .gredOr d a b fa => [encR c 0x36 d a b fa.toNat 0 6]
  | .gredXor d a b fa => [encR c 0x36 d a b fa.toNat 0 7]
  | .gredFadd d a b fa => [encR c 0x36 d a b fa.toNat 0 8]
  | .gredFmin d a b fa => [encR c 0x36 d a b fa.toNat 0 9]
  | .gredFmax d a b fa => [encR c 0x36 d a b fa.toNat 0 10]
  | .gscanAdd d a b fa => [encR c 0x36 d a b fa.toNat 0 16]
  | .gscanMins d a b fa => [encR c 0x36 d a b fa.toNat 0 17]
  | .gscanMaxs d a b fa => [encR c 0x36 d a b fa.toNat 0 18]
  | .gscanMinz d a b fa => [encR c 0x36 d a b fa.toNat 0 19]
  | .gscanMaxz d a b fa => [encR c 0x36 d a b fa.toNat 0 20]
  | .gscanAnd d a b fa => [encR c 0x36 d a b fa.toNat 0 21]
  | .gscanOr d a b fa => [encR c 0x36 d a b fa.toNat 0 22]
  | .gscanXor d a b fa => [encR c 0x36 d a b fa.toNat 0 23]
  | .gscanFadd d a b fa => [encR c 0x36 d a b fa.toNat 0 24]
  | .gscanFmin d a b fa => [encR c 0x36 d a b fa.toNat 0 25]
  | .gscanFmax d a b fa => [encR c 0x36 d a b fa.toNat 0 26]
  | .xchg d a b fa => [encR c 0x37 d a b fa.toNat 0 0]
  | .binit bar a fa => [encI c 0x38 0 a fa.toNat (0 + bar)]
  | .barr bar a fa => [encI c 0x38 0 a fa.toNat (32 + bar)]
  | .bwait bar a fa => [encI c 0x38 0 a fa.toNat (64 + bar)]
  | .barrw bar a fa => [encI c 0x38 0 a fa.toNat (96 + bar)]
  | .bexp bar a fa => [encI c 0x38 0 a fa.toNat (128 + bar)]
  | .bqry bar d => [encI c 0x38 d 0 0 (160 + bar)]
  | .barrPeer bar a fa => [encI c 0x38 0 a fa.toNat (192 + bar)]
  | .acp d base idx pol fx dbase didx fy size cmpl bar csc => [encM c 0x3a d base idx pol fx.toNat, encAcp dbase didx fy.toNat size cmpl bar csc]
  | .mzero tag d memb => [encR c 0x3b d 0 tag 0 0 0, encMx memb 0 0]
  | .mld d a b fa fb memb desc fy => [encR c 0x3b d a b fa.toNat fb.toNat 1, encMx memb desc fy.toNat]
  | .mst d a b fa fb memb desc fy => [encR c 0x3b d a b fa.toNat fb.toNat 2, encMx memb desc fy.toNat]
  | .mscale a b fa fb memb desc fy => [encR c 0x3b 0 a b fa.toNat fb.toNat 3, encMx memb desc fy.toNat]
  | .mma d a b memb desc fy => [encR c 0x3b d a b 0 0 4, encMx memb desc fy.toNat]
  | .mloop d a b memb desc fy => [encR c 0x3b d a b 0 0 5, encMx memb desc fy.toNat]
  | .mfence d => [encR c 0x3b d 0 0 0 0 6, encMx 0 0 0]
  | .mwait a fa memb => [encR c 0x3b 0 a 0 fa.toNat 0 7, encMx memb 0 0]
  | .segcrtCm d a b fa fb => [encR c 0x3c d a b fa.toNat fb.toNat 0]
  | .segcrtChip d a b fa fb => [encR c 0x3c d a b fa.toNat fb.toNat 1]
  | .segatt d a fa => [encR c 0x3c d a 0 fa.toNat 0 2]
  | .segdet a fa => [encR c 0x3c 0 a 0 fa.toNat 0 3]
  | .segdel d a fa => [encR c 0x3c d a 0 fa.toNat 0 4]
  | .segqry d a fa => [encR c 0x3c d a 0 fa.toNat 0 5]
  | .emit16 a b fa fb => [encR c 0x3c 0 a b fa.toNat fb.toNat 6]
  | .emit32 a b fa fb => [encR c 0x3c 0 a b fa.toNat fb.toNat 7]
  | .emit64 a b fa fb => [encR c 0x3c 0 a b fa.toNat fb.toNat 8]
  | .csrr d n => [encR c 0x3d d (n / 64) (n % 64) 0 0 0]
  | .csrw d n => [encR c 0x3d d (n / 64) (n % 64) 0 0 1]
  | .icinv => [encR c 0x3d 0 0 0 0 0 2]
  | .icinvAll => [encR c 0x3d 0 0 0 0 0 3]
  | .clk d => [encR c 0x3d d 0 0 0 0 4]
  | .rdmeter d => [encR c 0x3d d 0 0 0 0 5]
  | .rdbkt d => [encR c 0x3d d 0 0 0 0 6]
  | .opreq a fa => [encR c 0x3d 0 a 0 fa.toNat 0 7]
  | .yieldW => [encR c 0x3d 0 0 0 0 0 8]
  | .trap n => [encR c 0x3d 0 (n / 64) (n % 64) 0 0 9]
  | .trapret => [encR c 0x3d 0 0 0 0 0 10]
  | .pathReady _ => []
  | .teamEnd _ => []
  | .dispatch _ => []
  | .longLatencyCompletion _ => []
  | .storeAcknowledgement _ => []
  | .memoryWordClearance _ => []
  | .deferredFaultReport _ _ => []
  | .faultReport _ => []
  | .monitorResume _ => []
  | .monitorResumeNext _ => []
  | .monitorSave _ _ => []
  | .endTeam _ => []
  | .endGrid _ => []
  | .endContext _ => []
  | .preemptionRequest _ _ _ _ => []
  | .teamFlush _ => []
  | .teamSave _ _ => []
  | .teamRestore _ => []
  | .attachMissReplay _ _ => []
  | .pageFaultReplay _ => []
  | .pfholdExpiry _ _ => []
  | .xchgHalvesMeet _ _ => []
  | .exchangeTimeout _ => []
  | .barrierPhaseComplete _ _ => []
  | .peerArrival _ _ _ _ _ => []
  | .copyLineTransfer _ => []
  | .copyCompletion _ => []
  | .tilePortService _ => []
  | .matrixStep _ => []
  | .batchComplete _ => []
  | .homeAtomicService _ _ => []
  | .poolWordAtHome _ _ => []
  | .reflectorEntry _ _ => []
  | .reflectorForward _ _ => []
  | .conditionMonitorTest _ _ => []
  | .waitcPoll _ _ => []
  | .sliceAccessService _ _ => []
  | .mergeRequestPass _ _ => []
  | .mergedResponseSplit _ => []
  | .peerAccess _ _ _ _ _ _ _ => []
  | .peerKeyAccept _ _ => []
  | .segcrtZeroingDone _ => []
  | .segmentEvictionStart _ _ => []
  | .segmentMirrored _ => []
  | .segmentRestoreStart _ _ => []
  | .segmentResident _ => []
  | .budgetPeriodBoundary _ => []
  | .chargeArrival _ => []
  | .stopTakesEffect _ => []
  | .resumeTakesEffect _ => []
  | .energyRecordWrite _ _ _ => []
  | .correctionInterval _ => []
  | .switchPoint => []
  | .decisionTick => []
  | .exportBoundary => []
  | .doorbellWrite _ _ _ => []
  | .fetchRetryTimer _ _ => []
  | .gridLaunch _ _ => []
  | .graphLaunch _ _ => []
  | .waitPacket _ _ => []
  | .signalPacket _ _ => []
  | .waitCompletion _ _ => []
  | .waitTimeout _ _ => []
  | .launchCompletion _ => []
  | .recordArrival _ => []
  | .spillRefill _ _ => []
  | .coalesceTimerExpiry _ _ => []
  | .queueMapWrite _ _ _ => []
  | .teardownStart _ => []
  | .teardownComplete _ => []
  | .partitionControlWrite _ _ => []
  | .partitionReset _ => []
  | .tlbInvalidatePasid _ _ => []
  | .tlbInvalidateRange _ _ _ => []
  | .tlbInvalidateVf _ _ => []
  | .tlbInvalidationComplete _ => []
  | .atsInvalidation _ _ _ _ => []
  | .pageRequestResponse _ _ => []
  | .keyLoad _ => []
  | .keyErase _ => []
  | .apertureWrite _ _ _ => []
  | .clusterGate _ _ => []
  | .clusterGated _ => []
  | .clusterWake _ => []
  | .clusterWakeComplete _ => []
  | .resetRelease => []
  | .bootWatchdogExpiry => []
  | .cfglockWrite => []
  | .bootokWrite => []
  | .updateVerify => []
  | .updateActivateRequest => []
  | .pmcWrite _ _ _ => []
  | .pmselWrite _ _ _ => []
  | .counterEvent _ _ _ => []
  | .replayArm _ _ => []
  | .replayPassEnd _ => []
  | .pageCapture _ _ => []
  | .pageCaptureComplete _ _ => []
  | .demandSend => []
  | .allocatorGrant => []
  | .allocatorWaitExpiry => []
  | .grantReceived _ _ => []
  | .grantAbsence => []
  | .attestationRequest _ _ => []
  | .planeenWrite _ => []
  | .fabricPortFailure _ => []
  | .correctedError _ _ _ => []
  | .uncorrectableUnconsumed _ _ => []
  | .linkCrcRetry _ => []
  | .configRegisterWrite _ _ _ => []
  | .illegalInstruction => []
  | .hostAccess _ _ _ _ => []
  | .peerInvalidation _ => []
  | .exchangeHalfArrival _ => []
  | .frrptrWrite _ _ => []
  | .keyCommandComplete => []
  | .updateVerifyComplete => []
  | .partitionResetComplete _ => []

/-- The words of a well-formed instruction, with its chain bit (R168, R174). -/
def encode (chain : Bool) (i : Instr) : List Nat := encodeWords chain.toNat i

/-- An instruction that has an encoding, a word or a word with its literal. -/
def Instr.hasWords (i : Instr) : Bool := !(encodeWords 0 i).isEmpty

end Sys2Proof
end

