-- ==== Sys2Proof/Machine/Forms.lean ====
section
/-! DEFINITION. The forms of packets and sets: literals, chains, pipe classes, solo words, padding, and the registers a word
writes (R20, R28, R29, R32, R168 to R173, R179). -/

namespace Sys2Proof.Machine

/-- The pipe classes (R20). -/
inductive Pipe where
  | uniform | lane | memory | engine
  deriving DecidableEq, Repr

/-- The class of a major (R179). -/
def pipeOf (m : Nat) : Pipe :=
  if Nat.blt m 0x10 then .uniform
  else if Nat.blt m 0x20 then .lane
  else if Nat.blt m 0x34 then .memory
  else if Nat.blt m 0x37 then .lane
  else if m = 0x37 then .memory
  else if Nat.blt m 0x3D then .engine
  else .uniform

/-- The words that form a set by themselves (R172). -/
def isSolo : Instr → Bool
  | .div _ _ _ | .join | .itemhead _ _ _ _ | .exit | .emwr _ _ | .loopb _ _ | .icinv | .icinvAll | .yieldW | .trap _
  | .trapret => true
  | _ => false

/-- The registers a word writes, at its issue or later (R32, R54, R62). -/
def destsOf : Instr → List (RegFile × Nat)
  | .saddS d _ _ _ _ | .saddZ d _ _ _ _ | .ssubS d _ _ _ _ | .ssubZ d _ _ _ _ | .smulS d _ _ _ _
  | .smulZ d _ _ _ _ | .smulhS d _ _ _ _ | .smulhZ d _ _ _ _ | .sdivS d _ _ _ _ | .sdivZ d _ _ _ _
  | .sremS d _ _ _ _ | .sremZ d _ _ _ _ | .sand d _ _ _ _ | .sor d _ _ _ _ | .sxor d _ _ _ _ | .sandn d _ _ _ _
  | .sshl d _ _ _ _ | .sshr d _ _ _ _ | .ssra d _ _ _ _ | .srot d _ _ _ _ | .sminS d _ _ _ _ | .sminZ d _ _ _ _
  | .smaxS d _ _ _ _ | .smaxZ d _ _ _ _ | .spopc d _ _ | .sclz d _ _ | .sctz d _ _ | .sbrev d _ _ | .smov d _ _
  | .ssel d _ _ _ _ | .scmp _ d _ _ _ _ | .saddSImm d _ _ _ | .sshlImm d _ _ _ | .sshrImm d _ _ _
  | .ssraImm d _ _ _ | .srotImm d _ _ _ | .sbfeS d _ _ _ _ | .sbfeZ d _ _ _ _ | .sbfi d _ _ _ _ | .sli d _
  | .slit d _ | .emrd d | .loopb d _ | .vlane d _ _ _ _ | .vcmp _ d _ _ _ _ | .vfcmp _ d _ _ _ _
  | .ldsB32 d _ _ _ _ | .voteAll d _ _ _ | .voteAny d _ _ _ | .voteBallot d _ _ _ | .bqry _ d | .mfence d
  | .segcrtCm d _ _ _ _ | .segcrtChip d _ _ _ _ | .segdel d _ _ | .segqry d _ _ | .csrr d _ => [(.s, d)]
  | .sadd64 d _ _ _ _ | .ssub64 d _ _ _ _ | .call d _ | .callr d _ _ | .ldsB64 d _ _ _ _ | .segatt d _ _
  | .clk d | .rdmeter d | .rdbkt d => [(.s, d), (.s, d + 1)]
  | .itemhead d _ _ _ | .vadd d _ _ _ _ | .vsub d _ _ _ _ | .vmul d _ _ _ _ | .vmulhS d _ _ _ _
  | .vmulhZ d _ _ _ _ | .vand d _ _ _ _ | .vor d _ _ _ _ | .vxor d _ _ _ _ | .vandn d _ _ _ _ | .vshl d _ _ _ _
  | .vshr d _ _ _ _ | .vsra d _ _ _ _ | .vminS d _ _ _ _ | .vminZ d _ _ _ _ | .vmaxS d _ _ _ _
  | .vmaxZ d _ _ _ _ | .vabs d _ _ | .vpopc d _ _ | .vclz d _ _ | .vbrev d _ _ | .vmov d _ _ | .vsel d _ _ _ _
  | .vbcast d _ _ | .vaddImm d _ _ _ | .vshlImm d _ _ _ | .vshrImm d _ _ _ | .vsraImm d _ _ _ | .vbfeS d _ _ _ _
  | .vbfeZ d _ _ _ _ | .vbfi d _ _ _ _ | .vsatS8 d _ _ | .vsatZ8 d _ _ | .vsatS16 d _ _ | .vsatZ16 d _ _
  | .vpackB8 d _ _ _ _ | .vpackB16 d _ _ _ _ | .vunpackS8 d _ _ _ _ | .vunpackZ8 d _ _ _ _
  | .vunpackS16 d _ _ _ _ | .vunpackZ16 d _ _ _ _ | .vpermb d _ _ _ _ | .vmad d _ _ _ _ | .vfadd _ d _ _ _ _
  | .vfsub _ d _ _ _ _ | .vfmul _ d _ _ _ _ | .vfma _ d _ _ _ _ | .vfdot2 _ d _ _ _ _ | .vfmin d _ _ _ _
  | .vfmax d _ _ _ _ | .vfscale _ d _ _ _ _ | .vfrcp _ d _ _ | .vfrsq _ d _ _ | .vfsqrt _ d _ _
  | .vfexp2 _ d _ _ | .vflog2 _ d _ _ | .vfsin _ d _ _ | .vfcos _ d _ _ | .vfrnd _ d _ _ | .vfabs d _ _
  | .vfneg d _ _ | .vfclass d _ _ | .vfcvt d _ _ _ _ _ _ | .vfcvti d _ _ _ _ _ | .vicvtf d _ _ _ _ _ _
  | .vtag _ d _ _ | .ldB32 d _ _ _ _ | .ldZ8 d _ _ _ _ | .ldS8 d _ _ _ _ | .ldZ16 d _ _ _ _ | .ldS16 d _ _ _ _
  | .ldmcB32 d _ _ _ _ | .lkl d _ _ _ _ | .winchk d _ _ _ _ | .shflIdx d _ _ _ _ _ | .shflUp d _ _ _ _
  | .shflDown d _ _ _ _ | .shflXor d _ _ _ _ | .gredAdd d _ _ _ | .gredMins d _ _ _ | .gredMaxs d _ _ _
  | .gredMinz d _ _ _ | .gredMaxz d _ _ _ | .gredAnd d _ _ _ | .gredOr d _ _ _ | .gredXor d _ _ _
  | .gredFadd d _ _ _ | .gredFmin d _ _ _ | .gredFmax d _ _ _ | .gscanAdd d _ _ _ | .gscanMins d _ _ _
  | .gscanMaxs d _ _ _ | .gscanMinz d _ _ _ | .gscanMaxz d _ _ _ | .gscanAnd d _ _ _ | .gscanOr d _ _ _
  | .gscanXor d _ _ _ | .gscanFadd d _ _ _ | .gscanFmin d _ _ _ | .gscanFmax d _ _ _ | .xchg d _ _ _ => [(.v, d)]
  | .vaddc d _ _ _ _ | .vsubb d _ _ _ _ | .vclmulLo d _ _ _ _ | .vclmulHi d _ _ _ _ | .ldB64 d _ _ _ _
    => [(.v, d), (.v, d + 1)]
  | .atomAdd d _ _ _ _ _ _ u | .atomSub d _ _ _ _ _ _ u | .atomAnd d _ _ _ _ _ _ u | .atomOr d _ _ _ _ _ _ u
  | .atomXor d _ _ _ _ _ _ u | .atomMins d _ _ _ _ _ _ u | .atomMaxs d _ _ _ _ _ _ u | .atomMinz d _ _ _ _ _ _ u
  | .atomMaxz d _ _ _ _ _ _ u | .atomExch d _ _ _ _ _ _ u | .atomCas d _ _ _ _ _ _ u | .fatomAdd d _ _ _ _ _ _ u
  | .fatomMin d _ _ _ _ _ _ u | .fatomMax d _ _ _ _ _ _ u | .crd d _ _ _ _ u | .crdRst d _ _ _ _ u
  | .qpush d _ _ _ _ _ _ u | .waitc _ d _ _ _ _ _ _ u => [(fileOf u, d)]
  | .qpop d _ _ _ _ x u => [(fileOf u, d), (fileOf u, d + 1), (fileOf u, x)]
  | .acp d _ _ _ _ _ _ _ _ cmpl _ _ => if cmpl = 0 then [(.v, d)] else []
  | _ => []

/-- A word of a set: its index, its instruction, and whether it is the second writer of a register (R32). -/
structure SetWord where
  w   : Nat
  i   : Instr
  dup : Bool
  deriving DecidableEq, Repr

/-- A set as it stands in its packet: its words, and the position after it (R28, R171). -/
structure ParsedSet where
  words : List SetWord
  next  : Pos
  deriving DecidableEq, Repr

/-- Whether word `k` of a packet is a literal (R169). -/
def isLit (p : List Nat) : Nat → Bool
  | 0 => false
  | k + 1 => !isLit p k && isHeadMajor (majorOf (p.getD k 0))

/-- Whether word `k` is a NOP that only NOPs follow (R173). A last word with C = 1 is no padding: it faults (R168). A word that the word
before it chains to belongs to that word's set, a NOP too (`gather`). -/
def isPad (p : List Nat) (k : Nat) : Bool :=
  !chainOf (p.getD 2 0) && ((List.range 3).filter (fun j => Nat.ble k j)).all (fun j =>
    !isLit p j && (match decodeInstr (p.getD j 0) none with | .ok .nop => true | _ => false))

/-- The words of the set that starts at word `k`, each with its major, where `fuel` words are left. -/
def gather (p : List Nat) : Nat → Nat → List (Nat × Nat × Option Instr) × Nat
  | 0, k => ([], k)
  | fuel + 1, k =>
    if Nat.ble 3 k then ([], k)
    else
      let x := p.getD k 0
      let head := isHeadMajor (majorOf x)
      let nxt := if head then k + 2 else k + 1
      if isLit p k || Nat.blt 3 nxt then ([(k, majorOf x, none)], nxt)
      else
        let i := match decodeInstr x (if head then some (p.getD (k + 1) 0) else none) with
          | .ok i => some i
          | .error _ => none
        if chainOf x then
          if Nat.ble 3 nxt then ([(k, majorOf x, none)], nxt)
          else
            let (r, n) := gather p fuel nxt
            ((k, majorOf x, i) :: r, n)
        else ([(k, majorOf x, i)], nxt)

/-- The words of a set checked for its form, in order: a word that is no instruction, a solo word beside another, a second
word of a pipe class, and a second writer of a register (R29, R32, R172, R178). -/
def formWords (many : Bool) : List (Nat × Nat × Option Instr) → List Pipe → List (RegFile × Nat) → List SetWord
  | [], _, _ => []
  | (k, m, oi) :: r, ps, ds =>
    match oi with
    | none => { w := k, i := .illegalInstruction, dup := false } :: formWords many r (pipeOf m :: ps) ds
    | some i =>
      if (many && isSolo i) || ps.contains (pipeOf m) then
        { w := k, i := .illegalInstruction, dup := false } :: formWords many r (pipeOf m :: ps) ds
      else
        { w := k, i := i, dup := (destsOf i).any (ds.contains ·) } :: formWords many r (pipeOf m :: ps) (ds ++ destsOf i)

/-- The set at word `k` of the packet at `pa`, whose next position skips padding (R168 to R173). A solo word with C = 1 breaks
its set's form (R172). A set that is entered in its middle, by a return or a path, starts there, whatever C the word before it has
(DEDUCED, log entry 27). -/
def parseSet (p : List Nat) (pa : DWord) (k : Nat) : ParsedSet :=
  let (ws, n) := gather p 3 k
  let many := Nat.blt 1 ws.length || chainOf (p.getD k 0)
  { words := formWords many ws [] []
    next := if Nat.ble 3 n || isPad p n then { pa := pa + 12, w := 0 } else { pa := pa, w := n } }

end Sys2Proof.Machine
end

