-- ==== Sys2Proof/Machine/Issue.lean ====
section
/-! DEFINITION. How the device goes on: fetch, the issue of a set, path switches, the choice of a group, steps in flight and the
passing of time (R28 to R34, R42, R43, R167 to R173, R222, R328, R332, R337). -/

namespace Sys2Proof.Machine

/-- A step in flight is taken by the meaning of its row. -/
def runEv (i : Ev) (s : State) : Host.Outcome State Fault Refusal :=
  match i with
  | .pathReady g => execPathReady g s
  | .teamEnd t => execTeamEnd t s
  | .dispatch p => execDispatch p s
  | .longLatencyCompletion op => execLongLatencyCompletion op s
  | .storeAcknowledgement op => execStoreAcknowledgement op s
  | .memoryWordClearance op => execMemoryWordClearance op s
  | .deferredFaultReport g f => execDeferredFaultReport g f s
  | .faultReport t => execFaultReport t s
  | .monitorResume t => execMonitorResume t s
  | .monitorResumeNext t => execMonitorResumeNext t s
  | .monitorSave t area => execMonitorSave t area s
  | .endTeam t => execEndTeam t s
  | .endGrid l => execEndGrid l s
  | .endContext c => execEndContext c s
  | .preemptionRequest t cause bound area => execPreemptionRequest t cause bound area s
  | .teamFlush t => execTeamFlush t s
  | .teamSave t area => execTeamSave t area s
  | .teamRestore t => execTeamRestore t s
  | .attachMissReplay t area => execAttachMissReplay t area s
  | .pageFaultReplay t => execPageFaultReplay t s
  | .pfholdExpiry t area => execPfholdExpiry t area s
  | .xchgHalvesMeet g h => execXchgHalvesMeet g h s
  | .exchangeTimeout g => execExchangeTimeout g s
  | .barrierPhaseComplete t bar => execBarrierPhaseComplete t bar s
  | .peerArrival t bar n g pos => execPeerArrival t bar n g pos s
  | .copyLineTransfer k => execCopyLineTransfer k s
  | .copyCompletion k => execCopyCompletion k s
  | .tilePortService cl => execTilePortService cl s
  | .matrixStep cl => execMatrixStep cl s
  | .batchComplete t => execBatchComplete t s
  | .homeAtomicService op lane => execHomeAtomicService op lane s
  | .poolWordAtHome op lane => execPoolWordAtHome op lane s
  | .reflectorEntry op lane => execReflectorEntry op lane s
  | .reflectorForward op lane => execReflectorForward op lane s
  | .conditionMonitorTest op lane => execConditionMonitorTest op lane s
  | .waitcPoll op lane => execWaitcPoll op lane s
  | .sliceAccessService op lane => execSliceAccessService op lane s
  | .mergeRequestPass op lane => execMergeRequestPass op lane s
  | .mergedResponseSplit id => execMergedResponseSplit id s
  | .peerAccess peer net key addr who kind word => execPeerAccess peer net key addr who kind word s
  | .peerKeyAccept c handle => execPeerKeyAccept c handle s
  | .segcrtZeroingDone seg => execSegcrtZeroingDone seg s
  | .segmentEvictionStart seg cause => execSegmentEvictionStart seg cause s
  | .segmentMirrored seg => execSegmentMirrored seg s
  | .segmentRestoreStart seg cl => execSegmentRestoreStart seg cl s
  | .segmentResident seg => execSegmentResident seg s
  | .budgetPeriodBoundary p => execBudgetPeriodBoundary p s
  | .chargeArrival c => execChargeArrival c s
  | .stopTakesEffect x => execStopTakesEffect x s
  | .resumeTakesEffect x => execResumeTakesEffect x s
  | .energyRecordWrite c fld value => execEnergyRecordWrite c fld value s
  | .correctionInterval dom => execCorrectionInterval dom s
  | .switchPoint => execSwitchPoint s
  | .decisionTick => execDecisionTick s
  | .exportBoundary => execExportBoundary s
  | .doorbellWrite p q value => execDoorbellWrite p q value s
  | .fetchRetryTimer p q => execFetchRetryTimer p q s
  | .gridLaunch p q => execGridLaunch p q s
  | .graphLaunch p q => execGraphLaunch p q s
  | .waitPacket p q => execWaitPacket p q s
  | .signalPacket p q => execSignalPacket p q s
  | .waitCompletion p q => execWaitCompletion p q s
  | .waitTimeout p q => execWaitTimeout p q s
  | .launchCompletion l => execLaunchCompletion l s
  | .recordArrival id => execRecordArrival id s
  | .spillRefill l n => execSpillRefill l n s
  | .coalesceTimerExpiry l n => execCoalesceTimerExpiry l n s
  | .queueMapWrite p slot value => execQueueMapWrite p slot value s
  | .teardownStart c => execTeardownStart c s
  | .teardownComplete c => execTeardownComplete c s
  | .partitionControlWrite p value => execPartitionControlWrite p value s
  | .partitionReset p => execPartitionReset p s
  | .tlbInvalidatePasid p pasid => execTlbInvalidatePasid p pasid s
  | .tlbInvalidateRange p pasid pages => execTlbInvalidateRange p pasid pages s
  | .tlbInvalidateVf p vf => execTlbInvalidateVf p vf s
  | .tlbInvalidationComplete p => execTlbInvalidationComplete p s
  | .atsInvalidation p pasid page pages => execAtsInvalidation p pasid page pages s
  | .pageRequestResponse t granted => execPageRequestResponse t granted s
  | .keyLoad slot => execKeyLoad slot s
  | .keyErase slot => execKeyErase slot s
  | .apertureWrite target vf value => execApertureWrite target vf value s
  | .clusterGate cl ret => execClusterGate cl ret s
  | .clusterGated cl => execClusterGated cl s
  | .clusterWake cl => execClusterWake cl s
  | .clusterWakeComplete cl => execClusterWakeComplete cl s
  | .resetRelease => execResetRelease s
  | .bootWatchdogExpiry => execBootWatchdogExpiry s
  | .cfglockWrite => execCfglockWrite s
  | .bootokWrite => execBootokWrite s
  | .updateVerify => execUpdateVerify s
  | .updateActivateRequest => execUpdateActivateRequest s
  | .pmcWrite p n value => execPmcWrite p n value s
  | .pmselWrite p n value => execPmselWrite p n value s
  | .counterEvent p x amount => execCounterEvent p x amount s
  | .replayArm p value => execReplayArm p value s
  | .replayPassEnd p => execReplayPassEnd p s
  | .pageCapture p page => execPageCapture p page s
  | .pageCaptureComplete p page => execPageCaptureComplete p page s
  | .demandSend => execDemandSend s
  | .allocatorGrant => execAllocatorGrant s
  | .allocatorWaitExpiry => execAllocatorWaitExpiry s
  | .grantReceived watts seq => execGrantReceived watts seq s
  | .grantAbsence => execGrantAbsence s
  | .attestationRequest vf nonce => execAttestationRequest vf nonce s
  | .planeenWrite value => execPlaneenWrite value s
  | .fabricPortFailure port => execFabricPortFailure port s
  | .correctedError unit kind addr => execCorrectedError unit kind addr s
  | .uncorrectableUnconsumed unit line => execUncorrectableUnconsumed unit line s
  | .linkCrcRetry port => execLinkCrcRetry port s
  | .configRegisterWrite reg idx value => execConfigRegisterWrite reg idx value s
  | .illegalInstruction => execIllegalInstruction s
  | .hostAccess write host addr data => execHostAccess write host addr data s
  | .peerInvalidation line => execPeerInvalidation line s
  | .exchangeHalfArrival g => execExchangeHalfArrival g s
  | .frrptrWrite ring value => execFrrptrWrite ring value s
  | .keyCommandComplete => execKeyCommandComplete s
  | .updateVerifyComplete => execUpdateVerifyComplete s
  | .partitionResetComplete p => execPartitionResetComplete p s

/-! ### Fetch (R167, R210, R222, R328) -/

/-- The three words of a packet as memory holds them, or the fault of a word that cannot be fetched; cluster `cl` fetches (R410, R417, R418). -/
def State.packetAt (s : State) (cl part : Nat) (c : CtxRec) (pa : DWord) : Except (FaultClass × Nat) (List Nat) :=
  let one := fun (k : Nat) => match s.mapVa cl part c (pa.toNat + 4 * k) .fetch with
    | .fault f cause => Except.error (f, cause)
    | .ok key _ slot _ _ _ => if s.otherSlot key slot then Except.error (.access, 0) else Except.ok (s.viewN key 4 slot)
  match one 0, one 1, one 2 with
  | .ok a, .ok b, .ok d => .ok [a, b, d]
  | .error e, _, _ => .error e
  | _, .error e, _ => .error e
  | _, _, .error e => .error e

/-- The walk of a packet that no instruction cache holds: charged, and its leaf kept (R411). A packet may lie in two pages. -/
def State.fetchWalk (t : Nat) (pa : Nat) (s : State) : State :=
  let tm := s.team t
  [pa, pa + 8].foldl (fun s va =>
    if va != pa && va / 65536 == pa / 65536 then s
    else match s.leafOf tm.cluster tm.part tm.crec va with
    | some (e, sh, hit, _) => s.walked t va (e, sh, hit)
    | none => s.walkFailed t va) s

/-- The packet of a group's position: from its loop buffer, from an instruction cache that holds other words of it, or from
memory; the caches and the buffer keep what is fetched (R222, R328). -/
def State.fetch (s : State) (gid : Nat) : Except (FaultInfo × State) (List Nat × State) :=
  let g := s.grp gid
  let t := s.team g.team
  let pa := g.pos.pa.toNat
  let keep := fun (p : List Nat) (s : State) =>
    match g.loopBuf with
    | some b =>
      if b.covers g.pos.pa && !b.flush then
        s.setGrp gid { g with loopBuf := some { b with kept := SMap.set b.kept pa p } }
      else s
    | none => s
  match (match g.loopBuf with | some b => SMap.find b.kept pa | none => none) with
  | some p => .ok (p, s)
  | none =>
    let cached := (SMap.find s.icache (icKey t.cluster t.ctx pa)).isSome
    let s1 := if cached then s else s.fetchWalk g.team pa
    match s.packetAt t.cluster t.part t.crec g.pos.pa with
    | .error (c, cause) =>
      .error ({ cls := c, cause := cause, lane := 0, addr := some g.pos.pa, src := g.pos, cons := false, defer := false,
                tcode := 0 }, s1)
    | .ok p =>
      let p := match SMap.find s.icache (icKey t.cluster t.ctx pa) with
        | some q => if q == p then p else if Config.icacheHit s.ticket then q else p
        | none => p
      .ok (p, keep p { s1 with icache := SMap.set s.icache (icKey t.cluster t.ctx pa) p })

/-! ### The issue of a set (R30 to R32) -/

/-- A word of a set in one phase of its issue; it reads the group as it stood before the set (R32). A second writer of a register is
an illegal operand (R32, R178). -/
def runWord (snap : Group) (next : Pos) (ph : Phase) (x : SetWord) (s : State) : Host.Outcome State Fault Refusal :=
  let s := { s with issue := { snap := some snap, w := x.w, next := next, phase := ph } }
  if x.dup then .next (s.issueFault (s.faultOf .illegalOperand)) else exec x.i s

/-- What keeps a set from issuing, each word tried on the same state: a register or a unit that holds a word back, or the fault of the
lowest-numbered faulting word. The faults of steps 6 and 7 of R178 are judged only when no word is held back (R30, R31, R64). -/
def stopOf (snap : Group) (next : Pos) (s : State) : List SetWord → Option SetWord → Option (Host.Outcome State Fault Refusal)
  | [], none => none
  | [], some y => some (runWord snap next .whole y s)
  | x :: r, l =>
    match runWord snap next .probe x s with
    | .next t =>
      match t.verdict with
      | .held => some (.next t)
      | .trapped => (match l with | some y => some (runWord snap next .whole y s) | none => some (.next t))
      | .late => stopOf snap next s r (match l with | some y => some y | none => some x)
      | _ => stopOf snap next s r l
    | o => some o

/-- What the words of a set have done: the state, whether one transferred control, and the word that blocked. -/
structure Ran where
  s     : State
  moved : Bool
  blk   : Option Nat

/-- The words of a set take effect together (R30, R32). TRAP alone ends them with its trap (R330). -/
def applyWords (snap : Group) (next : Pos) (ph : Phase) : List SetWord → Ran → Except (Host.Outcome State Fault Refusal) Ran
  | [], r => .ok r
  | x :: xs, r =>
    match runWord snap next ph x r.s with
    | .next t =>
      if t.verdict = .held || t.verdict = .trapped then .error (.next t)
      else applyWords snap next ph xs
        { s := t, moved := r.moved || t.verdict == .transferred, blk := if t.verdict = .blocked then some x.w else r.blk }
    | o => .error o

/-- The entry with which a blocked running path exchanges places: the top one, if it is a path that is not blocked, and no
handler runs (R42, R343). -/
def Group.switchTo (g : Group) : Option StackEntry :=
  match g.stack with
  | e :: _ => if e.kind = .path && e.block.isNone && !g.csr.hact then some e else none
  | [] => none

/-- The path switch of R42: the blocked path goes to the top entry, the entry's path runs. -/
def Group.switchPath (g : Group) (e : StackEntry) : Group :=
  { g with em := e.mask, block := none, path := e.path
           stack := { kind := .path, mask := g.em, pos := g.pos, block := g.block, path := g.path } :: g.stack.drop 1 }.moveTo e.pos

/-- A running path that is blocked exchanges places with the top entry where it can: at its block, or at the group's next try once a path
stands ready there (R42; DESIGN CHOICE, log entry 3). -/
def State.exchange (gid : Nat) (s : State) : State :=
  let g := s.grp gid
  match g.block, g.switchTo with
  | some _, some e => (s.setGrp gid (g.switchPath e)).count g.team 0x13 1
  | _, _ => s

/-- The state between two sets. -/
def State.idleAt (next : Pos) (s : State) : State := { s with issue := { snap := none, w := 0, next := next, phase := .whole } }

/-- Whether a blocked path is held through the end of its cycle: a BARRW's, whose phase may complete there (R294). -/
def Group.lingers (g : Group) : Bool := match g.block with | some b => (match b.on with | .barArr _ _ => true | _ => false) | none => false

/-- A group after a taken transfer of its set to another packet than the next issues no sooner than four cycles on, or two where its loop buffer
keeps the target: R205 has one at the least there, and fetch adds one here, so that no loop keeps an older group from issuing (R50, R205;
DESIGN CHOICE, log entry 3). -/
def Group.gapped (start : Pos) (cycle : Nat) (g : Group) : Group :=
  let kept := match g.loopBuf with | some b => (SMap.find b.kept g.pos.pa.toNat).isSome | none => false
  if g.pos.pa == start.pa + 12 then g else { g with wake := max g.wake (cycle + if kept then 2 else 4) }

/-- A set of `n` words that takes effect counts as it issues (R442, R443). -/
def State.countSet (n : Nat) (s : State) : State := (s.count s.g.team 0x01 1).count s.g.team 0x02 n

/-- The group goes on after its set: at the target of a transfer, behind a blocking word, whose path exchanges places at once unless it is
held through its cycle, or at the next set (R42, R43, R171, R294). -/
def Ran.finish (r : Ran) (gid : Nat) (start next : Pos) : State :=
  let g := r.s.grp gid
  let target := if r.moved then g.pos else next
  let g1 := match r.blk with
    | some k => { g.moveTo { pa := start.pa, w := k } with block := g.block.map (fun b => { b with after := target }) }
    | none => if r.moved then g.gapped start (r.s.cycle (.facets (r.s.team g.team).part)) else g.moveTo next
  let s1 := (r.s.setGrp gid g1).idleAt next
  (if g1.lingers then s1 else s1.exchange gid).verd
    (if r.blk.isSome then .blocked else if r.moved then .transferred else .issued)

/-- Whether a tried word is a memory word that awaits its clearance. -/
def awaits (snap : Group) (next : Pos) (s : State) (x : SetWord) : Bool :=
  match runWord snap next .whole x s with
  | .next t => snap.clear.isNone && t.g.clear.isSome
  | _ => false

/-- The words of a set that are charged as they issue, and take effect later (R142, R333). -/
def chargeWords (snap : Group) (next : Pos) (ws : List SetWord) (s : State) : State :=
  ws.foldl (fun s x => match runWord snap next .charge x s with | .next t => t | _ => s) s

/-- The issue of a set of the current group. Where it holds a memory word that must clear, all its words issue and are charged now and
the other words take effect when that word has cleared (R31, R333); else all take effect now. -/
def issueSet (p : ParsedSet) (s : State) : Host.Outcome State Fault Refusal :=
  let snap := s.g
  let n := p.words.length
  match stopOf snap p.next s p.words none with
  | some (.next t) => .next (t.idleAt p.next)
  | some o => o
  | none =>
    let s := s.resign
    let snap := s.g
    match p.words.find? (awaits snap p.next s) with
    | some x =>
      match runWord snap p.next .whole x s with
      | .next t =>
        let others := p.words.filter (fun y => y.w != x.w)
        let r : SetRest :=
          { gid := s.cur, words := others.map (fun y => (y.w, y.i)), snap := snap, start := snap.pos, next := p.next }
        .next ((({ chargeWords snap p.next others t with snaps := SMap.set t.snaps s.ticket r }.countSet n).verd .issued).idleAt p.next)
      | o => o
    | none =>
      match applyWords snap p.next .whole p.words { s := s, moved := false, blk := none } with
      | .ok r => .next ({ r with s := r.s.countSet n }.finish s.cur snap.pos p.next)
      | .error (.next t) => .next (((t.countSet n).verd .issued).idleAt p.next)
      | .error o => o

/-! ### After clearance (R333) -/

/-- The other words of a set whose memory word has cleared take effect. A WAITC then blocks the path until it completes (R42). -/
def runRest (id : Nat) (s : State) : Host.Outcome State Fault Refusal :=
  match SMap.find s.snaps id, SMap.find s.ops id with
  | some r, some o =>
    let s1 := { s with cur := r.gid, snaps := SMap.erase s.snaps id }
    let ws := r.words.map (fun x => { w := x.1, i := x.2, dup := false : SetWord })
    match applyWords r.snap r.next .effect ws { s := s1, moved := false, blk := none } with
    | .error x => x
    | .ok a =>
      let a1 := match o.kind with
        | .waitc _ => { a with s := a.s.modG (fun g => { g with block := some { on := .waitc id, after := r.next } })
                               blk := some o.pos.w }
        | _ => a
      .next { a1.finish r.gid r.start r.next with rest := none }
  | _, _ => .next { s with rest := none, snaps := SMap.erase s.snaps id, verdict := .issued }

/-! ### The boundaries of a group (R33, R34, R332, R337, R352) -/

/-- Whether a team's groups may issue: it runs or drains, or is stopping and the cycle of its stop has not come (R338). -/
def Team.runs (t : Team) (cycle : Nat) : Bool :=
  match t.st with
  | .running => true
  | .draining => true
  | .faulted => (match t.stopAt with | some x => Nat.blt cycle x | none => false)
  | _ => false

/-- The clock of a team's facet. -/
def Team.clock (t : Team) : Clock := .facets t.part

/-- Whether a group may try to issue (R34, R150, R342). -/
def State.ready (s : State) (g : Group) : Bool :=
  let t := s.team g.team
  let n := s.cycle t.clock
  !g.retired && !g.stopped && g.clear.isNone && t.runs n && (SMap.find (s.ctx t.ctx).held g.facet).isNone &&
    (g.block.isNone || g.switchTo.isSome) && Nat.ble g.wake n

/-- Whether a fault may be taken at a group's present boundary although no set issues there: the team runs, or is to be saved, and the
group stands between two sets (R337, R342, R352). -/
def State.mayFault (s : State) (g : Group) : Bool :=
  let t := s.team g.team
  !g.stopped && g.clear.isNone && Nat.ble g.wake (s.cycle t.clock) &&
    (t.runs (s.cycle t.clock) || (t.stopAt.isNone && (t.st == .saving || t.st == .missed || t.st == .flushing)))

/-- A deferred fault is taken at the boundary where its group stands (R337). -/
def State.takeDeferred (gid : Nat) (s : State) : State :=
  let g := s.grp gid
  match g.deferred with
  | [] => s
  | d :: r =>
    let s1 := { s.idleAt g.pos with cur := gid }.modGrp gid (fun x => { x with deferred := r })
    (s1.takeFault gid d.info g.pos).markOvf g.team d.ovf

/-- The fault of the set at a group's boundary, where it has one (R31, R210, R332). -/
def setFault (gid : Nat) (s : State) : Option (Host.Outcome State Fault Refusal) :=
  let s := { s with cur := gid }
  let g := s.grp gid
  if g.retired || g.block.isSome then none
  else match s.fetch gid with
  | .error (f, s1) => some (.next ({ s1 with issue := { snap := none, w := g.pos.w, next := g.pos, phase := .whole } }.issueFault f))
  | .ok (p, s1) =>
    if isPad p g.pos.w then none
    else
      let q := parseSet p g.pos.pa g.pos.w
      match stopOf g q.next s1 q.words none with
      | some (.next t) => if t.verdict = .trapped then some (.next (t.idleAt q.next)) else none
      | _ => none

/-- A boundary where no set issues: the fault of the set there, else a deferred fault, is taken (R337, R352). -/
def faultAtBoundary (gid : Nat) (s : State) : Option (Host.Outcome State Fault Refusal) :=
  match setFault gid s with
  | some o => some o
  | none => if (s.grp gid).deferred.isEmpty then none else some (.next (s.takeDeferred gid))

/-- The set at a group's position is fetched and issued; padding is passed over in no time (R173). -/
def issueAt (gid : Nat) (s : State) : Host.Outcome State Fault Refusal :=
  let s := { s with cur := gid }
  let g := s.grp gid
  match s.fetch gid with
  | .error (f, s1) => .next ({ s1 with issue := { snap := none, w := g.pos.w, next := g.pos, phase := .whole } }.issueFault f)
  | .ok (p, s1) =>
    if isPad p g.pos.w then .next ((s1.modG (fun x => x.moveTo (nextPacket x.pos))).verd .late)
    else issueSet (parseSet p g.pos.pa g.pos.w) s1

/-- A group that may issue at its boundary: a held deferred fault comes first, but for a fault of the set there (R332, R337). -/
def stepGroup (gid : Nat) (s : State) : Host.Outcome State Fault Refusal :=
  let s := s.exchange gid
  if (s.grp gid).deferred.isEmpty then issueAt gid s
  else match setFault gid s with
  | some o => o
  | none => .next (s.takeDeferred gid)

/-! ### The choice of a group (R34) -/

/-- The order of two groups of a sub-core in a cycle: a group that has just yielded last, then the one that issued last first, else the
older dispatch tick and the lower slot (R34, R329). -/
def State.before (s : State) (a b : Nat × Group) : Bool :=
  let last := SMap.getD (s.core a.2.coreId).last a.2.subc (a.1 + b.1 + 1)
  let late := fun (g : Group) => g.yielded == some (s.cycle (s.team g.team).clock)
  if late a.2 != late b.2 then late b.2
  else if a.1 == last then true
  else if b.1 == last then false
  else Nat.blt a.2.dispTick b.2.dispTick || (a.2.dispTick == b.2.dispTick && Nat.ble a.2.slot b.2.slot)

/-- A group put in its place in an ordered list. -/
def State.insertGroup (s : State) (x : Nat × Group) : List (Nat × Group) → List (Nat × Group)
  | [] => [x]
  | y :: r => if s.before x y then x :: y :: r else y :: State.insertGroup s x r

/-- The number of a group's sub-core: 4 to a core, in ascending order over the device. -/
def Group.subKey (g : Group) : Nat := 4 * g.coreId + g.subc

/-- A number put in its place in a rising list without repeats. -/
def insertKey (k : Nat) : List Nat → List Nat
  | [] => [k]
  | x :: r => if k < x then k :: x :: r else if k = x then x :: r else x :: insertKey k r

/-- Whether a cycle of a group's clock starts in the present round of this tick. -/
def State.inRound (s : State) (g : Group) : Bool := Nat.blt s.round (s.starts (s.team g.team).clock)

/-- The sub-cores whose turn in this cycle is still to come, ascending, each with its ready groups in the order of R34 (R220, R307). -/
def State.subcores (s : State) : List (Nat × List (Nat × Group)) :=
  let rs := s.groups.filter (fun x => s.ready x.2 && s.inRound x.2 && Nat.ble s.turn x.2.subKey)
  let keys := (rs.map (fun x => x.2.subKey)).foldr insertKey []
  keys.map (fun k => (k, (rs.filter (fun x => x.2.subKey == k)).foldr s.insertGroup []))

/-- A group whose set has issued, or has been stopped by a fault, waits for no entry and no slot any more (R128). -/
def State.leaveLine (gid : Nat) (s : State) : State :=
  let k := (s.grp gid).coreId
  if (s.core k).waiters.any (fun w => w.gid == gid) then
    s.setCore k { (s.core k) with waiters := (s.core k).waiters.filter (fun w => w.gid != gid) }
  else s

/-- A group has issued: its sub-core stays with it, and its turn in this cycle is over (R34). -/
def State.issuedBy (gid : Nat) (s : State) : State :=
  let g := s.grp gid
  let c := s.core g.coreId
  { s.setCore g.coreId { c with last := SMap.set c.last g.subc gid } with turn := g.subKey + 1 }

/-- The groups that wait beside the one that issues count their cycle and keep their places in line (R128, R442). -/
def watchGroups (l : List (Nat × Group)) (s : State) : State :=
  l.foldl (fun s x => match stepGroup x.1 s with
    | .next t => if t.verdict = .held then t.verd s.verdict else s
    | _ => s) s

/-- A group that takes a fault, or passes padding, from the state at the beginning of its sub-core's turn: the turn is not over, and those
that have waited in it wait and count again. -/
def outOfTurn (gid : Nat) (s : State) : Option (Host.Outcome State Fault Refusal) :=
  match stepGroup gid s with
  | .next t => some (.next ((t.leaveLine gid).verd (if t.verdict = .late then .issued else t.verdict)))
  | o => some o

/-- The groups of a sub-core, tried in order until one issues, takes a fault or passes padding; `b` is the state at the beginning of the
turn, and what the others' waiting leaves stands where one issues or none does (R34, R442). -/
def tryGroups (b : State) : List (Nat × Group) → State → State × Option (Host.Outcome State Fault Refusal)
  | [], s => (s, none)
  | x :: r, s =>
    match stepGroup x.1 s with
    | .next t =>
      match t.verdict with
      | .held => tryGroups b r t
      | .late => (t, outOfTurn x.1 b)
      | .trapped => (t, outOfTurn x.1 b)
      | _ => (t, some (.next ((watchGroups r (t.leaveLine x.1)).issuedBy x.1)))
    | o => (s, some o)

/-- The sub-cores in turn. -/
def trySubcores : List (Nat × List (Nat × Group)) → State → State × Option (Host.Outcome State Fault Refusal)
  | [], s => (s, none)
  | x :: r, s =>
    match tryGroups s x.2 s with
    | (t, some o) => (t, some o)
    | (t, none) => trySubcores r { t with turn := x.1 + 1 }

/-- A fault at a boundary where no set issues (R337, R352). -/
def boundaryFaults (s : State) : Option (Host.Outcome State Fault Refusal) :=
  (s.groups.filter (fun x => s.mayFault x.2 && !s.ready x.2)).findSome? (fun x => faultAtBoundary x.1 s)

/-! ### Steps in flight and time -/

/-- The steps that the spec ties to no tick: those of the units, and a transfer of an engine though its pace counts cycles (R113, R115,
R147, R380). -/
def isFree (w : When) : Ev → Bool
  | .copyLineTransfer _ => true
  | .tilePortService _ => true
  | .segmentMirrored _ => true
  | .segmentResident _ => true
  | .dispatch _ | .exportBoundary | .decisionTick | .switchPoint | .budgetPeriodBoundary _ | .correctionInterval _
  | .chargeArrival _ | .stopTakesEffect _ | .resumeTakesEffect _ | .counterEvent _ _ _ | .barrierPhaseComplete _ _
  | .exchangeTimeout _ | .fetchRetryTimer _ _ | .waitTimeout _ _ | .pfholdExpiry _ _ | .bootWatchdogExpiry | .allocatorWaitExpiry
  | .waitcPoll _ _ | .grantAbsence | .demandSend | .pathReady _ | .reflectorForward _ _ | .recordArrival _ | .spillRefill _ _
  | .coalesceTimerExpiry _ _ | .resetRelease | .clusterWakeComplete _ => false
  | _ => w.cyc.isNone

/-- The rank of the steps that no rule orders. -/
def freeRank : Nat := 13

/-- The order in which one tick takes the steps that are due: a read of the home unit comes before the refill and the charges of its cycle (R164),
the partners' arrivals and then the end of a barrier's phase before what else falls in the cycle (R293, R296), a merged answer leaves before a
request of its cycle passes (R373), the front end's arrivals before its refill, and that before its timers (R399). The free steps come in any
order after them. -/
def rankOf (w : When) (i : Ev) : Nat :=
  match i with
  | .dispatch _ => 0
  | .exportBoundary => 1
  | .decisionTick => 2
  | .switchPoint => 3
  | .longLatencyCompletion _ => if w.cyc.isSome then 4 else 12
  | .budgetPeriodBoundary _ => 5
  | .correctionInterval _ => 6
  | .peerArrival _ _ _ _ _ => 7
  | .barrierPhaseComplete _ _ => 8
  | .mergedResponseSplit _ => 9
  | .reflectorForward _ _ => if w.cyc.isSome then 10 else 11
  | .spillRefill _ _ => 11
  | .coalesceTimerExpiry _ _ => 12
  | i => if isFree w i then freeRank else 10

/-- The tick from which a step in flight may be taken: a step that the spec ties to no tick comes after a latency of its own (R113,
R115, R147; DESIGN CHOICE, log entry 3). -/
def dueTick (x : When × Ev) : Nat := x.1.tick + (if isFree x.1 x.2 then Config.latency x.2 x.1.tick else 0)

/-- Whether a step in flight is due: its tick has come, and the cycle that it awaits. -/
def State.isDue (s : State) (x : When × Ev) : Bool :=
  Nat.ble (dueTick x) s.now && (match x.1.cyc with | some (k, n) => Nat.ble n (s.cycle k) | none => true)

/-- The steps that are due, with their places in the agenda. -/
def State.due (s : State) : List (Nat × When × Ev) :=
  ((List.range s.agenda.length).zip s.agenda).filter (fun x => s.isDue x.2)

/-- Whether a step comes before another: by tick, then by rank. -/
def sooner (x y : Nat × When × Ev) : Bool :=
  Nat.blt y.2.1.tick x.2.1.tick || (y.2.1.tick == x.2.1.tick && Nat.blt (rankOf y.2.1 y.2.2) (rankOf x.2.1 x.2.2))

/-- Steps by tick and rank. -/
def earliest : List (Nat × When × Ev) → List (Nat × When × Ev)
  | [] => []
  | x :: r => (earliest r).takeWhile (sooner x) ++ x :: (earliest r).dropWhile (sooner x)

/-- The router whose output a message leaves by, and its virtual network (R420, R421). -/
def State.output (s : State) (w : When) : Ev → Option (Nat × Nat)
  | .reflectorForward op lane =>
    match (if w.cyc.isSome then SMap.find s.ops op else none) with
    | some o => (o.lane lane).bind (fun r => ((s.poolRoute o r)[r.place]?).map (fun n => (n, s.opPart o)))
    | none => none
  | .mergeRequestPass op lane =>
    match SMap.find s.ops op with
    | some o => (o.lane lane).bind (fun r => match r.home with
      | .slice k => ((s.mergeRoute o k)[r.place]?).map (fun n => (n, s.opPart o))
      | _ => none)
    | none => none
  | .mergedResponseSplit id => (s.merges.find? (fun m => m.id == id && Nat.blt m.place 128)).map (fun m => (m.place, m.net))
  | _ => none

/-- How many networks stand before a network in a router's round: the one after the network served last comes first (R421). -/
def State.round17 (s : State) (router net : Nat) : Nat := (net + 16 - SMap.getD s.arb router 16) % 17

/-- The first of the steps in order, or, where it leaves a router, that of the messages that leave it at the same time whose network the
router's round comes to first; a network with nothing ready is skipped (R421). -/
def State.arbitrate (s : State) : List (Nat × When × Ev) → List (Nat × When × Ev)
  | [] => []
  | x :: r =>
    match s.output x.2.1 x.2.2 with
    | none => x :: r
    | some (k, net) =>
      let best := r.foldl (fun (b : (Nat × When × Ev) × Nat) y =>
        match s.output y.2.1 y.2.2 with
        | some (k', n) => if k' = k && !sooner y x && Nat.blt (s.round17 k n) b.2 then (y, s.round17 k n) else b
        | none => b) (x, s.round17 k net)
      best.1 :: (x :: r).filter (fun y => y.1 != best.1.1)

/-- The state in which a step in flight is taken: it has left the agenda, and a router that sends a message has served its network
(R421). -/
def State.taking (k : Nat) (w : When) (i : Ev) (s : State) : State :=
  { s with agenda := s.agenda.eraseIdx k
           arb := match s.output w i with | some x => SMap.set s.arb x.1 x.2 | none => s.arb }

/-- The first step of a list that can be taken; it leaves the agenda. -/
def takeEvents (s : State) : List (Nat × When × Ev) → Option (Host.Outcome State Fault Refusal)
  | [] => none
  | (k, w, i) :: r =>
    match runEv i (s.taking k w i) with
    | .next t => if t.verdict = .held then takeEvents s r else some (.next t)
    | o => some o

/-- Whether some clock starts a second cycle in this tick (R427). -/
def State.twice (s : State) : Bool :=
  Nat.ble 2 (s.starts .uncore) || s.parts.any (fun x => Nat.ble 2 (s.starts (.facets x.1)))

/-- The groups that an energy stop holds (R150, R442). -/
def State.heldGroups (s : State) : List Group :=
  (s.groups.map Prod.snd).filter (fun g => !g.retired && (SMap.find (s.ctx (s.team g.team).ctx).held g.facet).isSome)

/-- The tick in which something can happen next: the next, while a group waits for a cycle in which it can issue, a step waits for its
turn or the cycles of a stop are counted, else that of the next step in flight. -/
def State.nextTick (s : State) : Nat :=
  let later := (s.agenda.map dueTick).filter (fun x => Nat.blt s.now x)
  let waits := !s.due.isEmpty || (s.heldGroups.any (fun g => !(s.part (s.team g.team).part).pmsel.isEmpty)) || s.groups.any (fun x => s.ready { x.2 with wake := 0 })
  match later with
  | [] => s.now + 1
  | a :: r => if waits then s.now + 1 else r.foldl min a

/-- A team's barrier words at the end of a cycle stand for the reads of the next (R294). -/
def State.keepBars (s : State) (x : Nat × Team) : Nat × Team :=
  if x.2.kernel.barriers = 0 || x.2.st = .saved then x else (x.1, { x.2 with barWas := s.barWords x.1 })

/-- The thread of a partition's firmware processor that issues next: the next ready one after that which issued last, where one is. A thread is ready
while its slot's queue does not wait (R401). -/
def State.threadReady (s : State) (p t : Nat) : Bool :=
  match (s.part p).slots.getD t 0 with | 0 => false | q + 1 => (s.queue p q).st != 2
def State.nextThread (s : State) (p : Nat) : Nat :=
  let n := (s.part p).thread
  (((List.range 32).map (fun i => (n + 1 + i) % 32)).find? (s.threadReady p)).getD n

/-- A cycle is over, which each stopped group counts (R442): the tick's second cycle begins, or a later tick (R427). The firmware processor has issued
an instruction of its next thread: how long its cycle lasts the spec does not say, and what its program does comes as the writes of firmware (R401;
DESIGN CHOICE, log entry 47). -/
def State.nextCycle (s0 : State) : State :=
  let s : State := { s0 with
    teams := s0.teams.map s0.keepBars
    parts := s0.parts.map (fun (x : Nat × Part) => (x.1, { x.2 with thread := s0.nextThread x.1 })) }
  let t := (s.heldGroups.filter s.inRound).foldl (fun s g => s.count g.team 0x17 1) s
  if s.round = 0 && s.twice then { t with round := 1, turn := 0, verdict := .held }
  else { t with now := s.nextTick, round := 0, turn := 0, verdict := .held }

/-- A list from one of its places on, then what stood before it. -/
def turned (k : Nat) : List (Nat × When × Ev) → List (Nat × When × Ev)
  | [] => []
  | x :: r => let n := k % (r.length + 1); (x :: r).drop n ++ (x :: r).take n

/-- The next step of the device: the rest of a set whose memory word has cleared, then the steps in flight that are due, those tied to a tick
first, in each router in the order of its round, and the others in free order; then the faults at boundaries where nothing issues, and the
sub-cores in turn; then time passes (R34, R50, R113, R115; log entry 3). -/
def advance (s : State) : Host.Outcome State Fault Refusal :=
  match s.rest with
  | some id => runRest id s
  | none =>
    let due := s.due
    match takeEvents s (s.arbitrate (earliest (due.filter (fun x => rankOf x.2.1 x.2.2 != freeRank)))) with
    | some o => o
    | none =>
      let evs := due.filter (fun x => rankOf x.2.1 x.2.2 == freeRank)
      match takeEvents s.tick (turned (Config.schedule s.ticket) evs) with
      | some o => o
      | none =>
        match boundaryFaults s with
        | some o => o
        | none =>
          match trySubcores s.subcores s with
          | (_, some o) => o
          | (t, none) => .next t.nextCycle

end Sys2Proof.Machine
end

