-- ==== Sys2Proof/Machine/Place.lean ====
section
/-! DEFINITION. One instruction placed where the device fetches next: a team of one group on core 0 of partition 0, its page
table and access-table entry, and a packet at its code base. It stands for the launch that places a kernel (R57, R58, R400;
log entry 5). -/

namespace Sys2Proof.Machine

/-- The code base, the root table and its second level of the placed context. -/
def placeBase : Nat := 131072
def placeRoot : Nat := 65536
def placeTable : Nat := 81920

/-- The group that runs the placed packet (R58). -/
def placeGroup : Group :=
  { Group.zero with
    base := BitVec.ofNat 64 placeBase, v := dispatchV 64 0, s := dispatchS 64 [], em := BitVec.allOnes 32,
    pos := { pa := BitVec.ofNat 64 placeBase, w := 0 }, icount := laneIds.map (fun _ => 0), role := 1, retired := false }

/-- Its context record, its team and its context. -/
def placeRec : CtxRec := { CtxRec.zero with ptroot := placeRoot, valid := true }
def placeTeam : Team :=
  { Team.zero with groups := [0], st := .running, crec := placeRec, kernel := { Kernel.zero with codebase := BitVec.ofNat 64 placeBase, cgrp := 1 } }
def placeCtx : Ctx :=
  { Ctx.zero with live := true, crec := placeRec }

/-- Memory with the page table of a first gigabyte that all may use, and the packet (R167, R409, R410). -/
def placeMem (m : Memory) (w : Nat) : Memory :=
  let m1 := Memory.writeN (Memory.writeN m placeRoot (placeTable + 1) 8) placeTable 31 8
  Memory.writeN m1 placeBase (w % 79228162514264337593543950336) 12

/-- The state whose next step fetches and runs the words of `w`, the first in its low bits. It stands at a switch point, where every clock
starts a cycle (R427). -/
def State.placeWord (s : State) (w : Nat) : State :=
  { s with
    now := s.now / Config.switchGap * Config.switchGap
    round := 0
    turn := 0
    agenda := []
    rest := none
    cur := 0
    groups := [(0, placeGroup)]
    teams := SMap.set s.teams 0 placeTeam
    ctxs := SMap.set s.ctxs 0 placeCtx
    tlb := []
    icache := []
    access := SMap.set s.access (sliceOf placeBase * 1024) { lim := 16777215, base := 0, a := true, w := true, r := true, v := true }
    mem := placeMem s.mem w }

end Sys2Proof.Machine
end

