-- ==== Sys2Proof/Machine/Step.lean ====
section
/-! DEFINITION. One step of the device, and the placing of an instruction where the next step fetches it. -/

namespace Sys2Proof.Machine

/-- One step: a step in flight is taken, or a set issues, or time passes. -/
def step (s : State) : Host.Outcome State Fault Refusal := advance s

/-- The state with an instruction placed where the next step fetches; bits above `nbits` are 0. -/
def State.withFetchWord (s : State) (_nbits w : Nat) : State := s.placeWord w

end Sys2Proof.Machine
end

