-- ==== Sys2Proof/Safety.lean ====
section
/-! DEFINITION. What counts as a safe run: no step of it stops the machine, and memory keeps its canonical form. -/

namespace Sys2Proof.Machine

/-- A step that answers a next state. -/
def Goes (s : State) : Prop := ∃ t, step s = .next t

/-- The memory of a state is in its canonical form. -/
def MemInv (s : State) : Prop := Memory.wf s.mem = true

/-- The states that a run of `n` steps may leave. -/
def Reaches : Nat → State → State → Prop
  | 0, s, t => t = s
  | n + 1, s, t => ∃ u, step s = .next u ∧ Reaches n u t

/-- A safe run: each of its states goes on. -/
def SafeFrom (s : State) : Prop := ∀ n t, Reaches n s t → Goes t

end Sys2Proof.Machine
end

