-- ==== Sys2Proof/Certificates/Slice0/Claims.lean ====
section
/-! DEFINITION. The terms that the statements share: when a word may issue, what it leaves unchanged, and the values that the
tables of the spec give, written with the operations of plain bit vectors and not with the model's own. -/

namespace Sys2Proof.Claims

open Sys2Proof.Machine

/-! ### When a word may issue -/

/-- The group whose word executes has not retired, and the word issues, as one whose effect does not come apart from its issue (R31, R333). -/
def Live (s : State) : Prop := s.g.retired = false ∧ s.issue.phase = .whole

/-- The word's set has no other word whose effect has come first: the group stands as it stood before the set (R32). -/
def Alone (s : State) : Prop := s.src = s.g

/-- `k` registers of a file from `n`: aligned, inside the budget, full, and none in error (R17, R56, R62, R336). -/
def RegOk (g : Group) (f : RegFile) (k n : Nat) : Prop :=
  n % k = 0 ∧ n + k ≤ g.budget f ∧ ∀ i, i < k → g.isFull f (n + i) = true ∧ g.regErr f (n + i) = none

/-- Scalars and vectors that a word may name. -/
def SOk (s : State) (n : Nat) : Prop := RegOk s.src .s 1 n
def SPairOk (s : State) (n : Nat) : Prop := RegOk s.src .s 2 n
def VOk (s : State) (n : Nat) : Prop := RegOk s.src .v 1 n
def VPairOk (s : State) (n : Nat) : Prop := RegOk s.src .v 2 n

/-- An operand of the file that U selects (R184). -/
def UOk (u : Bool) (k : Nat) (s : State) (n : Nat) : Prop := RegOk s.src (if u then .s else .v) k n

/-- A vector that an integer word reads carries RAW or I32 (R69). -/
def IntTagged (s : State) (n : Nat) : Prop := s.src.tag n = .raw ∨ s.src.tag n = .i32

/-- A vector in a float format (R226). -/
def FloatTagged (s : State) (n : Nat) : Prop := s.src.tag n = .fp32 ∨ s.src.tag n = .bf16x2 ∨ s.src.tag n = .fp16x2

/-! ### What a word leaves unchanged -/

/-- A step of the energy unit's and the counters' own: a charge on its way, or an event on its way to a counter. -/
def isAccounting : Ev → Bool
  | .chargeArrival _ => true
  | .counterEvent .. => true
  | _ => false

/-- A context without the charges that are on their way. -/
def bare (c : Ctx) : Ctx := { c with arriving := [], charged := [] }

/-- The steps in flight that are not accounting. -/
def work (s : State) : List (When × Ev) := s.agenda.filter (fun x => !isAccounting x.2)

/-- The frame of a word: `t` is `u` but for the group that issued, the charge on its way, the events on their way to counters, and the
verdict. Where `u` is the state before the word, nothing else has changed: every byte of memory reads as before, every other
group, every context's energy record, every queue, segment and table. -/
structure Frame (s u t : State) : Prop where
  rest   : { t with groups := u.groups, ctxs := u.ctxs, agenda := u.agenda, verdict := u.verdict } = u
  mem    : ∀ a, Memory.read t.mem a = Memory.read u.mem a
  groups : ∀ i, i ≠ s.cur → SMap.find t.groups i = SMap.find u.groups i
  ctxs   : ∀ c, (SMap.find t.ctxs c).map bare = (SMap.find u.ctxs c).map bare
  work   : work t = work u
  agenda : ∀ x, x ∈ s.agenda → x ∈ t.agenda

/-- The word answers a next state with a verdict, in which its group is `g` and the rest is `u`. -/
def Does (i : Instr) (s u : State) (v : Verdict) (g : Group) : Prop :=
  ∃ t, exec i s = .next t ∧ t.verdict = v ∧ t.g = g ∧ Frame s u t

/-- The word takes effect and only its group changes. -/
def Gives (i : Instr) (s : State) (g : Group) : Prop := Does i s s .issued g

/-- The state with the team of the issuing group marked dirty (R347). -/
def dirtied (s : State) : State := { s with teams := SMap.modify s.teams s.g.team (fun t => { t with dirty := true }) }

/-- The state with one more step in flight. -/
def posted (s : State) (dt : Nat) (e : Ev) : State := { s with agenda := s.agenda ++ [({ tick := s.now + dt, cyc := none }, e)] }

/-- The state with one more step in flight, for cycle `n` of a clock. -/
def postedAt (s : State) (k : Clock) (n : Nat) (e : Ev) : State :=
  { s with agenda := s.agenda ++ [({ tick := s.tickOf k n, cyc := some (k, n) }, e)] }

/-- The state with the end of a barrier's phase looked at, at the end of this cycle of its team's core (R296). -/
def phaseDue (s : State) (t bar : Nat) : State :=
  postedAt s (s.clockOf (s.team t).cluster) (s.cycle (s.clockOf (s.team t).cluster) + 1) (.barrierPhaseComplete t bar)

/-! ### Values of R197, R199, R202 and R227, on plain bit vectors -/

/-- The uniform words of two sources, with the value that R197 gives of them. -/
def uniTable (d a b : Nat) (fa fb : Bool) : List (Instr × (Word → Word → Word)) :=
  [(.saddS d a b fa fb, fun x y => x + y), (.saddZ d a b fa fb, fun x y => x + y),
   (.ssubS d a b fa fb, fun x y => x - y), (.ssubZ d a b fa fb, fun x y => x - y),
   (.smulS d a b fa fb, fun x y => x * y), (.smulZ d a b fa fb, fun x y => x * y),
   (.smulhS d a b fa fb, fun x y => BitVec.ofInt 32 (x.toInt * y.toInt / 4294967296)),
   (.smulhZ d a b fa fb, fun x y => BitVec.ofNat 32 (x.toNat * y.toNat / 4294967296)),
   (.sdivS d a b fa fb, fun x y => if y = 0 then BitVec.allOnes 32 else x.sdiv y),
   (.sdivZ d a b fa fb, fun x y => if y = 0 then BitVec.allOnes 32 else x / y),
   (.sremS d a b fa fb, fun x y => if y = 0 then x else x.srem y),
   (.sremZ d a b fa fb, fun x y => if y = 0 then x else x % y),
   (.sand d a b fa fb, fun x y => x &&& y), (.sor d a b fa fb, fun x y => x ||| y),
   (.sxor d a b fa fb, fun x y => x ^^^ y), (.sandn d a b fa fb, fun x y => x &&& ~~~y),
   (.sshl d a b fa fb, fun x y => x <<< (y.toNat % 256)), (.sshr d a b fa fb, fun x y => x >>> (y.toNat % 256)),
   (.ssra d a b fa fb, fun x y => x.sshiftRight (y.toNat % 256)),
   (.srot d a b fa fb, fun x y => x.rotateLeft (y.toNat % 256)),
   (.sminS d a b fa fb, fun x y => if x.toInt ≤ y.toInt then x else y),
   (.sminZ d a b fa fb, fun x y => if x.toNat ≤ y.toNat then x else y),
   (.smaxS d a b fa fb, fun x y => if x.toInt ≤ y.toInt then y else x),
   (.smaxZ d a b fa fb, fun x y => if x.toNat ≤ y.toNat then y else x)]

/-- The uniform words of one source, immediate and constant-shift forms among them (R197, R200, R201). -/
def uniUnTable (d a : Nat) (fa : Bool) (k : Nat) : List (Instr × (Word → Word)) :=
  [(.spopc d a fa, fun x => BitVec.ofNat 32 ((List.range 32).filter x.getLsbD).length),
   (.sclz d a fa, fun x => x.clz), (.sctz d a fa, fun x => x.ctz), (.sbrev d a fa, fun x => x.reverse),
   (.smov d a fa, fun x => x), (.saddSImm d a fa k, fun x => x + (BitVec.ofNat 12 k).signExtend 32),
   (.sshlImm d a fa k, fun x => x <<< (k % 256)), (.sshrImm d a fa k, fun x => x >>> (k % 256)),
   (.ssraImm d a fa k, fun x => x.sshiftRight (k % 256)), (.srotImm d a fa k, fun x => x.rotateLeft (k % 32))]

/-- The relation of a condition code (R181). -/
def holdsCc (cc : Nat) (x y : Word) : Prop :=
  (cc = 0 ∧ x = y) ∨ (cc = 1 ∧ x ≠ y) ∨ (cc = 2 ∧ x.toInt < y.toInt) ∨ (cc = 3 ∧ x.toInt ≤ y.toInt)
    ∨ (cc = 4 ∧ y.toInt < x.toInt) ∨ (cc = 5 ∧ y.toInt ≤ x.toInt) ∨ (cc = 6 ∧ x.toNat < y.toNat)
    ∨ (cc = 7 ∧ x.toNat ≤ y.toNat) ∨ (cc = 8 ∧ y.toNat < x.toNat) ∨ (cc = 9 ∧ y.toNat ≤ x.toNat)

/-- The vector words of two integer sources with the value of a lane (R227, R235, R237). -/
def vecTable (d a b : Nat) (fa fb : Bool) : List (Instr × (Word → Word → Word)) :=
  [(.vadd d a b fa fb, fun x y => x + y), (.vsub d a b fa fb, fun x y => x - y), (.vmul d a b fa fb, fun x y => x * y),
   (.vmulhS d a b fa fb, fun x y => BitVec.ofInt 32 (x.toInt * y.toInt / 4294967296)),
   (.vmulhZ d a b fa fb, fun x y => BitVec.ofNat 32 (x.toNat * y.toNat / 4294967296)),
   (.vand d a b fa fb, fun x y => x &&& y), (.vor d a b fa fb, fun x y => x ||| y), (.vxor d a b fa fb, fun x y => x ^^^ y),
   (.vandn d a b fa fb, fun x y => x &&& ~~~y), (.vshl d a b fa fb, fun x y => x <<< (y.toNat % 256)),
   (.vshr d a b fa fb, fun x y => x >>> (y.toNat % 256)), (.vsra d a b fa fb, fun x y => x.sshiftRight (y.toNat % 256)),
   (.vminS d a b fa fb, fun x y => if x.toInt ≤ y.toInt then x else y),
   (.vminZ d a b fa fb, fun x y => if x.toNat ≤ y.toNat then x else y),
   (.vmaxS d a b fa fb, fun x y => if x.toInt ≤ y.toInt then y else x),
   (.vmaxZ d a b fa fb, fun x y => if x.toNat ≤ y.toNat then y else x),
   (.vpackB16 d a b fa fb, fun x y => y.extractLsb' 0 16 ++ x.extractLsb' 0 16),
   (.vpackB8 d a b fa fb, fun x y => y.extractLsb' 16 8 ++ y.extractLsb' 0 8 ++ x.extractLsb' 16 8 ++ x.extractLsb' 0 8)]

/-- The vector words of one integer source with the value of a lane (R227, R231, R232, R234). -/
def vecUnTable (d a : Nat) (fa : Bool) (k : Nat) : List (Instr × (Word → Word)) :=
  [(.vabs d a fa, fun x => if x.toInt < 0 then 0 - x else x),
   (.vpopc d a fa, fun x => BitVec.ofNat 32 ((List.range 32).filter x.getLsbD).length), (.vclz d a fa, fun x => x.clz),
   (.vbrev d a fa, fun x => x.reverse), (.vmov d a fa, fun x => x),
   (.vaddImm d a fa k, fun x => x + (BitVec.ofNat 12 k).signExtend 32), (.vshlImm d a fa k, fun x => x <<< (k % 256)),
   (.vshrImm d a fa k, fun x => x >>> (k % 256)), (.vsraImm d a fa k, fun x => x.sshiftRight (k % 256)),
   (.vsatS8 d a fa, fun x => BitVec.ofInt 32 (if x.toInt < -128 then -128 else if 127 < x.toInt then 127 else x.toInt)),
   (.vsatZ8 d a fa, fun x => BitVec.ofInt 32 (if x.toInt < 0 then 0 else if 255 < x.toInt then 255 else x.toInt)),
   (.vsatS16 d a fa, fun x => BitVec.ofInt 32 (if x.toInt < -32768 then -32768 else if 32767 < x.toInt then 32767 else x.toInt)),
   (.vsatZ16 d a fa, fun x => BitVec.ofInt 32 (if x.toInt < 0 then 0 else if 65535 < x.toInt then 65535 else x.toInt))]

/-- The group after a lane word that writes vector `d` in its active lanes with a tag; with em = 0 it is as it was (R35, R55, R223). -/
def laneGroup (s : State) (d : Nat) (t : Tag) (f : Nat → Word) : Group := if s.src.em = 0 then s.g else s.g.wrV d t s.src.em f

/-- The same of two vectors, the low one first. -/
def laneGroup2 (s : State) (d : Nat) (t : Tag) (f h : Nat → Word) : Group :=
  if s.src.em = 0 then s.g else (s.g.wrV d t s.src.em f).wrV (d + 1) t s.src.em h

/-- The group after a lane word that writes scalar `d` (R35, R224). -/
def laneScalar (s : State) (d : Nat) (x : Word) : Group := if s.src.em = 0 then s.g else s.g.wrS d x

/-! ### Signatures of a replay (R451) -/

/-- A number folded into a signature. -/
def folded (sig z : Word) : Word := sig.rotateLeft 5 ^^^ z

/-- The word that stands for a position of a group's code. -/
def posWord (g : Group) (p : Pos) : Word := BitVec.ofNat 32 (4 * ((p.pa - g.base).toNat / 12) + p.w)

/-- The group after a control word: in a group of a replay the position of the set that it issues next is to be folded in. -/
def signedAt (s : State) (g : Group) : Group := if s.inReplay s.g.team then { g with sigs := g.sigs ++ [none] } else g

/-- The same for a word that changes the execution mask, which is folded in after the position. -/
def signedEm (s : State) (g : Group) : Group := if s.inReplay s.g.team then { g with sigs := g.sigs ++ [some g.em] } else g

/-- The group as its next set issues: what awaited that set is folded in, with the position where it stands (R451). -/
def signedNow (g : Group) : Group :=
  let at' := posWord g g.pos
  { g with sigs := [], sig := g.sigs.foldl (fun a e => match e with
    | some m => folded (folded a at') m
    | none => folded a at') g.sig }

/-- The packet address that lies a signed count of `n` bits of packets from one (R177). -/
def packetAt (pa : DWord) (n v : Nat) : DWord := pa + 12 * (BitVec.ofNat n v).signExtend 64

/-- Word 0 of a packet. -/
def atPacket (pa : DWord) : Pos := { pa := pa, w := 0 }

/-! ### Memory words at issue (R109, R116, R252, R257 to R276) -/

/-- A memory word as the tables of the spec give it: its kind, whether it is uniform, the registers it names besides its address and policy
(file, count, first), the tags its vector operands may carry, the ORD values it accepts, whether it is a read-modify-write or may merge, its
destinations and status, the data and comparand of a lane, and the tag its destination takes. -/
structure MemRow where
  i     : Instr
  kind  : MemKind
  unif  : Bool := false
  more  : List (RegFile × Nat × Nat) := []
  tags  : List (Nat × List Tag) := []
  ords  : List Nat := [0, 1, 2, 3]
  bytes : Nat := 4
  rmw   : Bool := true
  mrg   : Bool := false
  store : List Nat := []
  dst   : List (RegFile × Nat) := []
  stat  : Option (RegFile × Nat) := none
  data  : Group → Nat → DWord := fun _ _ => 0
  cmp   : Group → Nat → Word := fun _ _ => 0
  tag   : Word → Tag := fun _ => .i32

/-- The fields of a policy operand (R109). -/
def fmtField (p : Word) : Nat := (p.extractLsb' 12 4).toNat
def ordField (p : Word) : Nat := (p.extractLsb' 8 2).toNat

/-- The tag of a load's policy (R67). -/
def loadTag (p : Word) : Tag := (tagOf? (fmtField p)).getD .raw

/-- A register of the file that U selects, and its value in a lane. -/
def uFile (u : Bool) : RegFile := if u then .s else .v
def uWord (u : Bool) (x : Nat) (g : Group) (l : Nat) : Word := if u then g.sVal x else g.vLane x l
def uPair (u : Bool) (x : Nat) (g : Group) (l : Nat) : DWord := if u then g.sPair x else g.vPair x l

/-- Loads and stores (R257 to R260). -/
def loadRows (d base idx pol : Nat) (fx merge : Bool) : List MemRow :=
  let ld := fun (i : Instr) (n : Nat) (sx : Bool) =>
    ({ i := i, kind := .ld n sx, more := [(.v, 1, d)], ords := [0, 1], bytes := n, rmw := false, dst := [(.v, d)], tag := loadTag } : MemRow)
  [ld (.ldB32 d base idx pol fx) 4 false, ld (.ldZ8 d base idx pol fx) 1 false, ld (.ldS8 d base idx pol fx) 1 true,
   ld (.ldZ16 d base idx pol fx) 2 false, ld (.ldS16 d base idx pol fx) 2 true,
   { i := .ldB64 d base idx pol fx, kind := .ld 8 false, more := [(.v, 2, d)], ords := [0, 1], bytes := 8, rmw := false,
     dst := [(.v, d), (.v, d + 1)], tag := loadTag },
   { i := .ldmcB32 d base idx pol fx, kind := .ldmc merge, more := [(.v, 1, d)], ords := [0, 1], rmw := false, mrg := true,
     dst := [(.v, d)], tag := loadTag },
   { i := .ldsB32 d base idx pol fx, kind := .ld 4 false, unif := true, more := [(.s, 1, d)], ords := [0, 1], rmw := false,
     dst := [(.s, d)] },
   { i := .ldsB64 d base idx pol fx, kind := .ld 8 false, unif := true, more := [(.s, 2, d)], ords := [0, 1], bytes := 8,
     rmw := false, dst := [(.s, d), (.s, d + 1)] }]

def storeRows (d base idx pol : Nat) (fx : Bool) : List MemRow :=
  let st := fun (i : Instr) (n : Nat) =>
    ({ i := i, kind := .st n, more := [(.v, 1, d)], ords := [0, 2], bytes := n, rmw := false, store := [d],
       data := fun g l => (g.vLane d l).setWidth 64 } : MemRow)
  [st (.stB8 d base idx pol fx) 1, st (.stB16 d base idx pol fx) 2, st (.stB32 d base idx pol fx) 4,
   { i := .stB64 d base idx pol fx, kind := .st 8, more := [(.v, 2, d)], ords := [0, 2], bytes := 8, rmw := false,
     store := [d, d + 1], data := fun g l => g.vPair d l },
   { i := .stsB32 d base idx pol fx, kind := .st 4, unif := true, more := [(.s, 1, d)], ords := [0, 2], rmw := false,
     data := fun g _ => (g.sVal d).setWidth 64 },
   { i := .stsB64 d base idx pol fx, kind := .st 8, unif := true, more := [(.s, 2, d)], ords := [0, 2], bytes := 8, rmw := false,
     data := fun g _ => g.sPair d }]

/-- Atomics and compensated pairs (R263 to R267). -/
def atomicRows (d base idx pol x : Nat) (fx fy u : Bool) : List MemRow :=
  let at1 := fun (i : Instr) (o : AtomOp) =>
    ({ i := i, kind := .atom o, unif := u, more := [(uFile u, 1, d), (uFile u, 1, x)], tags := [(x, [.raw, .i32])],
       dst := [(uFile u, d)], data := fun g l => (uWord u x g l).setWidth 64 } : MemRow)
  let fat := fun (i : Instr) (o : FAtomOp) =>
    ({ i := i, kind := .fatom o, unif := u, more := [(uFile u, 1, d), (uFile u, 1, x)], tags := [(x, [.fp32])],
       dst := [(uFile u, d)], data := fun g l => (uWord u x g l).setWidth 64, tag := fun _ => .fp32 } : MemRow)
  [at1 (.atomAdd d base idx pol fx x fy u) .add, at1 (.atomSub d base idx pol fx x fy u) .sub,
   at1 (.atomAnd d base idx pol fx x fy u) .and, at1 (.atomOr d base idx pol fx x fy u) .or,
   at1 (.atomXor d base idx pol fx x fy u) .xor, at1 (.atomMins d base idx pol fx x fy u) .mins,
   at1 (.atomMaxs d base idx pol fx x fy u) .maxs, at1 (.atomMinz d base idx pol fx x fy u) .minz,
   at1 (.atomMaxz d base idx pol fx x fy u) .maxz, at1 (.atomExch d base idx pol fx x fy u) .exch,
   { i := .atomCas d base idx pol fx x fy u, kind := .atom .cas, unif := u, more := [(uFile u, 1, d), (uFile u, 2, x)],
     tags := [(x, [.raw, .i32]), (x + 1, [.raw, .i32])], dst := [(uFile u, d)],
     data := fun g l => (uWord u (x + 1) g l).setWidth 64, cmp := uWord u x },
   fat (.fatomAdd d base idx pol fx x fy u) .add, fat (.fatomMin d base idx pol fx x fy u) .min,
   fat (.fatomMax d base idx pol fx x fy u) .max,
   { i := .cadd base idx pol fx x fy u, kind := .cadd, unif := u, more := [(uFile u, 1, x)], tags := [(x, [.fp32])], bytes := 8,
     data := fun g l => (uWord u x g l).setWidth 64 },
   { i := .crd d base idx pol fx u, kind := .crd false, unif := u, more := [(uFile u, 1, d)], bytes := 8, rmw := false,
     dst := [(uFile u, d)], tag := fun _ => .fp32 },
   { i := .crdRst d base idx pol fx u, kind := .crd true, unif := u, more := [(uFile u, 1, d)], bytes := 8,
     dst := [(uFile u, d)], tag := fun _ => .fp32 }]

/-- Pool words, condition monitors, line locks and line hints (R261, R262, R270 to R276). -/
def syncRows (d base idx pol x cc : Nat) (fx fy u : Bool) : List MemRow :=
  [{ i := .qpush d base idx pol fx x fy u, kind := .qpush, unif := u, more := [(uFile u, 1, d), (uFile u, 2, x)], bytes := 64,
     stat := some (uFile u, d), data := uPair u x },
   { i := .qpop d base idx pol fx x u, kind := .qpop, unif := u, more := [(uFile u, 2, d), (uFile u, 1, x)], bytes := 64,
     dst := [(uFile u, d), (uFile u, d + 1)], stat := some (uFile u, x), tag := fun _ => .raw },
   { i := .waitc cc d base idx pol fx x fy u, kind := .waitc cc, unif := u, more := [(uFile u, 1, d), (uFile u, 1, x)],
     tags := [(x, [.raw, .i32])], ords := [0, 1], rmw := false, dst := [(uFile u, d)], cmp := uWord u x },
   { i := .lkl d base idx pol fx, kind := .lkl, more := [(.v, 1, d)], ords := [0, 1], bytes := 1, dst := [(.v, d)] },
   { i := .ulkl base idx pol fx, kind := .ulkl, ords := [0, 2], bytes := 1 },
   { i := .pref base idx pol fx, kind := .pref, ords := [0], bytes := 1, rmw := false },
   { i := .lflush base idx pol fx, kind := .lflush, ords := [0], bytes := 1, rmw := false }]

/-- The registers, tags and policy of a memory word as its rules ask, and no earlier word that holds it back (R69, R106, R109, R110, R121,
R252, R258). -/
structure MemReady (r : MemRow) (s : State) (base idx pol : Nat) : Prop where
  okLive   : Live s
  okBase   : SPairOk s base
  okPol    : SOk s pol
  okIdx    : UOk r.unif 1 s idx
  okIdxTag : r.unif = true ∨ IntTagged s idx
  okMore   : ∀ u, u ∈ r.more → RegOk s.src u.1 u.2.1 u.2.2
  okTags   : r.unif = true ∨ ∀ x, x ∈ r.tags → s.src.tag x.1 ∈ x.2
  okBit6   : (s.src.sVal pol).getLsbD 6 = false
  okFmt    : fmtField (s.src.sVal pol) < 11
  okOrd    : ordField (s.src.sVal pol) ∈ r.ords
  okMerge  : r.mrg = true ∨ (s.src.sVal pol).getLsbD 7 = false
  okData   : r.unif = true ∨ fmtField (s.src.sVal pol) = 0 ∨ ∀ n, n ∈ r.store → tagCode (s.src.tag n) = fmtField (s.src.sVal pol)
  okAddr   : r.unif = true → decodeFault (s.src.sPair base + (s.src.sVal idx).setWidth 64) r.bytes = none
  okWait   : s.memWait = false

/-- The lanes for which a word makes accesses, each with its address, data and comparand (R252). -/
def laneList (r : MemRow) (s : State) (base idx : Nat) : List (Nat × DWord × DWord × Word) :=
  if r.unif then [(0, s.src.sPair base + (s.src.sVal idx).setWidth 64, r.data s.src 0, r.cmp s.src 0)]
  else (lanesOf s.src.em).map (fun l => (l, s.src.sPair base + (s.src.vLane idx l).setWidth 64, r.data s.src l, r.cmp s.src l))

/-- The registers that a memory word writes, with the tag each takes (R67, R271). -/
def outs (r : MemRow) (t : Tag) : List ((RegFile × Nat) × Tag) := r.dst.map (fun x => (x, t)) ++ r.stat.toList.map (fun x => (x, .i32))

/-- The group with a word's registers empty until its answer (R62), and with 0 in every lane of them (R35). -/
def emptied (l : List ((RegFile × Nat) × Tag)) (g : Group) : Group :=
  l.foldl (fun g r => match r.1.1 with | .v => g.emptyV r.1.2 r.2 | .s => g.emptyS r.1.2) g
def zeroed (l : List ((RegFile × Nat) × Tag)) (g : Group) : Group :=
  l.foldl (fun g r => match r.1.1 with | .v => g.wrV r.1.2 r.2 (BitVec.allOnes 32) (fun _ => 0) | .s => g.wrS r.1.2 0) g

/-- Whether a memory word is a release (R116): its ORD says so, or it is a push. -/
def releases (r : MemRow) (p : Word) : Bool := p.getLsbD 9 || r.kind == .qpush

/-! ### Member-masked words (R44 to R46, R280 to R285) -/

/-- A member-masked word: what it names besides its source and its mask, the tags its source may carry, whether it writes a scalar, the
index values its lanes bring, and what it writes for a completed instance in each lane, with the tag. -/
structure MemberRow where
  i    : Instr
  sel  : Option Nat := none
  tags : Option (List Tag) := none
  sc   : Bool := false
  tag  : Option Tag := none
  out  : HeldInst → Nat → Word

/-- The value a member brought, and the members of an instance in ascending order. -/
def brought (h : HeldInst) (l : Nat) : Word := h.vals.getD l 0
def members (h : HeldInst) : List Nat := (List.range 32).filter h.mask.getLsbD

/-- The value that SHFL gives a lane whose source lane is `k`: its own where `k` is no member (R284). -/
def shuffled (h : HeldInst) (l : Nat) (k : Int) : Word :=
  if 0 ≤ k ∧ k < 32 ∧ h.mask.getLsbD k.toNat = true then brought h k.toNat else brought h l

/-- The combination of the members' values up to lane `top`, left to right (R285). -/
def combined (f : Word → Word → Word) (h : HeldInst) (top : Nat) : Word :=
  match ((members h).filter (fun k => decide (k ≤ top))).map (brought h) with
  | [] => 0
  | x :: r => r.foldl f x

/-- The same with a function of the whole list. -/
def gathered (f : List Word → Word) (h : HeldInst) (top : Nat) : Word :=
  f (((members h).filter (fun k => decide (k ≤ top))).map (brought h))

def voteRows (d a b : Nat) (fa : Bool) : List MemberRow :=
  [{ i := .voteAll d a b fa, sc := true, out := fun h _ => if ∀ k ∈ members h, brought h k ≠ 0 then 1 else 0 },
   { i := .voteAny d a b fa, sc := true, out := fun h _ => if ∃ k ∈ members h, brought h k ≠ 0 then 1 else 0 },
   { i := .voteBallot d a b fa, sc := true,
     out := fun h _ => BitVec.ofNat 32 ((members h).foldl (fun n k => if brought h k ≠ 0 then n + 2 ^ k else n) 0) }]

def shflRows (d a b sel delta : Nat) (fa fy : Bool) : List MemberRow :=
  [{ i := .shflIdx d a b fa sel fy, sel := some sel, out := fun h l => shuffled h l ((h.aux.getD l 0).toNat % 32 : Nat) },
   { i := .shflUp d a b fa delta, out := fun h l => shuffled h l (l - delta) },
   { i := .shflDown d a b fa delta, out := fun h l => shuffled h l (l + delta) },
   { i := .shflXor d a b fa delta, out := fun h l => shuffled h l ((l ^^^ delta : Nat) : Int) }]

def reduceRows (d a b : Nat) (fa : Bool) : List MemberRow :=
  let int := fun (i : Instr) (scan : Bool) (f : Word → Word → Word) =>
    ({ i := i, tags := some [.raw, .i32], tag := some .i32, out := fun h l => combined f h (if scan then l else 31) } : MemberRow)
  let flt := fun (i : Instr) (scan : Bool) (f : List Word → Word) =>
    ({ i := i, tags := some [.fp32], tag := some .fp32, out := fun h l => gathered f h (if scan then l else 31) } : MemberRow)
  let mins := fun (x y : Word) => if x.toInt ≤ y.toInt then x else y
  let maxs := fun (x y : Word) => if x.toInt ≤ y.toInt then y else x
  let minz := fun (x y : Word) => if x.toNat ≤ y.toNat then x else y
  let maxz := fun (x y : Word) => if x.toNat ≤ y.toNat then y else x
  [int (.gredAdd d a b fa) false (· + ·), int (.gredMins d a b fa) false mins, int (.gredMaxs d a b fa) false maxs,
   int (.gredMinz d a b fa) false minz, int (.gredMaxz d a b fa) false maxz, int (.gredAnd d a b fa) false (· &&& ·),
   int (.gredOr d a b fa) false (· ||| ·), int (.gredXor d a b fa) false (· ^^^ ·), flt (.gredFadd d a b fa) false faddAll,
   flt (.gredFmin d a b fa) false (fminAll false), flt (.gredFmax d a b fa) false (fminAll true),
   int (.gscanAdd d a b fa) true (· + ·), int (.gscanMins d a b fa) true mins, int (.gscanMaxs d a b fa) true maxs,
   int (.gscanMinz d a b fa) true minz, int (.gscanMaxz d a b fa) true maxz, int (.gscanAnd d a b fa) true (· &&& ·),
   int (.gscanOr d a b fa) true (· ||| ·), int (.gscanXor d a b fa) true (· ^^^ ·), flt (.gscanFadd d a b fa) true faddAll,
   flt (.gscanFmin d a b fa) true (fminAll false), flt (.gscanFmax d a b fa) true (fminAll true)]

/-- The registers and tags of a member-masked word as its rules ask. -/
structure MemberReady (r : MemberRow) (s : State) (d a b : Nat) : Prop where
  okLive : Live s
  okSrc  : VOk s a
  okMask : SOk s b
  okDst  : if r.sc then SOk s d else VOk s d
  okSel  : ∀ n, r.sel = some n → VOk s n ∧ IntTagged s n
  okTags : ∀ l, r.tags = some l → s.src.tag a ∈ l

/-- The arrival of the active lanes at the word's instance with the mask and values it names (R44, R45). -/
def arrives (s : State) (a b : Nat) (sel : Option Nat) : Arrival :=
  arrive s.src { pa := s.src.pos.pa, w := s.issue.w } (s.src.sVal b) (fun l => s.src.vLane a l)
    (fun l => match sel with | some n => s.src.vLane n l | none => 0)

/-- The active lanes are some, are the whole of member mask `k`, live, inside the innermost divergence and at one count, and nothing is held
(R45). -/
def Together (g : Group) (k : Word) : Prop :=
  g.em ≠ 0 ∧ k = g.em ∧ g.em &&& g.x = 0 ∧ g.em &&& ~~~g.within = 0 ∧ g.held = [] ∧
    ∀ l c, l < 32 → c < 32 → g.em.getLsbD l = true → g.em.getLsbD c = true → g.icnt l = g.icnt c

/-- The instance of the word that executes which the active lanes make up at once, with the values that they bring. -/
def allOf (s : State) (vals aux : Nat → Word) : HeldInst :=
  { pos := { pa := s.src.pos.pa, w := s.issue.w }, mask := s.src.em, arrived := s.src.em, count := s.src.icnt (lowLane s.src.em)
    vals := mergeLanes s.src.em vals [], aux := mergeLanes s.src.em aux [] }

/-! ### Engine words (R97, R110, R129, R301 to R314) -/

/-- A policy of an engine word: only a format, a class and a scope (R110). -/
def PlainPolicy (p : Word) : Prop := p.getLsbD 6 = false ∧ p.getLsbD 7 = false ∧ fmtField p < 11 ∧ ordField p = 0

/-- The lanes, policy and counter of an ACP as its rules ask (R301 to R304): addresses aligned and in a space that exists, no source
byte a destination byte, no live barrier word written. -/
def CopyOk (s : State) (pol z cmpl csc d : Nat) (ends : List (Nat × DWord × DWord)) : Prop :=
  PlainPolicy (s.src.sVal pol) ∧
  (∀ e, e ∈ ends → e.2.1.toNat % min z 64 = 0 ∧ e.2.2.toNat % min z 64 = 0 ∧ s.engineAddr e.2.1 z = none ∧ s.engineAddr e.2.2 z = none ∧
    (csc = 3 → adWin e.2.2 = true ∨ adSpace e.2.2 = 0)) ∧
  (∀ x, x ∈ ends → ∀ y, y ∈ ends → rangesMeet x.1 x.2.1 y.1 y.2.2 z = false) ∧
  (∀ r, r ∈ lockSide 0 s.src.team true (ends.map (fun e => (e.2.2, z))) → r.region = 1 → s.hitsLive s.src.team r.lo r.hi = false) ∧
  (cmpl = 2 → ends ≠ [] → acpCounter s (s.src.sPair d) = none)

/-- The operands of a memory matrix word: its policy, its base, the ends of its rows (R309, R311). -/
def RowsOk (p : Word) (base : DWord) (rows : List DWord) : Prop :=
  PlainPolicy p ∧ (rows ≠ [] → base.toNat % 64 = 0) ∧ ∀ x, x ∈ rows → mxAddrBad p x = false

/-- The descriptor and the tiles of an MMA or an MLOOP (R97, R308, R313, R314). -/
def StepsOk (s : State) (loop : Bool) (d a b n : Nat) : Prop :=
  let t := s.myTeam
  let ar := 2 ^ (n / 16384 % 4)
  let br := 2 ^ (n / 4096 % 4)
  let e := elems (t.trackTag a)
  n < 16777216 ∧ n / 8 % 512 = 0 ∧ (loop = false → n < 4096) ∧ a + ar ≤ t.kernel.tiles ∧ b + br ≤ t.kernel.tiles ∧ n % 8 < e ∧
  (∃ c, ∀ i, i < ar → ∀ k, k < br → stepKind (t.trackTag (a + i)) (t.trackTag (b + k)) t.trackMode = some (c, t.trackTag d)) ∧
  ∀ j, j ≤ n / 65536 % 256 → stepTile a e ar (n % 8) j ≠ d ∧ stepTile b e br (n % 8) j ≠ d

/-- The group with the running path blocked at the word. -/
def blockedOn (s : State) (on : BlockOn) (g : Group) : Group := { g with block := some { on := on, after := s.issue.next } }

/-- A group whose set is over: a blocked path whose block does not stand through its cycle gives way to the top entry, where that is a path
that may run (R42, R294). -/
def settled (g : Group) : Group :=
  match g.block, g.switchTo with
  | some _, some e => if g.lingers then g else g.switchPath e
  | _, _ => g

/-! ### Steps in flight -/

/-- A step comes about, and what it leaves satisfies `p`. -/
def Comes (i : Instr) (s : State) (p : State → Prop) : Prop := ∃ t, exec i s = .next t ∧ t.verdict = .issued ∧ p t

/-- A step in flight `dt` ticks from now, and one for cycle `n` of a clock. -/
def Sent (s t : State) (dt : Nat) (e : Ev) : Prop := (({ tick := s.now + dt, cyc := none } : When), e) ∈ t.agenda
def SentAt (s t : State) (k : Clock) (n : Nat) (e : Ev) : Prop := (({ tick := s.tickOf k n, cyc := some (k, n) } : When), e) ∈ t.agenda

/-- Every byte of memory reads as before. -/
def SameMem (s t : State) : Prop := ∀ a, Memory.read t.mem a = Memory.read s.mem a

/-- Every byte of memory but `n` from `a` reads as before. -/
def SameBut (a n : Nat) (s t : State) : Prop := ∀ x, x < a ∨ a + n ≤ x → Memory.read t.mem x = Memory.read s.mem x

/-- A byte of no line that is a copy of a peer's: such a copy may make way for another line, and what it held is then at its owner alone
(R112, R371). -/
def Native (s : State) (a : Nat) : Prop := ∀ l, SMap.find s.l2 (a / 64) = some l → l.whose = .home

/-- The memory `m` reads as the state's does, at every byte that is native; and a state's does. -/
def NativeMem (s : State) (m : Memory) : Prop := ∀ a, Native s a → Memory.read m a = Memory.read s.mem a
def SameOwn (s t : State) : Prop := NativeMem s t.mem

/-- No line of this device is another device's to write, and the L2 holds no line of another's (R371). -/
def Unshared (s : State) : Prop :=
  (∀ l d, SMap.find s.dir l = some d → d.st ≠ .modified) ∧ ∀ l x, (l, x) ∈ s.l2 → x.whose = .home

/-- A lane of an operation after a step. -/
def laneOf (s : State) (op lane : Nat) : Option LaneReq := (SMap.find s.ops op).bind (fun o => o.lane lane)

/-- A lane has been served with a result and a status. -/
def ServedWith (s : State) (op lane : Nat) (res : DWord) (stat : Word) : Prop :=
  ∃ r, laneOf s op lane = some r ∧ r.st = .done ∧ r.res = res ∧ r.stat = stat

/-- An aperture from which a request of `n` units is served at once (R158). -/
def Open (s : State) (target vf n : Nat) : Prop := n = 0 ∨ (s.aper target vf).deferred = [] ∧ n ≤ (s.aper target vf).left

/-- The units that a list asks of a target. -/
def unitsOn (l : List (Nat × Nat)) (k : Nat) : Nat := (l.filter (fun x => x.1 == k)).foldl (fun a x => a + x.2) 0

/-- Every aperture of a virtual function that a list asks has what it asks of it (R158). -/
def Admitted (s : State) (vf : Nat) (l : List (Nat × Nat)) : Prop := ∀ k, Open s k vf (unitsOn l k)

/-- A lane `r` of an operation that its unit serves now, as one of `o`'s: no earlier access of its path comes first, its apertures let it through
with the HBM4 fills it needs, its line is not bad, no other key slot or owner holds the line, and an absent line is stored under the key that the
access names (R115, R143, R158, R371, R417, R418, R470). -/
structure Servable (s : State) (op : Nat) (o : MemOp) (r : LaneReq) (fills : Nat) : Prop where
  found  : ∃ o', SMap.find s.ops op = some o' ∧ o'.lane r.lane = some r ∧ (o'.lanes.map (fun q => q.lane)).Nodup ∧
             o = { o' with lanes := o.lanes } ∧ ∀ q, q ∈ o.lanes → q ∈ o'.lanes
  local' : ∀ h, r.home ≠ .peer h
  order  : ∀ q, q ∈ o.mates r → s.orderWaits op o q = false
  port   : ∀ k, r.home = .slice k → Open s k (s.opVf o) 1 ∧ Open s (768 + k) (s.opVf o) fills
  clash  : s.barred o r = false
  good   : s.isBad (lineOf r.key) = false
  owner  : ∀ d, SMap.find s.dir (lineOf r.key) = some d → d.st ≠ .modified
  key    : s.absent r.key = true → SMap.getD s.crypt (lineOf r.key) [] = s.keyPair r.slot

/-- The page of a lane's write is free to be written (R448): no copy of it is under way and its team runs no replay. -/
structure Writable (s : State) (t key : Nat) : Prop where
  plain : s.replayOf t = none
  free  : s.pageBusy (key / 65536) = false

/-- The bytes at `n` bytes from a key are no barrier word's of the team whose scratchpad holds them (R291). -/
def OffBars (s : State) (r : LaneReq) : Prop := ∀ t, r.home = .scratch t → scratchKey t + 8 * (s.team t).kernel.barriers ≤ r.key

/-- A place that an engine touches and at which it reads and writes plain bytes: it is no peer's, no other device holds its line modified, its
line is stored under the key that the access names, and no barrier word of its team lies there (R291, R371, R417). -/
structure Plain (s : State) (t : Touch) : Prop where
  local' : ∀ h, t.home ≠ .peer h
  owner  : ∀ d, SMap.find s.dir (lineOf t.key) = some d → d.st ≠ .modified
  key    : SMap.getD s.crypt (lineOf t.key) [] = s.keyPair t.slot
  bars   : ∀ m, t.home = .scratch m → scratchKey m + 8 * (s.team m).kernel.barriers ≤ t.key

/-- The tables that walks for some addresses read are stored in clear, so that no fill for a walk changes what a byte reads (R411, R417). -/
def TablesClear (s : State) (c : CtxRec) (vas : List Nat) : Prop := ∀ va, va ∈ vas → ∀ a, a ∈ s.walkOf c va → SMap.getD s.crypt (lineOf a) [] = []

/-- The translations of an engine's accesses; and that a walk for one brings in no line that another meets under a key: all are at hand, or
none is of an encrypted page and the tables are stored in clear (R411, R417, R418). -/
def pagesOf (l : List Touch) : List (Nat × Nat × Nat × Bool) := l.filterMap (fun t => t.page.map (fun p => (t.va, p)))
def AtHand (s : State) (t : Nat) (l : List Touch) : Prop :=
  (∀ x, x ∈ l → ∀ p, x.page = some p → p.2.2 = true) ∨
    (∀ x, x ∈ l → x.slot = none) ∧ TablesClear s (s.team t).crec ((pagesOf l).map Prod.fst)

/-- The directory of a line's slice has room for an entry of it, so that no other goes (R371). -/
def DirRoom (s : State) (line : Nat) : Prop :=
  (s.dir.filter (fun y => sliceOf (64 * y.1) == sliceOf (64 * line) && y.1 != line)).length < 16384

/-- The new word of each atomic from the old word, the operand and the comparand (R264). -/
def atomTable : List (AtomOp × (Word → Word → Word → Word)) :=
  [(.add, fun m v _ => m + v), (.sub, fun m v _ => m - v), (.and, fun m v _ => m &&& v), (.or, fun m v _ => m ||| v),
   (.xor, fun m v _ => m ^^^ v), (.mins, fun m v _ => if m.toInt ≤ v.toInt then m else v),
   (.maxs, fun m v _ => if m.toInt ≤ v.toInt then v else m), (.minz, fun m v _ => if m.toNat ≤ v.toNat then m else v),
   (.maxz, fun m v _ => if m.toNat ≤ v.toNat then v else m), (.exch, fun _ v _ => v), (.cas, fun m v c => if m = c then v else m)]

/-- The 32 bits of memory at a key. -/
def memWord (s : State) (key : Nat) : Word := BitVec.ofNat 32 (Memory.readN s.mem key 4)

/-! ### What no word reaches -/

/-- What only the monitor and the device itself change stands as it stood: the registers that configure partitions, isolation, keys, energy and boot,
the queues, the fleet, the records of contexts and their accounts and buckets, and every byte below 2^64, which only the service of an access
writes (R7, R405, R407, R416, R417). -/
structure Sealed (s t : State) : Prop where
  boot    : t.boot = s.boot
  keys    : t.keys = s.keys
  access  : t.access = s.access
  apers   : t.apers = s.apers
  exports : t.exports = s.exports
  gens    : t.gens = s.gens
  weights : t.weights = s.weights
  scale   : t.scale = s.scale
  fleet   : t.fleet = s.fleet
  queues  : t.queues = s.queues
  msix    : t.msix = s.msix
  monlog  : t.monlog = s.monlog
  power   : ∀ cl, (t.cluster cl).power = (s.cluster cl).power
  parts   : ∀ p x, SMap.find s.parts p = some x → ∃ y, SMap.find t.parts p = some y ∧
              { y with replay := { y.replay with grid := x.replay.grid } } = x
  energy  : ∀ c x, SMap.find s.ctxs c = some x → ∃ y, SMap.find t.ctxs c = some y ∧ y.crec = x.crec ∧ y.acct = x.acct ∧
              y.level = x.level ∧ y.cap = x.cap ∧ y.stopd = x.stopd ∧ y.corr = x.corr ∧ y.fair = x.fair
  device  : ∀ a, a < 18446744073709551616 → Memory.read t.mem a = Memory.read s.mem a

end Sys2Proof.Claims
end

