-- ==== Sys2Proof/Certificates/Slice0/Obligations.lean ====
section
/-! DEFINITION. The statements for the provers. Each docstring names the rules of the spec that the statement formalises. -/

open Sys2Proof Sys2Proof.Machine Sys2Proof.Claims

/-- R197: a uniform word of two sources writes the tabled value of its sources to its scalar, and only that.
R197, R200, R201: a uniform word of one source, an immediate or a constant shift writes the tabled value.
R198: the words of two scalar pairs add and subtract modulo 2^64. -/
def Obligations.UniformResults : Prop :=
  (∀ (s : State) (d a b : Nat) (fa fb : Bool) (i : Instr) (f : Word → Word → Word), (i, f) ∈ uniTable d a b fa fb →
     Live s → SOk s a → SOk s b → SOk s d → Gives i s (s.g.wrS d (f (s.src.sVal a) (s.src.sVal b)))) ∧
  (∀ (s : State) (d a k : Nat) (fa : Bool) (i : Instr) (f : Word → Word), (i, f) ∈ uniUnTable d a fa k →
     Live s → SOk s a → SOk s d → Gives i s (s.g.wrS d (f (s.src.sVal a)))) ∧
  (∀ (s : State) (d a b : Nat) (fa fb : Bool), Live s → SPairOk s a → SPairOk s b → SPairOk s d →
     Gives (.sadd64 d a b fa fb) s (s.g.wrSPair d (s.src.sPair a + s.src.sPair b)) ∧
     Gives (.ssub64 d a b fa fb) s (s.g.wrSPair d (s.src.sPair a - s.src.sPair b)))

/-- R197 to R199, R203: SSEL keeps its destination where the selector is 0; SCMP writes 1 where the relation of its code holds and 0
where not; SLI writes a signed constant of 19 bits and SLIT one of 32.
R202: the field words take, extend and insert bits [POS + W1 : POS] where the field lies within the word; where it does not, the
word takes an illegal-operand fault. -/
def Obligations.UniformSelectCompareField : Prop :=
  (∀ (s : State) (d a b cc k : Nat) (fa fb : Bool), Live s → SOk s d →
     Gives (.sli d k) s (s.g.wrS d ((BitVec.ofNat 19 k).signExtend 32)) ∧
     Gives (.slit d k) s (s.g.wrS d (BitVec.ofNat 32 k)) ∧
     (SOk s a → SOk s b →
       Gives (.ssel d a b fa fb) s (s.g.wrS d (if s.src.sVal b = 0 then s.src.sVal d else s.src.sVal a)) ∧
       (cc < 10 → ∃ x, Gives (.scmp cc d a b fa fb) s (s.g.wrS d x) ∧
         (holdsCc cc (s.src.sVal a) (s.src.sVal b) → x = 1) ∧ (¬ holdsCc cc (s.src.sVal a) (s.src.sVal b) → x = 0)))) ∧
  (∀ (s : State) (d a w1 pos : Nat) (fa : Bool), Live s → SOk s a → SOk s d →
     (pos + w1 < 32 →
       Gives (.sbfeZ d a fa w1 pos) s (s.g.wrS d (((s.src.sVal a).extractLsb' pos (w1 + 1)).setWidth 32)) ∧
       Gives (.sbfeS d a fa w1 pos) s (s.g.wrS d (((s.src.sVal a).extractLsb' pos (w1 + 1)).signExtend 32)) ∧
       ∃ x : Word, Gives (.sbfi d a fa w1 pos) s (s.g.wrS d x) ∧ ∀ k, k < 32 →
         x.getLsbD k = if pos ≤ k ∧ k ≤ pos + w1 then (s.src.sVal a).getLsbD (k - pos) else (s.src.sVal d).getLsbD k) ∧
     (32 ≤ pos + w1 → ∀ i, i ∈ [Instr.sbfeZ d a fa w1 pos, .sbfeS d a fa w1 pos, .sbfi d a fa w1 pos] →
       exec i s = .next (s.issueFault (s.faultOf .illegalOperand))))

/-- R204, R206, R207: JMP transfers to the packet OFF away when the test of its COND holds, BRZ where its scalar is 0 and BRNZ where it is
not; otherwise the path falls through, and nothing else changes. -/
def Obligations.ConditionalTransfers : Prop :=
  ∀ (s : State) (cond d off : Nat), Live s →
    (cond < 5 →
      ((cond = 0 ∨ (cond = 1 ∧ s.src.em = 0) ∨ (cond = 2 ∧ s.src.em ≠ 0) ∨ (cond = 3 ∧ s.src.em = ~~~s.src.x)
          ∨ (cond = 4 ∧ s.src.em ≠ ~~~s.src.x)) →
        Does (.jmp cond off) s s .transferred
          (signedAt s (s.g.moveTo (atPacket (packetAt s.src.pos.pa 21 off))))) ∧
      (¬ (cond = 0 ∨ (cond = 1 ∧ s.src.em = 0) ∨ (cond = 2 ∧ s.src.em ≠ 0) ∨ (cond = 3 ∧ s.src.em = ~~~s.src.x)
          ∨ (cond = 4 ∧ s.src.em ≠ ~~~s.src.x)) →
        Does (.jmp cond off) s s .issued (signedAt s s.g))) ∧
    (SOk s d →
      (s.src.sVal d = 0 →
        Does (.brz d off) s s .transferred
          (signedAt s (s.g.moveTo (atPacket (packetAt s.src.pos.pa 19 off)))) ∧
        Does (.brnz d off) s s .issued (signedAt s s.g)) ∧
      (s.src.sVal d ≠ 0 →
        Does (.brz d off) s s .issued (signedAt s s.g) ∧
        Does (.brnz d off) s s .transferred
          (signedAt s (s.g.moveTo (atPacket (packetAt s.src.pos.pa 19 off))))))

/-- R208 to R210: CALL and CALLR leave the address of the next packet in their scalar pair and transfer; JMPR, CALLR and RET transfer to
the packet that a scalar pair names, which a word reads before it writes its link; a target that is no packet of the kernel is a
misalignment fault at that address. -/
def Obligations.CallsAndIndirectTransfers : Prop :=
  ∀ (s : State) (d a off : Nat) (fa : Bool), Live s →
    (SPairOk s d → Does (.call d off) s s .transferred
      (signedAt s ((s.g.wrSPair d (s.src.pos.pa + 12)).moveTo (atPacket (packetAt s.src.pos.pa 19 off))))) ∧
    (SPairOk s a →
      (s.src.base.toNat ≤ (s.src.sPair a).toNat ∧ ((s.src.sPair a).toNat - s.src.base.toNat) % 12 = 0 →
        Does (.jmpr a fa) s s .transferred (signedAt s (s.g.moveTo (atPacket (s.src.sPair a)))) ∧
        Does (.ret a fa) s s .transferred (signedAt s (s.g.moveTo (atPacket (s.src.sPair a)))) ∧
        (SPairOk s d → Does (.callr d a fa) s s .transferred
          (signedAt s ((s.g.wrSPair d (s.src.pos.pa + 12)).moveTo (atPacket (s.src.sPair a)))))) ∧
      (¬ (s.src.base.toNat ≤ (s.src.sPair a).toNat ∧ ((s.src.sPair a).toNat - s.src.base.toNat) % 12 = 0) →
        exec (.jmpr a fa) s = .next (s.issueFault (s.faultAt .misalignment 0 0 (some (s.src.sPair a)))) ∧
        exec (.ret a fa) s = .next (s.issueFault (s.faultAt .misalignment 0 0 (some (s.src.sPair a)))) ∧
        (SPairOk s d → exec (.callr d a fa) s = .next (s.issueFault (s.faultAt .misalignment 0 0 (some (s.src.sPair a)))))))

/-- R14, R173, R211, R212: EMRD reads the execution mask into a scalar; EMWR writes it with the exited lanes kept off; NOP changes
nothing.
R221, R222: LOOPB with a count of 0 or 1 writes 0 and falls through; with more it takes 1 off and goes to the first packet of its body,
and a group that holds no loop buffer takes one where its sub-core has one free. -/
def Obligations.MaskAndLoopWords : Prop :=
  (∀ (s : State) (d a : Nat) (fa : Bool), Live s →
     Gives .nop s s.g ∧ (SOk s d → Gives (.emrd d) s (s.g.wrS d s.src.em)) ∧
     (SOk s a → Gives (.emwr a fa) s (signedEm s { s.g with em := s.src.sVal a &&& ~~~s.src.x }))) ∧
  (∀ (s : State) (d n : Nat), Live s → Alone s → SOk s d →
     let first := s.g.pos.pa - 12 * BitVec.ofNat 64 n
     let down := s.g.wrS d (s.g.sVal d - 1)
     ((s.g.sVal d).toNat ≤ 1 → Does (.loopb d n) s s .issued (signedAt s (s.g.wrS d 0))) ∧
     (1 < (s.g.sVal d).toNat → s.g.loopBuf = none → s.loopFree s.g = true →
       Does (.loopb d n) s s .transferred
         (signedAt s ({ down with loopBuf := some { first := first, len := n + 1, kept := [], flush := false } }.moveTo (atPacket first)))) ∧
     (1 < (s.g.sVal d).toNat → (s.g.loopBuf ≠ none ∨ s.loopFree s.g = false) →
       Does (.loopb d n) s s .transferred (signedAt s (down.moveTo (atPacket first)))))

/-- R39, R213, R214: DIV pushes a join point with the mask as it was, pushes the lanes whose bit is 0 as a path at OTHER, and goes on with the
lanes whose bit is 1, each of the two under a name of its own, which the model gives to paths (log entry 30); where one of the two subsets is
empty it pushes the join point alone, and where the mask itself is empty it goes to the join point's packet. Where the stack lacks room for every
entry, DIV raises a reconvergence fault and leaves the stack, the mask and the position as they were. -/
def Obligations.DivergenceSplits : Prop :=
  ∀ (s : State) (d other joff : Nat), Live s → Alone s → SOk s d →
    let e := s.g.em
    let m := s.g.sVal d
    let joinAt := packetAt s.g.pos.pa 32 joff
    let otherAt := packetAt s.g.pos.pa 19 other
    let jp : StackEntry := { kind := .join, mask := e, pos := atPacket joinAt, block := none, path := s.g.path }
    let here := s.g.path ++ [2 * s.ticket]
    (e &&& m ≠ 0 → e &&& ~~~m ≠ 0 → s.g.stack.length ≤ 30 →
      let away : StackEntry :=
        { kind := .path, mask := e &&& ~~~m, pos := atPacket otherAt, block := none, path := s.g.path ++ [2 * s.ticket + 1] }
      Does (.div d other joff) s s.tick .transferred
        (signedEm s ({ s.g with stack := away :: jp :: s.g.stack, em := e &&& m, path := here }.moveTo (nextPacket s.g.pos)))) ∧
    (e &&& m ≠ 0 → e &&& ~~~m = 0 → s.g.stack.length ≤ 31 →
      Does (.div d other joff) s s.tick .transferred
        (signedEm s ({ s.g with stack := jp :: s.g.stack, em := e, path := here }.moveTo (nextPacket s.g.pos)))) ∧
    (e &&& m = 0 → e ≠ 0 → s.g.stack.length ≤ 31 →
      Does (.div d other joff) s s.tick .transferred
        (signedEm s ({ s.g with stack := jp :: s.g.stack, em := e, path := here }.moveTo (atPacket otherAt)))) ∧
    (e = 0 → s.g.stack.length ≤ 31 →
      Does (.div d other joff) s s.tick .transferred
        (signedEm s ({ s.g with stack := jp :: s.g.stack, em := 0, path := here }.moveTo (atPacket joinAt)))) ∧
    (32 < s.g.stack.length + (if e &&& m ≠ 0 ∧ e &&& ~~~m ≠ 0 then 2 else 1) →
      let t := s.issueFault (s.faultOf .reconvergence)
      exec (.div d other joff) s = .next t ∧ t.g.stack = s.g.stack ∧ t.g.em = e ∧ t.g.pos = s.g.pos)

/-- R40, R117, R215: JOIN pops the top entry: a path resumes with its own mask at its own packet; a join point restores its mask less the
lanes that have exited, goes on at the next packet, and holds back later memory words until the reconverged paths' accesses are done.
R40, R215: a JOIN on an empty stack, or at another packet than that of the join point on top, is an illegal operand and pops nothing. -/
def Obligations.JoinAndReconvergence : Prop :=
  (∀ (s : State) (top : StackEntry) (rest : List StackEntry), Live s → Alone s → s.g.stack = top :: rest →
     (top.kind = .path →
       Does .join s s .transferred
         (signedEm s ({ s.g with stack := rest, em := top.mask, block := top.block, path := top.path }.moveTo top.pos))) ∧
     (top.kind = .join → top.pos.pa = s.g.pos.pa →
       Does .join s s .transferred
         (signedEm s ({ s.g with stack := rest, em := top.mask &&& ~~~s.g.x, drain := (top.path, s.ticket) :: s.g.drain, path := top.path }.moveTo
             (nextPacket s.g.pos))))) ∧
  (∀ (s : State) (top : StackEntry) (rest : List StackEntry), Live s →
     (s.src.stack = [] ∨ (s.src.stack = top :: rest ∧ top.kind = .join ∧ top.pos.pa ≠ s.src.pos.pa)) →
       let t := s.issueFault (s.faultOf .illegalOperand)
       exec .join s = .next t ∧ t.g.stack = s.g.stack ∧ t.g.em = s.g.em)

/-- R14, R41, R216: EXIT retires its active lanes from every mask of the stack. Where lanes remain it pops the top entry (a join point gives
the packet after the JOIN that it names, which is the model's reading: log entry 45), or goes on at the next packet where there is none; where
none remains the group retires, and the team ends when its last group has. -/
def Obligations.ExitRetiresLanes : Prop :=
  ∀ (s : State), Live s → Alone s → s.inReplay s.g.team = false →
    (∀ h, h ∈ s.g.held → h.mask &&& s.g.em ≠ 0 → h.arrived = 0) →
    let out := s.g.em
    let left : StackEntry → StackEntry := fun k => { k with mask := k.mask &&& ~~~out }
    (s.g.x ||| out ≠ BitVec.allOnes 32 → s.g.stack = [] →
      Does .exit s s .transferred ({ s.g with x := s.g.x ||| out, em := 0 }.moveTo (nextPacket s.g.pos))) ∧
    (∀ top rest, s.g.x ||| out ≠ BitVec.allOnes 32 → s.g.stack = top :: rest → top.kind = .path →
      Does .exit s s .transferred
        ({ s.g with x := s.g.x ||| out, em := (left top).mask, stack := rest.map left, block := top.block, path := top.path }.moveTo
          top.pos)) ∧
    (∀ top rest, s.g.x ||| out ≠ BitVec.allOnes 32 → s.g.stack = top :: rest → top.kind = .join →
      Does .exit s s .transferred
        ({ s.g with
            x := s.g.x ||| out, em := (left top).mask &&& ~~~(s.g.x ||| out), stack := rest.map left
            drain := (top.path, s.ticket) :: s.g.drain, path := top.path }.moveTo (nextPacket top.pos))) ∧
    (s.g.x ||| out = BitVec.allOnes 32 →
      (∀ n, n < s.g.v.length → s.g.regErr .v n = none) → (∀ n, n < s.g.s.length → s.g.regErr .s n = none) →
      let last := ∀ j, j ∈ (s.team s.g.team).groups → j ≠ s.cur → (s.grp j).retired = true
      (last → Does .exit s (posted s 0 (.teamEnd s.g.team)) .transferred
        { s.g with x := BitVec.allOnes 32, em := 0, stack := s.g.stack.map left, retired := true, loopBuf := none }) ∧
      (¬ last → Does .exit s s .transferred
        { s.g with x := BitVec.allOnes 32, em := 0, stack := s.g.stack.map left, retired := true, loopBuf := none }))

/-- R47 to R49, R218 to R220: ITEMPUT appends the indices of the active lanes, in lane order, to the core's queue where they all fit and no set
that has issued keeps a place for its own; ITEMHEAD gives the lanes that its mask names, in ascending order, the team's oldest items, the lanes
left over exit, and every lane's instance count starts anew; the group goes on at the next packet, or at the given one where no lane is left. -/
def Obligations.RefillWords : Prop :=
  ∀ (s : State) (d a imm : Nat) (fa : Bool), Live s →
    (VOk s a → IntTagged s a → s.kept30 = false → (s.core s.g.coreId).items.length + countOf s.src.em ≤ 256 →
      Does (.itemput a fa) s
        (s.setCore s.g.coreId
          { s.core s.g.coreId with
            items := (s.core s.g.coreId).items ++ (lanesOf s.src.em).map (fun i => (s.src.team, s.src.vLane a i)) })
        .issued s.g) ∧
    (Alone s → SOk s a → VOk s d → s.g.stack = [] → s.g.em = ~~~s.g.x →
      let queue := (s.core s.g.coreId).items
      let req := (lanesOf s.g.em).filter (fun i => (s.g.sVal a).getLsbD i)
      let mine := (queue.filter (fun x => x.1 == s.g.team)).map Prod.snd
      let out := maskOf (fun i => (req.drop mine.length).contains i)
      let g1 := s.g.wrV d .i32 (maskOf (fun i => (req.take mine.length).contains i)) (fun i => SMap.getD (req.zip mine) i 0)
      let g2 : Group := { g1 with x := s.g.x ||| out, em := s.g.em &&& ~~~out, icount := [] }
      let p := if s.g.em &&& ~~~out = 0 then atPacket (packetAt s.g.pos.pa 12 imm) else nextPacket s.g.pos
      ∃ left, left.filter (fun x => x.1 != s.g.team) = queue.filter (fun x => x.1 != s.g.team) ∧
        (left.filter (fun x => x.1 == s.g.team)).map Prod.snd = mine.drop req.length ∧
        Does (.itemhead d a fa imm) s (s.setCore s.g.coreId { s.core s.g.coreId with items := left }) .transferred
          (signedEm s (g2.moveTo p)))

/-- R35, R55, R223, R227, R235: a vector word of two integer sources writes the tabled value in its active lanes and tags them I32; its other
lanes keep their values, and with no lane active nothing changes.
R227, R231, R232, R234: a vector word of one integer source, an immediate, a constant shift or a clamp writes the tabled value. -/
def Obligations.VectorIntegerResults : Prop :=
  (∀ (s : State) (d a b : Nat) (fa fb : Bool) (i : Instr) (f : Word → Word → Word), (i, f) ∈ vecTable d a b fa fb →
     Live s → VOk s a → VOk s b → VOk s d → IntTagged s a → IntTagged s b →
     Gives i s (laneGroup s d .i32 (fun l => f (s.src.vLane a l) (s.src.vLane b l)))) ∧
  (∀ (s : State) (d a k : Nat) (fa : Bool) (i : Instr) (f : Word → Word), (i, f) ∈ vecUnTable d a fa k →
     Live s → VOk s a → VOk s d → IntTagged s a → Gives i s (laneGroup s d .i32 (fun l => f (s.src.vLane a l))))

/-- R224, R229, R230, R238, R251: VSEL, VBCAST, VLANE, VCMP, VMAD and VTAG. -/
def Obligations.VectorSelectCompareMove : Prop :=
  ∀ (s : State) (d a b cc tag : Nat) (t : Tag) (fa fb : Bool), Live s →
    (SOk s a → VOk s d → Gives (.vbcast d a fa) s (laneGroup s d .i32 (fun _ => s.src.sVal a))) ∧
    (VOk s a → VOk s d → tagOf? tag = some t → Gives (.vtag tag d a fa) s (laneGroup s d t (fun l => s.src.vLane a l))) ∧
    (VOk s a → IntTagged s a →
      (SOk s b → VOk s d → IntTagged s d → Gives (.vsel d a b fa fb) s
        (laneGroup s d .i32 (fun l => if (s.src.sVal b).getLsbD l then s.src.vLane a l else s.src.vLane d l))) ∧
      (SOk s b → SOk s d → Gives (.vlane d a b fa fb) s (laneScalar s d (s.src.vLane a ((s.src.sVal b).toNat % 32)))) ∧
      (VOk s b → IntTagged s b →
        (SOk s d → cc < 10 → ∃ x : Word, Gives (.vcmp cc d a b fa fb) s (laneScalar s d x) ∧
          ∀ l, l < 32 → (x.getLsbD l = true ↔ s.src.em.getLsbD l = true ∧ holdsCc cc (s.src.vLane a l) (s.src.vLane b l))) ∧
        (VOk s d → IntTagged s d → Gives (.vmad d a b fa fb) s
          (laneGroup s d .i32 (fun l => s.src.vLane a l * s.src.vLane b l + s.src.vLane d l)))))

/-- R202, R233, R236, R237: the vector field words, VUNPACK and VPERMB.
R228, R250: VADDC and VSUBB write the low 32 bits of the sum, or the difference, with the carry that bit 0 of the pair's odd register
held, and the carry or borrow out to that register; VCLMUL writes one half of the carry-less product of two pairs. -/
def Obligations.VectorFieldsBytesPairs : Prop :=
  (∀ (s : State) (d a b w1 pos : Nat) (fa fb : Bool), Live s → VOk s a → IntTagged s a → VOk s d →
     (pos + w1 < 32 →
       Gives (.vbfeZ d a fa w1 pos) s (laneGroup s d .i32 (fun l => ((s.src.vLane a l).extractLsb' pos (w1 + 1)).setWidth 32)) ∧
       Gives (.vbfeS d a fa w1 pos) s (laneGroup s d .i32 (fun l => ((s.src.vLane a l).extractLsb' pos (w1 + 1)).signExtend 32)) ∧
       (IntTagged s d → ∃ x : Nat → Word, Gives (.vbfi d a fa w1 pos) s (laneGroup s d .i32 x) ∧ ∀ l k, k < 32 →
         (x l).getLsbD k = if pos ≤ k ∧ k ≤ pos + w1 then (s.src.vLane a l).getLsbD (k - pos) else (s.src.vLane d l).getLsbD k)) ∧
     (SOk s b →
       let q := 8 * ((s.src.sVal b).toNat % 4)
       let h := 16 * ((s.src.sVal b).toNat % 2)
       Gives (.vunpackZ8 d a b fa fb) s (laneGroup s d .i32 (fun l => ((s.src.vLane a l).extractLsb' q 8).setWidth 32)) ∧
       Gives (.vunpackS8 d a b fa fb) s (laneGroup s d .i32 (fun l => ((s.src.vLane a l).extractLsb' q 8).signExtend 32)) ∧
       Gives (.vunpackZ16 d a b fa fb) s (laneGroup s d .i32 (fun l => ((s.src.vLane a l).extractLsb' h 16).setWidth 32)) ∧
       Gives (.vunpackS16 d a b fa fb) s (laneGroup s d .i32 (fun l => ((s.src.vLane a l).extractLsb' h 16).signExtend 32))) ∧
     (VOk s b → IntTagged s b → ∃ x : Nat → Word, Gives (.vpermb d a b fa fb) s (laneGroup s d .i32 x) ∧ ∀ l k, k < 4 →
       (x l).extractLsb' (8 * k) 8 =
         (let c := ((s.src.vLane b l).extractLsb' (8 * k) 8).toNat
          if 128 ≤ c then 0 else (s.src.vLane a l).extractLsb' (8 * (c % 4)) 8))) ∧
  (∀ (s : State) (d a b : Nat) (fa fb : Bool), Live s → VPairOk s d →
     (VOk s a → VOk s b → IntTagged s a → IntTagged s b → IntTagged s (d + 1) →
       let c := fun l => if (s.src.vLane (d + 1) l).getLsbD 0 then 1 else 0
       let x := fun l => (s.src.vLane a l).toNat
       let y := fun l => (s.src.vLane b l).toNat
       Gives (.vaddc d a b fa fb) s (laneGroup2 s d .i32 (fun l => BitVec.ofNat 32 (x l + y l + c l))
         (fun l => if 4294967296 ≤ x l + y l + c l then 1 else 0)) ∧
       Gives (.vsubb d a b fa fb) s (laneGroup2 s d .i32 (fun l => BitVec.ofInt 32 ((x l : Int) - y l - c l))
         (fun l => if y l + c l ≤ x l then 1 else 0))) ∧
     (VPairOk s a → VPairOk s b → (∀ n, n ∈ [a, a + 1, b, b + 1] → IntTagged s n) →
       ∃ lo hi : Nat → DWord,
         (∀ l k, k < 64 → (lo l).getLsbD k = ((List.range 64).map (fun j =>
           (s.src.vPair b l).getLsbD j && (decide (j ≤ k) && (s.src.vPair a l).getLsbD (k - j)))).foldl xor false) ∧
         (∀ l k, k < 64 → (hi l).getLsbD k = ((List.range 64).map (fun j =>
           (s.src.vPair b l).getLsbD j && (s.src.vPair a l).getLsbD (64 + k - j))).foldl xor false) ∧
         Gives (.vclmulLo d a b fa fb) s (laneGroup2 s d .i32 (fun l => (lo l).setWidth 32) (fun l => (lo l >>> 32).setWidth 32)) ∧
         Gives (.vclmulHi d a b fa fb) s (laneGroup2 s d .i32 (fun l => (hi l).setWidth 32) (fun l => (hi l >>> 32).setWidth 32))))

/-- R84, R85, R90, R226, R239: the float words of two sources of one format round the exact result of each element once, in the mode that RM
names, and keep the source's tag; VFMIN and VFMAX choose an element.
R240, R241, R245: VFSCALE multiplies by a power of two that an integer element gives, VFDOT2 adds two exact products to an FP32
accumulator with one rounding, and VFCMP writes the relation of FP32 lanes as a mask. -/
def Obligations.FloatArithmeticResults : Prop :=
  (∀ (s : State) (rm d a b : Nat) (fa fb : Bool), Live s → VOk s a → VOk s b → VOk s d → FloatTagged s a →
     s.src.tag b = s.src.tag a →
     let m := rmodeOf rm
     let each := fun (op : Fmt → Nat → Nat → Nat) =>
       laneGroup s d (s.src.tag a) (fun l => mapE2 (s.src.tag a) op (s.src.vLane a l) (s.src.vLane b l))
     Gives (.vfadd rm d a b fa fb) s (each (fun f x y => roundF f (fsum [fval f x, fval f y] m) m)) ∧
     Gives (.vfsub rm d a b fa fb) s (each (fun f x y => roundF f (fsum [fval f x, (fval f y).negate] m) m)) ∧
     Gives (.vfmul rm d a b fa fb) s (each (fun f x y => roundF f (fmulE (fval f x) (fval f y)) m)) ∧
     Gives (.vfmin d a b fa fb) s (each (fminmax false)) ∧ Gives (.vfmax d a b fa fb) s (each (fminmax true)) ∧
     (s.src.tag d = s.src.tag a → Gives (.vfma rm d a b fa fb) s (laneGroup s d (s.src.tag a) (fun l => mapE3 (s.src.tag a)
       (fun f x y z => roundF f (fsum [fmulE (fval f x) (fval f y), fval f z] m) m)
       (s.src.vLane a l) (s.src.vLane b l) (s.src.vLane d l))))) ∧
  (∀ (s : State) (rm cc d a b : Nat) (fa fb : Bool), Live s → VOk s a → VOk s b →
     let m := rmodeOf rm
     (VOk s d → (s.src.tag a = .fp32 ∧ s.src.tag b = .i32 ∨ (s.src.tag a = .bf16x2 ∨ s.src.tag a = .fp16x2) ∧ s.src.tag b = .i16x2) →
       Gives (.vfscale rm d a b fa fb) s (laneGroup s d (s.src.tag a) (fun l => mapE2 (s.src.tag a)
         (fun f x n => roundF f (fmulE (fval f x) (.fin false 1 (elemInt (32 / elems (s.src.tag a)) n))) m)
         (s.src.vLane a l) (s.src.vLane b l)))) ∧
     (VOk s d → (s.src.tag a = .bf16x2 ∨ s.src.tag a = .fp16x2) → s.src.tag b = s.src.tag a → s.src.tag d = .fp32 →
       let f := fFmt (s.src.tag a)
       let p := fun l j => fmulE (fval f (elemOf (s.src.vLane a l) 2 j)) (fval f (elemOf (s.src.vLane b l) 2 j))
       Gives (.vfdot2 rm d a b fa fb) s (laneGroup s d .fp32 (fun l =>
         BitVec.ofNat 32 (roundF .fp32 (fsum [p l 0, p l 1, fval .fp32 (s.src.vLane d l).toNat] m) m)))) ∧
     (SOk s d → s.src.tag a = .fp32 → s.src.tag b = .fp32 →
       ∃ x : Word, Gives (.vfcmp cc d a b fa fb) s (laneScalar s d x) ∧
         ∀ l, l < 32 → (x.getLsbD l = (s.src.em.getLsbD l &&
           fcond cc (fval .fp32 (s.src.vLane a l).toNat) (fval .fp32 (s.src.vLane b l).toNat)))))

/-- R91, R242, R243, R244: the special functions and VFRND round the exact value once; VFABS clears and VFNEG turns over the sign bits of any
signed format and touch no other bit; VFCLASS writes the class of each element as one bit.
R246 to R249: a conversion to a tag of its kind, of a source of its kind and at a part that exists, writes its converted elements where the
part places them and keeps the destination's other elements. -/
def Obligations.UnaryAndConversionResults : Prop :=
  (∀ (s : State) (rm d a : Nat) (fa : Bool), Live s → VOk s a → VOk s d →
     let t := s.src.tag a
     let m := rmodeOf rm
     let each := fun (op : Fmt → Nat → Nat) => laneGroup s d t (fun l => mapE t op (s.src.vLane a l))
     (FloatTagged s a →
       (∀ i f, (i, f) ∈ [(Instr.vfrcp rm d a fa, frcpE), (.vfrsq rm d a fa, frsqE), (.vfsqrt rm d a fa, fsqrtE),
           (.vfexp2 rm d a fa, fexp2E), (.vflog2 rm d a fa, flog2E), (.vfsin rm d a fa, fturnE 0), (.vfcos rm d a fa, fturnE 1)] →
         Gives i s (each (fun k x => roundF k (f (fval k x)) m))) ∧
       Gives (.vfrnd rm d a fa) s (each (fun k x => roundF k (frndE (fval k x) m) m)) ∧
       Gives (.vfclass d a fa) s (laneGroup s d .i32 (fun l => mapE t (fun k x => 2 ^ fclass k x) (s.src.vLane a l)))) ∧
     (∀ mask, (t, mask) ∈ [(Tag.fp32, (0x80000000 : Word)), (.bf16x2, 0x80008000), (.fp16x2, 0x80008000), (.e4m3x4, 0x80808080),
         (.e5m2x4, 0x80808080), (.e2m1x8, 0x88888888)] →
       Gives (.vfabs d a fa) s (laneGroup s d t (fun l => s.src.vLane a l &&& ~~~mask)) ∧
       Gives (.vfneg d a fa) s (laneGroup s d t (fun l => s.src.vLane a l ^^^ mask)))) ∧
  (∀ (s : State) (rm d a part tag : Nat) (t : Tag) (fa sat : Bool), Live s → VOk s a → VOk s d → tagOf? tag = some t →
     let x := s.src.tag a
     cvtRatio x t ≠ 8 → part < cvtRatio x t →
     let each := fun (cvt : Nat → Nat) => laneGroup s d t (fun l => cvtLane cvt x t part (s.src.vLane a l) (s.src.vLane d l))
     (t ∈ cvtTags → x ∈ cvtTags →
       Gives (.vfcvt d a fa part sat rm tag) s (each (fun v => cvtFF (fFmt x) (fFmt t) v (rmodeOf rm) sat))) ∧
     (t ∈ [Tag.i32, .i8x4, .i16x2] → x ∈ cvtTags →
       Gives (.vfcvti d a fa part rm tag) s (each (fun v => cvtFI (fFmt x) (32 / elems t) v (rmodeOf rm)))) ∧
     (t ∈ signTags → x ∈ [Tag.raw, .i32, .i8x4, .i16x2] →
       Gives (.vicvtf d a fa part sat rm tag) s (each (fun v => cvtIF (fFmt t) (32 / elems x) v (rmodeOf rm) sat))))

/-- R62, R67, R116, R252 to R276, R333, R347: a memory word whose registers, tags and policy are as its rules ask becomes an operation with
the address, data and comparand of each of its lanes; its destinations are empty until the answer, and the group waits for its clearance
(a PREF needs none). It writes no memory itself, and a release or a read-modify-write marks its team dirty.
R35, R66, R256: a memory word of lane effect that issues with no lane active makes no access, and its destinations become full with 0 in
every lane; nothing else changes.
The checks of rights, order and conversion in corners follow log entry 30. -/
def Obligations.MemoryWordsIssue : Prop :=
  (∀ (s : State) (d base idx pol x cc : Nat) (fx fy u : Bool) (r : MemRow),
     r ∈ loadRows d base idx pol fx ((s.src.sVal pol).getLsbD 7 && ordField (s.src.sVal pol) == 0) ++ storeRows d base idx pol fx
         ++ atomicRows d base idx pol x fx fy u ++ syncRows d base idx pol x cc fx fy u →
     MemReady r s base idx pol → (r.unif = true ∨ s.src.em ≠ 0) →
     ∃ o : MemOp,
       o.gid = s.cur ∧ o.path = s.src.path ∧ o.origin = none ∧ o.team = s.src.team ∧ o.ctx = s.myTeam.ctx ∧ o.kind = r.kind ∧ o.unif = r.unif ∧ o.dst = r.dst ∧
       o.stat = r.stat ∧ o.mask = s.src.em ∧ o.pol = s.src.sVal pol ∧ o.cleared = false ∧ o.fail = none ∧
       o.pos = { pa := s.src.pos.pa, w := s.issue.w } ∧
       o.lanes.map (fun q => (q.lane, q.addr, q.data, q.cmp)) = laneList r s base idx ∧ (∀ q, q ∈ o.lanes → q.st = .formed) ∧
       (let s1 := if r.rmw || releases r (s.src.sVal pol) then dirtied s else s
        let g1 := emptied (outs r (r.tag (s.src.sVal pol))) s.g
        Does r.i s (posted { s1 with ops := SMap.set s.ops s.ticket o, ticket := s.ticket + 1 } 0 (.memoryWordClearance s.ticket)) .issued
          { g1 with clear := if r.kind = .pref then s.g.clear else some s.ticket, drain := [] })) ∧
  (∀ (s : State) (d base idx pol x cc : Nat) (fx fy : Bool) (r : MemRow),
     r ∈ loadRows d base idx pol fx ((s.src.sVal pol).getLsbD 7 && ordField (s.src.sVal pol) == 0) ++ storeRows d base idx pol fx
         ++ atomicRows d base idx pol x fx fy false ++ syncRows d base idx pol x cc fx fy false →
     MemReady r s base idx pol → r.unif = false → s.src.em = 0 →
     Gives r.i s (zeroed (outs r (r.tag (s.src.sVal pol))) s.g))

/-- R110, R121: a memory word whose policy operand has bit 6 set, a format of 11 or more, an ORD that its kind does not accept, or MRG on a word
that does not merge, takes an illegal-operand fault; one whose policy is right waits while an earlier memory word of its group awaits its
clearance.
R279: WINCHK reads the window table alone: for each active lane it writes whether the address is a window address, whether the entry is
valid, whether the offset is within its limit, and its access rights; it makes no access and faults on no lane. -/
def Obligations.PolicyFaultsAndWindowCheck : Prop :=
  (∀ (s : State) (d base idx pol : Nat) (fx : Bool), Live s → SPairOk s base → VOk s idx → IntTagged s idx → SOk s pol → VOk s d →
     let p := s.src.sVal pol
     ((p.getLsbD 6 = true ∨ 11 ≤ fmtField p ∨ 2 ≤ ordField p ∨ p.getLsbD 7 = true) →
       exec (.ldB32 d base idx pol fx) s = .next (s.issueFault (s.faultOf .illegalOperand))) ∧
     (p.getLsbD 6 = false → fmtField p < 11 → ordField p < 2 → p.getLsbD 7 = false → s.src.clear ≠ none →
       exec (.ldB32 d base idx pol fx) s = .next (s.verd .held))) ∧
  (∀ (s : State) (d base idx pol : Nat) (fx : Bool), Live s → SPairOk s base → VOk s idx → IntTagged s idx → SOk s pol → VOk s d →
     let p := s.src.sVal pol
     p.getLsbD 6 = false → fmtField p < 11 → ordField p = 0 → p.getLsbD 7 = false → s.memWait = false →
     ∃ x : Nat → Word, Gives (.winchk d base idx pol fx) s (laneGroup s d .i32 x) ∧
       ∀ l, l < 32 →
         let a := s.src.sPair base + (s.src.vLane idx l).setWidth 64
         (a.getLsbD 63 = false → x l = 32) ∧
         (a.getLsbD 63 = true → s.winEntry s.myTeam.crec (a.toNat / 2 ^ 47 % 65536) = none → x l = 0) ∧
         (∀ w, a.getLsbD 63 = true → s.winEntry s.myTeam.crec (a.toNat / 2 ^ 47 % 65536) = some w →
           (x l).toNat = 1 + (if a.toNat % 2 ^ 47 ≤ w.limit then 2 else 0) + (if w.rd then 4 else 0) + (if w.wr then 8 else 0)
             + (if w.at' then 16 else 0)))

/-- R42 to R46, R280 to R285: when the last members arrive, a member-masked word writes what its rule gives of all members' values in every member
lane (or its scalar), the members' counts advance and the paths held at it go on, so that where the active lanes are live, inside the innermost
divergence, at one count and all the members, with nothing held, the word completes at once; while members are missing its path is held with its
lanes' values and blocks; with no lane active nothing changes.
R44, R45: active lanes that are members, live, at one count with nobody ahead, inside the innermost divergence and held nowhere else arrive
at an instance: they complete it where they are all its members, and where they are not they are held with the values they bring.
R45: a member that has exited, an active lane that is no member, and a member outside the innermost divergence are faults of the arriving
word, reported with the lowest such lane in that order. -/
def Obligations.MemberWords : Prop :=
  (∀ (s : State) (d a b sel delta : Nat) (fa fy : Bool) (r : MemberRow),
     r ∈ voteRows d a b fa ++ shflRows d a b sel delta fa fy ++ reduceRows d a b fa → MemberReady r s d a b →
     (s.src.em = 0 → Gives r.i s s.g) ∧
     (Together s.src (s.src.sVal b) →
       let all := allOf s (fun l => s.src.vLane a l) (fun l => match r.sel with | some n => s.src.vLane n l | none => 0)
       Gives r.i s (if r.sc then (s.g.complete all).wrS d (r.out all 0)
         else (s.g.complete all).wrV d (r.tag.getD (s.src.tag a)) s.src.em (fun l => r.out all l))) ∧
     (∀ h, s.src.em ≠ 0 → arrives s a b r.sel = .done h →
       Gives r.i s (if r.sc then (s.g.complete h).wrS d (r.out h 0)
         else (s.g.complete h).wrV d (r.tag.getD (s.src.tag a)) h.mask (fun l => r.out h l))) ∧
     (∀ h, s.src.em ≠ 0 → arrives s a b r.sel = .wait h →
       Does r.i s s .blocked (blockedOn s (.member h.pos) (s.g.hold h)))) ∧
  (∀ (g : Group) (p : Pos) (k : Word) (vals aux : Nat → Word),
     g.em ≠ 0 → k &&& g.x = 0 → g.em &&& ~~~k = 0 → k &&& ~~~g.within = 0 → g.held = [] →
     (∀ l c, l < 32 → c < 32 → k.getLsbD l = true → k.getLsbD c = true → g.icnt l = g.icnt c) →
     ∃ h : HeldInst, h.pos = p ∧ h.mask = k ∧ h.arrived = g.em ∧
       (∀ l, l < 32 → g.em.getLsbD l = true → brought h l = vals l ∧ h.aux.getD l 0 = aux l ∧ h.count = g.icnt l) ∧
       (g.em = k → arrive g p k vals aux = .done h) ∧ (g.em ≠ k → arrive g p k vals aux = .wait h)) ∧
  (∀ (s : State) (d a b : Nat) (fa : Bool), Live s → VOk s a → SOk s b → SOk s d → s.src.em ≠ 0 →
     let k := s.src.sVal b
     (k &&& s.src.x ≠ 0 → exec (.voteAll d a b fa) s =
       .next (s.issueFault (s.faultAt .exitedLane 0 (lowLane (k &&& s.src.x)) none))) ∧
     (k &&& s.src.x = 0 → s.src.em &&& ~~~k ≠ 0 → exec (.voteAll d a b fa) s =
       .next (s.issueFault (s.faultAt .illegalOperand 0 (lowLane (s.src.em &&& ~~~k)) none))) ∧
     (k &&& s.src.x = 0 → s.src.em &&& ~~~k = 0 → k &&& ~~~s.src.within ≠ 0 → exec (.voteAll d a b fa) s =
       .next (s.issueFault (s.faultAt .illegalOperand 0 (lowLane (k &&& ~~~s.src.within)) none))))

/-- R35, R286, R287: when the last local members arrive at an XCHG, its destination is empty with the source's tag, the half with every
member's value is on its way and the group's exchange is outstanding; with no lane active the destination becomes full with 0.
R286 to R289: a half that reaches its exchange unit waits there, or meets its partner's half of the same number; when two halves meet the
members of both groups take the partner's values, or keep their own where the partner has none, and both exchanges are over; a half whose
number is dead, or that has waited more than XTO ticks while both teams stand on their cores and run, fails its group's exchange.
What counts as waiting, and the number after a timeout, follow log entry 40. -/
def Obligations.ExchangeWordAndUnit : Prop :=
  (∀ (s : State) (d a b : Nat) (fa : Bool), Live s → VOk s a → SOk s b → VOk s d → s.partnered = true →
     (s.src.em = 0 → s.src.xchg = false → Gives (.xchg d a b fa) s (s.g.wrV d (s.src.tag a) (BitVec.allOnes 32) (fun _ => 0))) ∧
     (s.src.xchg = true → exec (.xchg d a b fa) s = .next (s.verd .held) ∨ ∃ f, exec (.xchg d a b fa) s = .next (s.issueFault f)) ∧
     (s.src.em ≠ 0 → s.src.xchg = false →
       (∀ h, arrives s a b none = .wait h →
         Does (.xchg d a b fa) s (dirtied s) .blocked (blockedOn s (.member h.pos) (s.g.hold h))) ∧
       (∀ h, (arrives s a b none = .done h ∨ Together s.src (s.src.sVal b) ∧ h = allOf s (fun l => s.src.vLane a l) (fun _ => 0)) → ∃ o : MemOp,
         o.gid = s.cur ∧ o.kind = .xchg ∧ o.dst = [(.v, d)] ∧ o.stat = none ∧ o.fail = none ∧ o.mask = h.mask ∧
         o.lanes.map (fun q => (q.lane, q.data)) = (List.range 32).map (fun l => (l, (brought h l).setWidth 64)) ∧
         Does (.xchg d a b fa) s
           (posted { dirtied s with ops := SMap.set s.ops s.ticket o, ticket := s.ticket + 1 } 0 (.exchangeHalfArrival s.cur)) .issued
           { (s.g.complete h).emptyV d (s.src.tag a) with xchg := true }))) ∧
  (∀ (s : State) (g h : Nat) (xg : Group) (ig : Nat) (og : MemOp), SMap.find s.groups g = some xg → s.exchangeOf g = some (ig, og) →
     (SMap.find s.ops ig = some og) →
     let passed := fun (x : Group) => { x with xnum := (x.xnum + 1) % 65536, xchg := false }
     let fails := fun (u : State) => u.grp g = passed xg ∧ (∀ y, y ∈ u.halves → y.gid ≠ g) ∧ (∀ j, j ≠ g → SMap.find u.groups j = SMap.find s.groups j) ∧
       (∃ o f, SMap.find u.ops ig = some o ∧ o.fail = some f ∧ f.cls = .exchangeTimeout) ∧ Sent s u 0 (.longLatencyCompletion ig) ∧ SameMem s u
     ((∀ y, y ∈ s.halves → y.gid ≠ g) →
       ((s.seat g, xg.xnum) ∈ s.deadNums → Comes (.exchangeHalfArrival g) s (fun u => fails u ∧ (s.seat g, xg.xnum) ∉ u.deadNums)) ∧
       ((s.seat g, xg.xnum) ∉ s.deadNums → Comes (.exchangeHalfArrival g) s (fun u => u.groups = s.groups ∧ SameMem s u ∧
         (∃ y, y ∈ u.halves ∧ y.gid = g ∧ y.seat = s.seat g ∧ y.num = xg.xnum ∧ y.mask = og.mask ∧
           y.vals = og.lanes.map (fun r => r.data.setWidth 32)) ∧
         (∀ y, s.halfFor g xg.xnum = some y → Sent s u 0 (.xchgHalvesMeet g y.gid))))) ∧
     (∀ (a b : Half) (xh : Group) (ih : Nat) (oh : MemOp) (dg dh : Nat), s.halves.find? (fun x => x.gid == g) = some a →
       s.halves.find? (fun x => x.gid == h) = some b → a.seat = s.mateSeat h → b.seat = s.mateSeat g → a.num = b.num → g ≠ h → ig ≠ ih →
       SMap.find s.groups h = some xh → s.exchangeOf h = some (ih, oh) → og.dst = [(.v, dg)] → oh.dst = [(.v, dh)] → og.stat = none →
       oh.stat = none → og.fail = none → oh.fail = none → (∀ l, l < 32 → (og.lane l).isSome = true ∧ (oh.lane l).isSome = true) →
       og.lanes.map (fun r => r.lane) = List.range 32 → oh.lanes.map (fun r => r.lane) = List.range 32 → og.kind = .xchg → oh.kind = .xchg →
       let takes := fun (x : Group) (d : Nat) (mine other : Half) =>
         passed (x.wrV d (x.tag d) mine.mask (fun l => if other.mask.getLsbD l then other.vals.getD l 0 else mine.vals.getD l 0))
       Comes (.xchgHalvesMeet g h) s (fun u => u.grp g = takes xg dg a b ∧ u.grp h = takes xh dh b a ∧ SMap.find u.ops ig = none ∧
         SMap.find u.ops ih = none ∧ (∀ y, y ∈ u.halves → y.gid ≠ g ∧ y.gid ≠ h) ∧ SameMem s u ∧
         ∀ j, j ≠ g → j ≠ h → SMap.find u.groups j = SMap.find s.groups j)) ∧
     (∀ a, s.halves.find? (fun x => x.gid == g) = some a → s.counting g = true → s.halfFor g a.num = none →
       (s.part (s.team xg.team).part).xto < a.tick + (match a.since with | some x => s.now - x | none => 0) →
       Comes (.exchangeTimeout g) s (fun u => fails u ∧ u.deadNums = s.deadNums ++ [(s.mateSeat g, a.num)])))

/-- R291 to R294: BINIT starts a barrier afresh with its fixed count, BEXP adds to the pending bytes, and each writes only the eight bytes of that
word, which lies in the team's scratchpad; BQRY reads the low half of the barrier word as of the end of the previous cycle, and the end of a cycle
keeps each word of a team that is not saved, its bit 15 telling whether bytes are pending.
R286, R292, R294, R297: BWAIT goes on where the barrier's phase has passed the one it names, by up to 127 phases, and blocks its path where
not; BARR.peer sends an arrival to the partner team, owing it to the group's earlier accesses, and marks the team dirty.
R292 to R294, R297, R339, R347: an arrival with the barrier's count, or the first arrival, which sets it, adds 1 to the arrivals, and the phase
may complete at the end of the cycle; it marks the team dirty, and BARRW blocks its path too. A count over 64, or none where none is set, is an
illegal operand; another count than the barrier's, or one arrival too many, is a barrier-count fault. What waits for a peer's release follows log
entry 31. -/
def Obligations.BarrierWords : Prop :=
  (∀ (s : State) (bar d a : Nat) (fa : Bool), Live s → bar < s.myTeam.kernel.barriers →
     let n := (s.src.sVal a).toNat
     let b := s.bar s.src.team bar
     let at' := scratchKey s.src.team + 8 * bar
     (SOk s d → Gives (.bqry bar d) s (s.g.wrS d ((s.myTeam.barWas.getD bar 0).setWidth 32))) ∧
     (SOk s a → n ≤ 64 → b.arr = 0 → b.pend = 0 → ∃ m : Memory,
       Does (.binit bar a fa) s { s with mem := m } .issued s.g ∧
       (∀ x, x < at' ∨ at' + 8 ≤ x → Memory.read m x = Memory.read s.mem x) ∧
       barOf (BitVec.ofNat 64 (Memory.readN m at' 8)) =
         { pend := 0, phase := b.phase, fixed := decide (n ≠ 0), arr := 0, cnt := n, rsv := b.rsv }) ∧
     (SOk s a → n ≤ 8388607 → ∃ m : Memory,
       Does (.bexp bar a fa) s (phaseDue { s with mem := m } s.src.team bar) .issued s.g ∧
       (∀ x, x < at' ∨ at' + 8 ≤ x → Memory.read m x = Memory.read s.mem x) ∧
       barOf (BitVec.ofNat 64 (Memory.readN m at' 8)) = { b with pend := (b.pend + n) % 16777216 })) ∧
  (∀ (s : State) (bar a : Nat) (fa : Bool), Live s → bar < s.myTeam.kernel.barriers → SOk s a →
     let n := (s.src.sVal a).toNat % 256
     let ph := (s.bar s.src.team bar).phase
     let ahead := ((ph : Int) - n) % 256
     let mark := fun (x : Team) => { x with dirty := true, barOwed := x.barOwed ++ s.owed (64 + 32 * s.cur + bar) }
     (1 ≤ ahead ∧ ahead ≤ 127 → Gives (.bwait bar a fa) s s.g) ∧
     (¬ (1 ≤ ahead ∧ ahead ≤ 127) → Does (.bwait bar a fa) s s .blocked (blockedOn s (.barWait bar n) s.g)) ∧
     (s.partnered = true →
       ((s.src.sVal a).toNat ≤ 64 → Does (.barrPeer bar a fa) s
         (posted { s with teams := SMap.modify s.teams s.g.team mark } 0
           (.peerArrival s.g.team bar (s.src.sVal a) s.cur { pa := s.src.pos.pa, w := s.issue.w })) .issued s.g) ∧
       (64 < (s.src.sVal a).toNat → exec (.barrPeer bar a fa) s = .next (s.issueFault (s.faultOf .illegalOperand)))) ∧
     (s.partnered = false → exec (.barrPeer bar a fa) s = .next (s.issueFault (s.faultOf .illegalOperand)))) ∧
  (∀ (s : State) (bar a : Nat) (fa : Bool), Live s → Alone s → bar < s.myTeam.kernel.barriers → SOk s a →
     let n := (s.g.sVal a).toNat
     let b := s.bar s.g.team bar
     let at' := scratchKey s.g.team + 8 * bar
     let cnt := if n = 0 then b.cnt else n
     (n ≤ 64 → cnt ≠ 0 → (b.cnt = 0 ∨ cnt = b.cnt ∧ b.arr ≠ b.cnt) → b.arr < 127 → ∃ m : Memory,
       (∀ x, x < at' ∨ at' + 8 ≤ x → Memory.read m x = Memory.read s.mem x) ∧
       barOf (BitVec.ofNat 64 (Memory.readN m at' 8)) = { b with cnt := cnt, arr := b.arr + 1 } ∧
       let after := phaseDue { s with
           mem := m
           teams := SMap.modify s.teams s.g.team (fun t => { t with dirty := true, barOwed := t.barOwed ++ s.owed bar }) } s.g.team bar
       Does (.barr bar a fa) s after .issued s.g ∧
       Does (.barrw bar a fa) s after .blocked (blockedOn s (.barArr bar b.phase) s.g)) ∧
     (∀ i, i ∈ [Instr.barr bar a fa, .barrw bar a fa] →
       (64 < n ∨ cnt = 0 → exec i s = .next (s.issueFault (s.faultOf .illegalOperand))) ∧
       (n ≤ 64 → b.cnt ≠ 0 → (cnt ≠ b.cnt ∨ b.arr = b.cnt) → exec i s = .next (s.issueFault (s.faultOf .barrierCount))))) ∧
  (∀ (s : State) (t bar : Nat) (x : Team), SMap.find s.teams t = some x → x.st ≠ .saved → bar < x.kernel.barriers →
     ∃ y, SMap.find s.nextCycle.teams t = some y ∧ { y with barWas := x.barWas } = x ∧ ∀ k, k < 56 →
       (y.barWas.getD bar 0).getLsbD k =
         if k = 15 then decide ((s.bar t bar).pend ≠ 0) else (Memory.readN s.mem (scratchKey t + 8 * bar) 8).testBit k)

/-- R128, R300 to R305, R335: an ACP whose lanes pass its checks, with a copy slot and its range-lock entries free, takes them, becomes a copy of
its active lanes, and starts its transfers; a token is empty until the copy is done. With no lane active it has no effect.
The regions of range locks are read as log entry 20 says. -/
def Obligations.CopyStarts : Prop :=
  ∀ (s : State) (d base idx pol dbase didx size cmpl bar csc : Nat) (fx fy : Bool), Live s → SPairOk s base → VOk s idx → IntTagged s idx →
    SOk s pol → SPairOk s dbase → VOk s didx → IntTagged s didx → (cmpl = 0 → VOk s d) → (cmpl = 2 → SPairOk s d) → cmpl < 3 →
    (cmpl = 1 → bar < s.myTeam.kernel.barriers) →
    let z := 4 * 2 ^ size
    let ends := acpEnds s.src base idx dbase didx
    let locks := fun (id : Nat) => lockSide id s.src.team false (ends.map (fun e => (e.2.1, z))) ++
      lockSide id s.src.team true (ends.map (fun e => (e.2.2, z)))
    CopyOk s pol z cmpl csc d ends →
    (s.src.em = 0 → Gives (.acp d base idx pol fx dbase didx fy size cmpl bar csc) s s.g) ∧
    (s.src.em ≠ 0 → s.kept30 = false → s.mayTake s.src.coreId (locks 0).length true = true →
      (∀ r, r ∈ locks 0 → s.lockBlocked s.src.coreId r = false) → ∃ k : Copy,
        k.gid = s.cur ∧ k.team = s.src.team ∧ k.size = z ∧ k.ends = ends ∧ k.path = s.src.path ∧ k.halt = false ∧ k.core = s.src.coreId ∧
        (cmpl = 0 → k.done = .token d s.src.em) ∧ (cmpl = 1 → k.done = .bar bar) ∧ (cmpl = 2 → k.done = .ctr (s.src.sPair d)) ∧
        k.ctx = s.myTeam.ctx ∧ k.pol = s.src.sVal pol ∧ k.xfers = acpXfers ends z ∧
        let s1 := if cmpl = 2 then dirtied s else s
        Does (.acp d base idx pol fx dbase didx fy size cmpl bar csc) s
          (posted { s1 with
              copies := SMap.set s.copies s.ticket k
              ticket := s.ticket + 1
              cores := SMap.set s.cores s.src.coreId
                { s.core s.src.coreId with
                  ranges := (s.core s.src.coreId).ranges ++ locks s.ticket
                  waiters := (s.core s.src.coreId).waiters.filter (fun w => w.gid != s.cur) } } 0
            (.copyLineTransfer s.ticket))
          .issued (if cmpl = 0 then s.g.emptyV d .i32 else s.g))

/-- R97, R306 to R314: when the last members arrive at a matrix word whose descriptor, tiles, formats and modes its rules accept, with an entry of
the queue and its range locks free, it joins its cluster's queue with the work it describes, and the tags and the mode that the team's later
words will meet follow it.
R306, R315, R316: MFENCE empties its scalar and queues the end of the batch (with no lane active it writes 0); MWAIT goes on once the batch it
names has completed, and blocks its members' path where it has not. -/
def Obligations.MatrixWords : Prop :=
  (∀ (s : State) (d a b memb desc tag : Nat) (fa fb fy : Bool) (i : Instr) (uses : List (Nat × Nat)) (tiles : List Nat) (locks : Nat → List RangeLock)
     (okay : Prop) (kind : MxKind) (pol : Word) (track : Team → Team) (t : Tag) (h : HeldInst),
     let base := s.src.sPair a
     let n := (s.src.sVal desc).toNat
     let p := s.src.sVal b
     let mem3 := [(2, a), (1, b), (1, desc)]
     let rows := fun (id : Nat) (dst : Bool) => lockSide id s.src.team dst (tileRows base n)
     let steps := MxKind.steps d a b (n % 8) (2 ^ (n / 16384 % 4)) (2 ^ (n / 4096 % 4)) 0 (n / 65536 % 256 + 1)
     tagOf? tag = some t →
     (i, uses, tiles, locks, okay, kind, pol, track) ∈
       [(Instr.mzero tag d memb, [], [d], fun _ => [], True, MxKind.zero d t, 0, fun (x : Team) => { x with track := x.track.set d t }),
        (.mld d a b fa fb memb desc fy, mem3, [d], fun id => rows id false, RowsOk p base (rowAddrs base n) ∧ n < 16777216,
          .load d base n (loadTag p), p, fun x => { x with track := x.track.set d (loadTag p) }),
        (.mst d a b fa fb memb desc fy, mem3, [d], fun id => rows id true,
          RowsOk p base (rowAddrs base n) ∧ n < 16777216 ∧ 8 ≤ n ∧ (fmtField p = 0 ∨ tagCode (s.myTeam.trackTag d) = fmtField p),
          .store d base n, p, id),
        (.mscale a b fa fb memb desc fy, mem3, [], fun id => if n = 0 then [] else lockSide id s.src.team false [(base, 1024)],
          RowsOk p base (if n = 0 then [] else [base]) ∧ n < 3, .scale base n, p, fun x => { x with trackMode := n }),
        (.mma d a b memb desc fy, [(1, desc)], [d, a, b], fun _ => [], StepsOk s false d a b n, steps, 0, id),
        (.mloop d a b memb desc fy, [(1, desc)], [d, a, b], fun _ => [], StepsOk s true d a b n, steps, 0, id)] →
     Live s → SOk s memb → (∀ u, u ∈ uses → RegOk s.src .s u.1 u.2) → (∀ k, k ∈ tiles → k < s.myTeam.kernel.tiles) →
     let arr := mxArrive { pa := s.src.pos.pa, w := s.issue.w } memb s.src
     (s.src.em = 0 → Gives i s s.g) ∧
     (s.src.em ≠ 0 → arr = .wait h → Does i s s .blocked (blockedOn s (.member h.pos) (s.g.hold h))) ∧
     (s.src.em ≠ 0 → (arr = .done h ∨ Together s.src (s.src.sVal memb) ∧ h = allOf s (fun _ => 0) (fun _ => 0)) → okay → s.mxRoom = true →
       (locks 0 ≠ [] → s.mayTake s.src.coreId (locks 0).length false = true ∧ ∀ r, r ∈ locks 0 → s.lockBlocked s.src.coreId r = false) →
       ∃ (w : MxWord) (u : State), w.kind = kind ∧ w.team = s.g.team ∧ w.gid = s.cur ∧ w.pol = pol ∧ w.row = 0 ∧ w.buf = [] ∧
         w.id = s.ticket ∧ w.path = s.g.path ∧ w.halt = false ∧
         u = { s with
           ticket := s.ticket + 1
           teams := SMap.modify s.teams s.g.team track
           cores := if locks 0 = [] then s.cores else SMap.set s.cores s.src.coreId
             { s.core s.src.coreId with
               ranges := (s.core s.src.coreId).ranges ++ locks s.ticket
               waiters := (s.core s.src.coreId).waiters.filter (fun w => w.gid != s.cur) }
           clusters := SMap.set s.clusters s.g.cluster
             { s.cluster s.g.cluster with queue := (s.cluster s.g.cluster).queue ++ [w] } } ∧
         Does i s (posted (posted (posted u 0 (.tilePortService s.g.cluster)) 0 (.matrixStep s.g.cluster)) 0 (.batchComplete s.g.team))
           .issued (s.g.complete h))) ∧
  (∀ (s : State) (d a memb : Nat) (fa : Bool), Live s →
     (SOk s d → s.src.em = 0 → Gives (.mfence d) s (s.g.wrS d 0)) ∧
     (SOk s d → s.src.em ≠ 0 → s.mxRoom = true → ∃ (w : MxWord) (u : State), w.kind = .fence d ∧ w.team = s.g.team ∧ w.gid = s.cur ∧
       u = { s with
         ticket := s.ticket + 1
         clusters := SMap.set s.clusters s.g.cluster
           { s.cluster s.g.cluster with queue := (s.cluster s.g.cluster).queue ++ [w] } } ∧
       Does (.mfence d) s (posted (posted (posted u 0 (.tilePortService s.g.cluster)) 0 (.matrixStep s.g.cluster)) 0 (.batchComplete s.g.team))
         .issued (s.g.emptyS d)) ∧
     (SOk s a → SOk s memb →
       let n := (s.src.sVal a).toNat
       (s.src.em = 0 → Gives (.mwait a fa memb) s s.g) ∧
       (∀ h, s.src.em ≠ 0 → (mxArrive { pa := s.src.pos.pa, w := s.issue.w } memb s.src = .done h ∨
           Together s.src (s.src.sVal memb) ∧ h = allOf s (fun _ => 0) (fun _ => 0)) →
         (((s.myTeam.batch : Int) - n) % 65536 ≤ 32767 → Gives (.mwait a fa memb) s (s.g.complete h)) ∧
         (32767 < ((s.myTeam.batch : Int) - n) % 65536 →
           Does (.mwait a fa memb) s s .blocked
             (blockedOn s (.batch n) (Group.complete { s.g with stack := s.g.stack.map (fun e => match e.block with
               | some b => if b.on = .member h.pos ∧ e.mask &&& h.mask ≠ 0 then { e with block := some { b with on := .batch n } } else e
               | none => e) } h))))))

/-- R318, R319, R321, R363, R429: a segment word sends its request to the segment unit, which it reaches once it has crossed to the uncore;
SEGCRT, SEGDEL and SEGQRY leave their scalar waiting for the answer, SEGATT empties its pair, and SEGDET, a release, waits for the group's earlier
accesses.
R136, R318, R319: at its turn a SEGCRT is answered 4 for a name of 0 or a size out of range, 2 for a name in use and 3 where there is no room; else
there is a resident segment of that name and size, attached to the team, and the scalar waits for the zeroing.
R318, R320, R348: a SEGATT of a segment that is resident where the team runs attaches it and its base is on its way; of a name that does not exist
it fails with a segment error; one of a segment that is mirrored, or resident elsewhere, is an attach miss, for which the team stops to be
moved.
R136, R321, R322, R339: a SEGDET gives up the team's attachment, or reports a segment error later where there is none; a SEGDEL answers 3 for an
unknown name, 2 for a segment attached or moving, and else deletes it and answers 1; a SEGQRY reads size, attachments and state, or 0. -/
def Obligations.SegmentWords : Prop :=
  (∀ (s : State) (d a b : Nat) (fa fb : Bool), Live s → SPairOk s a →
     let n := s.toUncore s.myTeam.part
     let name := (s.src.sPair a).toNat
     let asks := fun (u : State) (op : SegOp) (units dst : Nat) =>
       postedAt { u with
         segReqs := SMap.set s.segReqs s.ticket
           { gid := s.cur, team := s.g.team, op := op, name := name, units := units, dst := dst
             pos := { pa := s.src.pos.pa, w := s.issue.w }, at' := n }
         ticket := s.ticket + 1 } .uncore n (.longLatencyCompletion s.ticket)
     let owing := s.g.setSReg d { s.g.sReg d with full := true, pend := true, err := none }
     (SOk s b → SOk s d →
       Does (.segcrtCm d a b fa fb) s (asks (dirtied s) (.crt false) (s.src.sVal b).toNat d) .issued owing ∧
       Does (.segcrtChip d a b fa fb) s (asks (dirtied s) (.crt true) (s.src.sVal b).toNat d) .issued owing) ∧
     (SOk s d → Does (.segdel d a fa) s (asks (dirtied s) .del 0 d) .issued owing ∧
       Does (.segqry d a fa) s (asks s .qry 0 d) .issued owing) ∧
     (s.releaseWaits = false → Does (.segdet a fa) s (asks (dirtied s) .det 0 0) .issued s.g) ∧
     (s.releaseWaits = true → exec (.segdet a fa) s = .next (s.verd .held)) ∧
     (SPairOk s d → ∃ o : MemOp, o.gid = s.cur ∧ o.team = s.src.team ∧ o.ctx = s.myTeam.ctx ∧ o.kind = .segatt ∧
       o.dst = [(.s, d), (.s, d + 1)] ∧ o.fail = none ∧ o.lanes.map (fun r => (r.st, r.data.toNat, r.since)) = [(.formed, name, n)] ∧
       Does (.segatt d a fa) s
         (postedAt { s with ops := SMap.set s.ops s.ticket o, ticket := s.ticket + 1 } .uncore n (.longLatencyCompletion s.ticket)) .issued
         ((s.g.emptyS d).emptyS (d + 1)))) ∧
  (∀ (s : State) (id : Nat) (r : SegReq) (x : Group), SMap.find s.segReqs id = some r → SMap.find s.ops id = none → s.segTurn id = true →
     SMap.find s.groups r.gid = some x →
     let t := s.team r.team
     let vf := (s.ctx t.ctx).crec.vf
     let here := s.segNamed t.part vf r.name
     let served : State := { s with segReqs := SMap.erase s.segReqs id }
     let answers := fun (u : State) (v : Word) => Comes (.longLatencyCompletion id) s (fun w =>
       { w with groups := u.groups, verdict := u.verdict } = u ∧ w.grp r.gid = x.wrS r.dst v ∧
       ∀ j, j ≠ r.gid → SMap.find w.groups j = SMap.find s.groups j)
     let leaves := fun (u : State) => Comes (.longLatencyCompletion id) s (fun w => { w with verdict := u.verdict } = u)
     (∀ chip, r.op = .crt chip →
       let good := r.name ≠ 0 ∧ 1 ≤ r.units ∧ r.units ≤ (if chip then 256 * (facetsOf (s.part t.part).facets).length else 96)
       (¬ good → answers served 4) ∧
       (good → here.isSome = true → answers served 2) ∧
       (good → here = none →
         (s.placeSeg t.part t.cluster chip r.units = none ∨ 1024 ≤ s.segCount t.part vf → answers served 3) ∧
         (∀ off, s.placeSeg t.part t.cluster chip r.units = some off → s.segCount t.part vf < 1024 → answers served 3 ∨ ∃ g : Seg,
           g.part = t.part ∧ g.vf = vf ∧ g.ctx = t.ctx ∧ g.name = some r.name ∧ g.chip = chip ∧ g.units = r.units ∧ g.st = .resident ∧
           g.cluster = t.cluster ∧ g.off = off ∧ g.attached = [r.team] ∧ g.zeroing = some (r.gid, r.dst) ∧
           leaves (posted (State.modTeam { served with segs := SMap.set s.segs s.ticket g, ticket := s.ticket + 1 } r.team
             (fun y => if y.attach.contains s.ticket then y else { y with attach := y.attach ++ [s.ticket] })) 0
             (.segcrtZeroingDone s.ticket))))) ∧
     (r.op = .det →
       (∀ i g, here = some (i, g) → r.team ∈ g.attached → leaves (served.detach i r.team)) ∧
       ((here = none ∨ ∃ i g, here = some (i, g) ∧ r.team ∉ g.attached) → ∃ f, f.cls = FaultClass.segmentError ∧ f.defer = true ∧
         f.src = r.pos ∧ leaves (posted served 0 (.deferredFaultReport r.gid f)))) ∧
     (r.op = .del →
       (here = none → answers served 3) ∧
       (∀ i g, here = some (i, g) →
         (g.attached = [] ∧ (g.st = .resident ∨ g.st = .mirrored) → answers { served with segs := SMap.erase s.segs i } 1) ∧
         (¬ (g.attached = [] ∧ (g.st = .resident ∨ g.st = .mirrored)) → answers served 2))) ∧
     (r.op = .qry →
       (here = none → answers served 0) ∧
       (∀ i g, here = some (i, g) → ∃ v : Word, answers served v ∧ (v.extractLsb' 16 16).toNat = g.units % 65536 ∧
         (v.extractLsb' 8 7).toNat = min g.attached.length 127 ∧ v.getLsbD 7 = g.attached.contains r.team ∧
         v.getLsbD 4 = g.chip ∧ (v.extractLsb' 0 4).toNat = (match g.st with
           | .resident => 1 | .evicting => 2 | .mirrored => 3 | .restoring => 4)))) ∧
  (∀ (s : State) (op : Nat) (o : MemOp) (r : LaneReq), SMap.find s.ops op = some o → o.kind = .segatt → o.lanes = [r] → r.st = .formed →
     o.fail = none → s.mayAnswer o = true → s.segTurn op = true →
     let t := s.team o.team
     let here := s.segNamed t.part (s.ctx o.ctx).crec.vf r.data.toNat
     let missing := fun (i : Nat) (x : Team) =>
       { x with st := if x.st = .running ∨ x.st = .draining then .missed else x.st, missSeg := some i }
     (∀ i g, here = some (i, g) → g.st = .resident → (g.chip = true ∨ g.cluster = t.cluster) →
       Comes (.longLatencyCompletion op) s (fun w => SMap.find w.ops op = some { o with lanes := [{ r with st := .done, res := g.base }] } ∧
         { w with ops := s.ops, verdict := s.verdict } = posted (s.attach i o.team) 0 (.longLatencyCompletion op))) ∧
     (here = none → Comes (.longLatencyCompletion op) s (fun w => w.groups = s.groups ∧ SameMem s w ∧ w.segs = s.segs ∧
       (∃ o' f, SMap.find w.ops op = some o' ∧ o'.fail = some f ∧ f.cls = .segmentError ∧ f.src = o.pos) ∧
       Sent s w 0 (.longLatencyCompletion op))) ∧
     (∀ i g, here = some (i, g) → (g.st = .mirrored ∨ g.st = .resident ∧ g.chip = false ∧ g.cluster ≠ t.cluster) →
       Comes (.longLatencyCompletion op) s (fun w => ∃ area, w.groups = s.groups ∧ SameMem s w ∧ w.segs = s.segs ∧
         SMap.find w.ops op = some { o with lanes := [{ r with st := .waiting }] } ∧
         (∀ x, SMap.find s.teams o.team = some x → SMap.find w.teams o.team = some (missing i x)) ∧
         Sent s w 0 (.attachMissReplay o.team area))) ∧
     (∀ i g, here = some (i, g) → (g.st = .evicting ∨ g.st = .restoring) → Comes (.longLatencyCompletion op) s (fun w =>
       { w with verdict := s.verdict } = { s with segs := SMap.modify s.segs i (fun g => { g with waiters := g.waiters ++ [op] }) })))

/-- R323, R397: EMIT sends one record of each active lane, in lane order, to a node whose records have its size, which they reach no sooner than
the next tick (the model's, log entry 28) and after the group's earlier accesses; with no lane active it has no effect, and a node or size that
does not match is an illegal operand. -/
def Obligations.EmitSendsRecords : Prop :=
  ∀ (s : State) (a b r : Nat) (fa fb : Bool) (i : Instr),
    (i, r) ∈ [(Instr.emit16 a b fa fb, 4), (.emit32 a b fa fb, 8), (.emit64 a b fa fb, 16)] →
    Live s → RegOk s.src .v r a → SOk s b →
    let n := (s.src.sVal b).toNat
    (s.src.em = 0 → Gives i s s.g) ∧
    (s.src.em ≠ 0 → n < s.myTeam.kernel.nodes → s.nodeRecord n = 4 * r → ∃ e : Emission,
      e.launch = s.myTeam.launch ∧ e.node = n ∧ e.ctx = s.myTeam.ctx ∧ e.gid = s.cur ∧ e.owed = (s.owed 0).map Prod.snd ∧
      e.recs = (lanesOf s.src.em).map (fun l => (List.range r).map (fun k => s.src.vLane (a + k) l)) ∧
      Does i s (posted { dirtied s with emissions := SMap.set s.emissions s.ticket e, ticket := s.ticket + 1 } 1 (.recordArrival s.ticket))
        .issued s.g) ∧
    (s.src.em ≠ 0 → (s.myTeam.kernel.nodes ≤ n ∨ s.nodeRecord n ≠ 4 * r) →
      exec i s = .next (s.issueFault (s.faultOf .illegalOperand)))

/-- R72, R73, R325, R340: CSRR reads each of the seventeen control registers by its number and CSRW writes the six that are RW, keeping the
reserved bits 0; any other number, and a write of an RO register, is an illegal operand.
R162, R164, R326 to R329: CLK reads the tick counter; RDMETER and RDBKT empty their pair and are served at the home unit X + 6 cycles on, where
they read the context's account, and the whole part of its bucket level, as they then stand, and the answer goes back to the core; OPREQ sends the
request of a point within the context's range, or its withdrawal, to the home unit, and is a privilege fault without the right; YIELD changes no
architectural state.
R328: ICINV and ICINV.all wait for the group's earlier stores and then drop every instruction-cache line of the context; ICINV.all also has
the context's loop buffers flushed. -/
def Obligations.SystemWords : Prop :=
  (∀ (s : State) (d n : Nat), Live s → SOk s d →
     let g := s.src
     let t := s.team g.team
     let x := s.src.sVal d
     (∀ v, (n, v) ∈ [(0x000, BitVec.ofNat 32 (t.ctx % 1024)), (0x001, BitVec.ofNat 32 (t.part % 16 * 256 + t.crec.vf % 64)),
         (0x002, BitVec.ofNat 32 t.teamid),
         (0x003, BitVec.ofNat 32 (g.facet % 16 * 2 ^ 24 + g.core % 16 * 2 ^ 20 + g.cluster % 128 * 2 ^ 13 + g.subc % 4 * 2 ^ 11
           + g.role % 2 * 2 ^ 10 + g.gnum % 32)), (0x004, g.x), (0x005, BitVec.ofNat 32 (g.stack.length % 64)), (0x006, ofsWord t.cmofs),
         (0x007, ofsWord t.chofs), (0x008, g.csr.hndLo), (0x009, g.csr.hndHi), (0x00A, g.csr.hnden),
         (0x00B, BitVec.ofNat 32 (g.csr.hact.toNat * 2 ^ 31 + g.csr.sync.toNat % 2 ^ 31)), (0x00C, g.csr.synaLo), (0x00D, g.csr.synaHi),
         (0x00E, g.csr.epcLo), (0x00F, g.csr.epcHi), (0x010, BitVec.ofNat 32 (g.csr.eword % 4))] →
       Gives (.csrr d n) s (s.g.wrS d v)) ∧
     (0x011 ≤ n → exec (.csrr d n) s = .next (s.issueFault (s.faultOf .illegalOperand))) ∧
     (Alone s → ∀ c, (n, c) ∈ [(0x008, { s.g.csr with hndLo := x }), (0x009, { s.g.csr with hndHi := x }),
         (0x00A, { s.g.csr with hnden := x &&& 7 }), (0x00E, { s.g.csr with epcLo := x }), (0x00F, { s.g.csr with epcHi := x }),
         (0x010, { s.g.csr with eword := x.toNat % 4 })] → Gives (.csrw d n) s { s.g with csr := c }) ∧
     (n ∉ [0x008, 0x009, 0x00A, 0x00E, 0x00F, 0x010] → exec (.csrw d n) s = .next (s.issueFault (s.faultOf .illegalOperand)))) ∧
  (∀ (s : State) (d a : Nat) (fa : Bool), Live s →
     let c := s.myTeam.ctx
     let x := (s.src.sVal a).toNat
     let k := s.ctx c
     let ask := fun (k : Ctx) => { k with asks := k.asks ++
       [(s.homeCycle k.part s.g.facet, if x / 2 ^ 31 = 1 then none else some (min (max (x % 16) k.opmin) k.opmax))] }
     Gives .yieldW s { s.g with yielded := some (s.cycle (.facets s.myTeam.part) + 1) } ∧
     (SPairOk s d →
       Gives (.clk d) s (s.g.wrSPair d (BitVec.ofNat 64 s.now)) ∧
       (∀ i bucket, (i, bucket) ∈ [(Instr.rdmeter d, false), (.rdbkt d, true)] → ∃ o : MemOp,
         o.gid = s.cur ∧ o.ctx = c ∧ o.kind = .meter bucket ∧ o.dst = [(.s, d), (.s, d + 1)] ∧ o.lanes.map (fun r => r.st) = [.formed] ∧
         Does i s
           (postedAt { s with ops := SMap.set s.ops s.ticket o, ticket := s.ticket + 1 } (.facets s.myTeam.part)
             (s.cycle (.facets s.myTeam.part) + s.cross s.myTeam.part s.src.facet + 6) (.longLatencyCompletion s.ticket)) .issued
           ((s.g.emptyS d).emptyS (d + 1)))) ∧
     (SOk s a →
       (k.oprt = true → Does (.opreq a fa) s ((dirtied s).modCtx c ask) .issued s.g)) ∧
     (k.oprt = false → exec (.opreq a fa) s = .next (s.issueFault (s.faultOf .privilege)))) ∧
  (∀ (s : State), Live s →
     let dropped : State := { s with icache := s.icache.filter (fun x => x.1 / 2 ^ 64 % 65536 != s.myTeam.ctx) }
     let flush := fun (g : Group) => { g with loopBuf := g.loopBuf.map (fun b => { b with flush := true }) }
     (s.storesOut = false → Does .icinv s dropped .issued s.g ∧
       Does .icinvAll s { dropped with groups := s.groups.map (fun x =>
         if (s.team x.2.team).ctx = s.myTeam.ctx then (x.1, flush x.2) else x) } .issued (flush s.g)) ∧
     (s.storesOut = true → exec .icinv s = .next (s.verd .held) ∧ exec .icinvAll s = .next (s.verd .held))) ∧
  (∀ (s : State) (op : Nat) (o : MemOp) (r : LaneReq) (bucket : Bool), SMap.find s.ops op = some o → o.kind = .meter bucket → o.lanes = [r] →
     r.st ≠ .done →
     let c := s.ctx o.ctx
     let f := (s.grp o.gid).facet
     let v : DWord := if bucket then BitVec.ofInt 64 (c.level / 256) else BitVec.ofNat 64 (c.acct / 256)
     Comes (.longLatencyCompletion op) s (fun t => SMap.find t.ops op = some { o with lanes := [{ r with st := .done, res := v }] } ∧
       t.groups = s.groups ∧ t.ctxs = s.ctxs ∧ SameMem s t ∧
       SentAt s t (.facets c.part)
         (s.cycle (.facets c.part) + s.cross c.part f + 6 + (if f = (s.part c.part).home then 0 else 1)) (.longLatencyCompletion op)))

/-- R179, R330, R332, R338, R341, R346: TRAP stops its team at the boundary after the word with a software trap of its code, and an illegal word stops
it at the boundary before the word: the group stands there, stopped, with its registers as they were, the team is faulted with a report that
names the boundary, the tick and the word, and the report is on its way.
R332, R340, R342: a fault of an enabled class, while HACT is 0, enters the handler: EPCLO, EPCHI and EWORD hold the boundary, SYNC the
syndrome and SYNALO and SYNAHI the address, HACT becomes 1, the path stands at word 0 of the handler's packet, and the execution mask, the
stack, every register and all of memory are as they were. -/
def Obligations.TrapsAndHandlers : Prop :=
  (∀ (s : State) (n : Nat) (tm : Team), Live s → SMap.find s.teams s.g.team = some tm →
     let stops := fun (i : Instr) (at' : Pos) (cls : FaultClass) (code : Nat) =>
       ∃ (t : State) (x : Team) (r : Report), exec i s = .next t ∧ t.verdict = .trapped ∧
         t.g = { s.g.moveTo at' with stopped := true } ∧ SMap.find t.teams s.g.team = some x ∧ x.st = .faulted ∧
         x.reports = tm.reports ++ [r] ∧ r.info.cls = cls ∧ r.info.tcode = code ∧ r.info.src = { pa := s.g.pos.pa, w := s.issue.w } ∧
         r.bound = at' ∧ r.tick = s.now ∧ r.gnum = s.g.gnum ∧ r.hact = s.g.csr.hact ∧
         SentAt s t (.facets tm.part) (s.stopCycle s.g.team) (.faultReport s.g.team) ∧
         (∀ a, Memory.read t.mem a = Memory.read s.mem a) ∧ (∀ j, j ≠ s.cur → SMap.find t.groups j = SMap.find s.groups j)
     stops (.trap n) s.issue.next .softwareTrap n ∧ stops .illegalInstruction s.g.pos .illegalInstruction 0) ∧
  (∀ (s : State) (gid b : Nat) (f : FaultInfo) (bound : Pos), f.cls.hndBit = some b →
     let g := s.grp gid
     let t := s.takeFault gid f bound
     let h := t.grp gid
     let dest := pair64 g.csr.hndLo g.csr.hndHi
     g.csr.hnden.getLsbD b = true → g.csr.hact = false → g.base.toNat ≤ dest.toNat → (dest.toNat - g.base.toNat) % 12 = 0 →
     h.pos = { pa := dest, w := 0 } ∧ h.csr.hact = true ∧ pair64 h.csr.epcLo h.csr.epcHi = bound.pa ∧ h.csr.eword = bound.w ∧
     pair64 h.csr.synaLo h.csr.synaHi = f.addr.getD 0 ∧ (h.csr.sync.extractLsb' 0 8).toNat = f.cls.code ∧
     h.csr.sync.getLsbD 15 = f.addr.isSome ∧ (h.csr.sync.extractLsb' 16 5).toNat = f.lane % 32 ∧
     (h.csr.sync.extractLsb' 21 3).toNat = f.cause % 8 ∧ (h.csr.sync.extractLsb' 24 2).toNat = f.src.w % 4 ∧
     h.csr.sync.getLsbD 26 = f.cons ∧ h.csr.sync.getLsbD 27 = f.defer ∧
     h.csr.hndLo = g.csr.hndLo ∧ h.csr.hndHi = g.csr.hndHi ∧ h.csr.hnden = g.csr.hnden ∧
     { h with pos := g.pos, csr := g.csr, loopBuf := g.loopBuf, wake := g.wake } = g ∧
     h.wake = s.cycle (.facets (s.team g.team).part) + 4 ∧ t.verdict = .trapped ∧
     (∀ j x, SMap.find s.teams j = some x → (x.st ≠ .saving → SMap.find t.teams j = some x)) ∧ t.mem = s.mem ∧
     (∀ j, j ≠ gid → SMap.find t.groups j = SMap.find s.groups j))

/-- R331, R344: TRAPRET clears HACT and goes on at the word that EPCLO, EPCHI and EWORD name, with the execution mask and the stack as they
stand; EWORD 3 is an illegal operand, and an address that is no packet of the kernel a misalignment. -/
def Obligations.TrapReturn : Prop :=
  ∀ (s : State), Live s → Alone s →
    let dest := pair64 s.g.csr.epcLo s.g.csr.epcHi
    let inCode := s.g.base.toNat ≤ dest.toNat ∧ (dest.toNat - s.g.base.toNat) % 12 = 0
    (s.g.csr.eword ≠ 3 → inCode → Does .trapret s s .transferred
      (Group.moveTo { s.g with csr := { s.g.csr with hact := false } } { pa := dest, w := s.g.csr.eword })) ∧
    (s.g.csr.eword = 3 → exec .trapret s = .next (s.issueFault (s.faultOf .illegalOperand))) ∧
    (s.g.csr.eword ≠ 3 → ¬ inCode → exec .trapret s = .next (s.issueFault (s.faultAt .misalignment 0 0 (some dest))))

/-- R16, R17, R30, R62 to R65, R178, R336: of a uniform word of two sources, one whose register number lies outside the group's budget is an
illegal operand; an errored source's own fault is taken, marked as a consumer's; an empty block-mode source or destination holds the set back
with nothing changed; an empty trap-mode source is a full-empty fault.
Which word of a set governs follows log entry 27. -/
def Obligations.OperandFaults : Prop :=
  ∀ (s : State) (d a b : Nat) (fa fb : Bool) (i : Instr) (f : Word → Word → Word), (i, f) ∈ uniTable d a b fa fb → Live s →
    (s.src.s.length ≤ a ∨ s.src.s.length ≤ b ∨ s.src.s.length ≤ d → exec i s = .next (s.issueFault (s.faultOf .illegalOperand))) ∧
    (∀ e, a < s.src.s.length → b < s.src.s.length → d < s.src.s.length → (s.src.sReg a).err = some e →
      exec i s = .next (s.issueFault { e with cons := true })) ∧
    (SOk s b → SOk s d → a < s.src.s.length → (s.src.sReg a).err = none → (s.src.sReg a).full = false → (s.src.sReg a).pend = false →
      (fa = false → ∃ t, exec i s = .next t ∧ t.verdict = .held ∧ t.groups = s.groups ∧ work t = work s ∧
        { t with agenda := s.agenda, ctxs := s.ctxs, verdict := s.verdict } = s) ∧
      (fa = true → exec i s = .next (s.issueFault (s.faultOf .fullEmpty))))

/-- R43: when what a blocked path awaits has come, the path is ready: the running path, or an entry of the stack, stands at the word after its
blocking word with its mask as it was, and nothing else changes.
R337, R338, R341, R402: a deferred fault is held for its group's next boundary, and a second of its class, of another word, only marks the first;
a stopped team's fault record goes to the next slot of its partition's fault ring, of 64 bytes, once nothing of the team is outstanding. -/
def Obligations.PathsAndFaultsComeBack : Prop :=
  (∀ (s : State) (g : Nat) (x : Group), SMap.find s.groups g = some x → s.anyMet x = true →
     Comes (.pathReady g) s (fun t =>
       (∀ b, x.block = some b → s.blockMet x.team b = true → (t.grp g).block = none ∧ (t.grp g).pos = b.after) ∧
       (∀ b, x.block = some b → s.blockMet x.team b = false → (t.grp g).block = some b ∧ (t.grp g).pos = x.pos) ∧
       (t.grp g).stack = x.stack.map (fun e => match e.block with
         | some b => if s.blockMet x.team b then { e with block := none, pos := b.after } else e
         | none => e) ∧
       { t.grp g with block := x.block, pos := x.pos, stack := x.stack, loopBuf := x.loopBuf } = x ∧
       { t with groups := s.groups, verdict := s.verdict } = s ∧
       ∀ j, j ≠ g → SMap.find t.groups j = SMap.find s.groups j)) ∧
  (∀ (s : State) (g t : Nat) (f : FaultInfo) (x : Group),
     (SMap.find s.groups g = some x →
       ((∀ d, d ∈ x.deferred → d.info.cls ≠ f.cls) → Comes (.deferredFaultReport g f) s (fun t =>
         t.grp g = { x with deferred := x.deferred ++ [{ info := f, ovf := false }] } ∧
         { t with groups := s.groups, verdict := s.verdict } = s ∧ ∀ j, j ≠ g → SMap.find t.groups j = SMap.find s.groups j)) ∧
       (∀ pre d post, x.deferred = pre ++ d :: post → d.info.cls = f.cls → (∀ e, e ∈ pre ++ post → e.info.cls ≠ f.cls) →
         Comes (.deferredFaultReport g f) s (fun t =>
           t.grp g = { x with deferred := pre ++ { d with ovf := d.ovf || decide (d.info.src ≠ f.src) } :: post } ∧
           { t with groups := s.groups, verdict := s.verdict } = s ∧ ∀ j, j ≠ g → SMap.find t.groups j = SMap.find s.groups j))) ∧
     (∀ tm p pre r post, SMap.find s.teams t = some tm → SMap.find s.parts tm.part = some p → tm.reports = pre ++ r :: post →
       (∀ e, e ∈ pre → e.sent = true) → r.sent = false → s.busy t = false → (∀ n, tm.stopAt = some n → n ≤ s.cycle (.facets tm.part)) →
       (p.ring.wptr + 4294967296 - p.ring.rptr) % 4294967296 < 2 ^ p.ring.log2 →
       let at' := p.ring.base + 64 * (p.ring.wptr % 2 ^ p.ring.log2)
       Comes (.faultReport t) s (fun t' => SameBut at' 64 s t' ∧
         Memory.readN t'.mem at' 64 = r.record tm.teamid tm.ctx % 256 ^ 64 ∧ t'.groups = s.groups ∧
         SMap.find t'.parts tm.part = some { p with ring := { p.ring with wptr := (p.ring.wptr + 1) % 4294967296 } } ∧
         SMap.find t'.teams t = some { tm with reports := pre ++ { r with sent := true } :: post })))

/-- R55, R62, R257, R271, R336: the completion of a long-latency word writes its destinations in the lanes that made accesses, with its narrow
values extended, and makes them full; where its service failed every destination is in error with that fault. The word is no longer outstanding,
no other group changes and no byte of memory does; a store or another word without destination is acknowledged, and its fault is deferred.
R122, R135: an answer of one of several units, or of one while lanes are still to be served, leaves the word outstanding; the acknowledgements
of a store's invalidations come first where it is of system scope; and a reflected word waits for those that precede it. A read of the home unit
that is still to be served and an attach that has waited are not yet complete (R164, R320).
That each unit answers once, when all its lanes are over, is log entry 21's. -/
def Obligations.OperationsComplete : Prop :=
  ∀ (s : State) (op : Nat) (o : MemOp) (x : Group), SMap.find s.ops op = some o → SMap.find s.groups o.gid = some x →
    let has := maskOf (fun l => (o.lane l).isSome)
    let res : Nat → DWord := fun l => match o.lane l with
      | some r => (match o.kind with | .ld 1 true => (r.res.setWidth 8).signExtend 64 | .ld 2 true => (r.res.setWidth 16).signExtend 64 | _ => r.res)
      | none => 0
    let frame := fun (t : State) => SMap.find t.ops op = none ∧ (∀ j, j ≠ op → SMap.find t.ops j = SMap.find s.ops j) ∧ SameMem s t ∧
      (∀ j, j ≠ o.gid → SMap.find t.groups j = SMap.find s.groups j)
    let all := ∀ r, r ∈ o.lanes → r.over = true
    let owes := s.invals.any (fun y => y.1 == op) = true
    let stays := fun (t : State) => t.groups = s.groups ∧ SameMem s t ∧ t.invals = s.invals ∧ (∀ j, j ≠ op → SMap.find t.ops j = SMap.find s.ops j) ∧
      ∃ o', SMap.find t.ops op = some o' ∧ o'.lanes.map (fun r => (r.lane, r.st, r.res, r.stat)) = o.lanes.map (fun r => (r.lane, r.st, r.res, r.stat))
    (s.mayAnswer o = false → exec (.longLatencyCompletion op) s = .next (s.verd .held) ∧
      exec (.storeAcknowledgement op) s = .next (s.verd .held)) ∧
    (o.unserved = none → o.reattach = false → s.mayAnswer o = true → (¬ all ∨ 2 ≤ o.unpaid.length) →
      Comes (.longLatencyCompletion op) s stays) ∧
    (o.unserved = none → o.reattach = false → s.mayAnswer o = true → all → o.unpaid.length ≤ 1 →
    (∀ d, o.fail = none → o.dst = [(.v, d)] → o.stat = none → Comes (.longLatencyCompletion op) s (fun t => frame t ∧
      t.grp o.gid = x.wrV d (x.tag d) has (fun l => (res l).setWidth 32))) ∧
    (∀ d e, o.fail = none → o.dst = [(.v, d), (.v, e)] → o.stat = none → Comes (.longLatencyCompletion op) s (fun t => frame t ∧
      t.grp o.gid = (x.wrV d (x.tag d) has (fun l => (res l).setWidth 32)).wrV e ((x.wrV d (x.tag d) has (fun l => (res l).setWidth 32)).tag e) has
        (fun l => (res l >>> 32).setWidth 32))) ∧
    (∀ d, o.fail = none → o.dst = [(.s, d)] → o.stat = none → Comes (.longLatencyCompletion op) s (fun t => frame t ∧
      t.grp o.gid = x.wrS d ((res 0).setWidth 32))) ∧
    (∀ d e, o.fail = none → o.dst = [(.s, d), (.s, e)] → o.stat = none → Comes (.longLatencyCompletion op) s (fun t => frame t ∧
      t.grp o.gid = (x.wrS d ((res 0).setWidth 32)).wrS e ((res 0 >>> 32).setWidth 32))) ∧
    (∀ f d, o.fail = some f → o.dst = [(.v, d)] → o.stat = none → Comes (.longLatencyCompletion op) s (fun t => frame t ∧
      t.grp o.gid = x.setVReg d { x.vReg d with full := false, err := some f }))) ∧
    (s.mayAnswer o = true →
      (all → (o.unpaid = [] ∨ o.unpaid.length = 1 ∧ (polScope o.pol ≠ 3 ∨ ¬ owes)) →
        Comes (.storeAcknowledgement op) s (fun t => frame t ∧ t.groups = s.groups ∧
          ∀ f, o.fail = some f → Sent s t 0 (.deferredFaultReport o.gid { f with defer := true }))) ∧
      (o.unpaid ≠ [] → (¬ all ∨ 2 ≤ o.unpaid.length ∨ polScope o.pol = 3 ∧ owes) → Comes (.storeAcknowledgement op) s stays) ∧
      (o.unpaid = [] → ¬ all → Comes (.storeAcknowledgement op) s (fun t => t.ops = s.ops ∧ t.groups = s.groups ∧ SameMem s t ∧
        ∀ y, y ∈ t.invals ↔ y ∈ s.invals ∧ y.1 ≠ op)))

/-- R121, R158, R332 to R334, R411, R429: a memory word whose every lane passes its checks, and whose walks their apertures let through, is
cleared: its lanes have their places, its group waits for it no more and its service is called, for the time at which its requests have crossed to
their homes; one of whose lanes some fail is undone, with the walks of its checks charged, and the fault of the lowest such lane is taken before
its set. An entry that a peer has accepted is verified for its context. What a peer answers is free (log entry 10). -/
def Obligations.ClearanceOfMemoryWords : Prop :=
  ∀ (s : State) (op : Nat) (o : MemOp), SMap.find s.ops op = some o → o.kind ≠ .pref → o.kind ≠ .lflush →
    let pages := o.lanes.filterMap (fun r => match s.clearLane op o r with | .ok _ _ _ (some p) => some (s.lanePage o r, p) | _ => none)
    (o.lanes ≠ [] → (∀ r, r ∈ o.lanes → ∃ key home slot page, s.clearLane op o r = .ok key home slot page) →
      Admitted s (s.opVf o) (s.walkUnits (s.team o.team) pages) →
      Comes (.memoryWordClearance op) s (fun t => (TablesClear s (s.team o.team).crec (pages.map Prod.fst) → SameOwn s t) ∧ (∃ o', SMap.find t.ops op = some o' ∧ o'.cleared = true ∧
        o'.lanes.map (fun q => (q.lane, q.addr, q.st)) = o.lanes.map (fun q => (q.lane, q.addr, .cleared)) ∧
        (∀ q, q ∈ o'.lanes → ∃ r page, r ∈ o.lanes ∧ r.lane = q.lane ∧ s.clearLane op o r = .ok q.key q.home q.slot page)) ∧
        (∀ x, SMap.find s.groups o.gid = some x → x.clear = some op → (t.grp o.gid).clear = none) ∧
        (∃ q e y, q ∈ o.lanes ∧ laneOf t op q.lane = some y ∧ Sent s t (s.upTicks (s.team o.team).part y.home) e ∧ e ∈ [Ev.sliceAccessService op q.lane, .homeAtomicService op q.lane,
          .reflectorEntry op q.lane, .conditionMonitorTest op q.lane, .mergeRequestPass op q.lane]))) ∧
    (∀ pre r post c k, o.lanes = pre ++ r :: post → (∀ q, q ∈ pre → ∃ key home slot page, s.clearLane op o q = .ok key home slot page) →
      s.clearLane op o r = .fault c k → (∀ q, q ∈ post → ∀ h a, s.clearLane op o q ≠ .ask h a) →
      ∃ u : State, { u with ops := s.ops, snaps := s.snaps, groups := s.groups, l2 := s.l2, crypt := s.crypt, mem := s.mem, ctxs := s.ctxs,
                            agenda := s.agenda, apers := s.apers, parts := s.parts, fleet := s.fleet, ticket := s.ticket } = s ∧
        (TablesClear s (s.team o.team).crec (o.lanes.map (fun q => s.lanePage o q / 65536 * 65536)) → SameOwn s u) ∧
        SMap.find u.ops op = none ∧ (∀ j, j ≠ op → SMap.find u.ops j = SMap.find s.ops j) ∧
        (∀ j, j ≠ o.gid → SMap.find u.groups j = SMap.find s.groups j) ∧ u.grp o.gid = (match SMap.find s.groups o.gid with | some x => { x.undo o.undo with clear := none } | none => s.grp o.gid) ∧
        exec (.memoryWordClearance op) s = .next (u.takeFault o.gid
          { cls := c, cause := k, lane := r.lane, addr := some r.addr, src := o.pos, cons := false, defer := false, tcode := 0 } o.start)) ∧
    (∀ c handle k, SMap.find s.ctxs c = some k → handle ∉ k.verified → Comes (.peerKeyAccept c handle) s (fun t =>
      SMap.find t.ctxs c = some { k with verified := k.verified ++ [handle] } ∧
      { t with ctxs := s.ctxs, verdict := s.verdict } = s ∧ ∀ j, j ≠ c → SMap.find t.ctxs j = SMap.find s.ctxs j))

/-- R108, R114, R115, R143, R254, R257, R258: a load's or a store's line is served at its home: a load's lanes on the line take the bytes at their
addresses, narrow and wide, and memory does not change; a store's lanes write their low bytes there in lane order and nothing else changes; and
every one of these lanes is done.
That lanes on one line are served in one access is log entry 21's reading. -/
def Obligations.LoadsAndStoresServed : Prop :=
  ∀ (s : State) (op : Nat) (o : MemOp) (r : LaneReq), Servable s op o r (s.fillsOf o r) → r.st = .cleared →
    SMap.find s.ops op = some o → (o.origin = none ∨ DirRoom s (lineOf r.key)) →
    (∀ n sx, o.kind = .ld n sx → Comes (.sliceAccessService op r.lane) s (fun t => SameOwn s t ∧ t.groups = s.groups ∧
      ∀ q, q ∈ o.mates r → ServedWith t op q.lane (BitVec.ofNat 64 (Memory.readN t.mem q.key n)) 0)) ∧
    (∀ n, o.kind = .st n → Writable s o.team r.key → (∀ q, q ∈ o.mates r → OffBars s q) →
      Comes (.sliceAccessService op r.lane) s (fun t => t.groups = s.groups ∧
        (∃ m, NativeMem s m ∧ t.mem = (o.mates r).foldl (fun m q => Memory.writeN m q.key q.data.toNat n) m) ∧
        (∀ x, Native s x → (∀ q, q ∈ o.mates r → x < q.key ∨ q.key + n ≤ x) → Memory.read t.mem x = Memory.read s.mem x) ∧
        ∀ q, q ∈ o.mates r → ServedWith t op q.lane 0 0))

/-- R101, R102, R125, R263 to R267: an atomic is one action at its home: the old word is its answer and the new word of its operation stands
there; FATOM and CADD add in float, CRD answers the rounded sum of its pair, and CRD.rst clears the pair; no other byte changes.
R275 to R277, R423: LKL answers 1 and takes a free line where its virtual function's quota and the slice's table allow, 2 where the line is
locked and 3 where they do not; ULKL frees a line of its own context and otherwise fails; neither touches memory. -/
def Obligations.AtomicsAndLocksServed : Prop :=
  (∀ (s : State) (op : Nat) (o : MemOp) (r : LaneReq), o.lanes = [r] → Servable s op o r (s.rmwFills o r) → r.st = .cleared →
     Writable s o.team r.key → OffBars s r → r.key % 4 = 0 → ((o.kind = .cadd ∨ ∃ b, o.kind = .crd b) → r.key % 8 = 0) →
     (o.origin.isSome = true → s.coreTie r = false) →
     let m := memWord s r.key
     let e := memWord s (r.key + 4)
     let v : Word := r.data.setWidth 32
     let serves := fun (new : Option (Nat × Nat)) (res : DWord) => Comes (.homeAtomicService op r.lane) s (fun t => t.groups = s.groups ∧
       (∃ m', NativeMem s m' ∧ t.mem = (match new with | some (x, n) => Memory.writeN m' r.key x n | none => m')) ∧
       (∀ a, Native s a → a < r.key ∨ r.key + 8 ≤ a → Memory.read t.mem a = Memory.read s.mem a) ∧ ServedWith t op r.lane res 0)
     (∀ a f, o.kind = .atom a → (a, f) ∈ atomTable → serves (some ((f m v r.cmp).toNat, 4)) (m.setWidth 64)) ∧
     (∀ a, o.kind = .fatom a → serves (some ((fatomNew a m v).toNat, 4)) (m.setWidth 64)) ∧
     (o.kind = .cadd → serves (some ((caddPair m e v).1.toNat + (caddPair m e v).2.toNat * 2 ^ 32, 8)) 0) ∧
     (o.kind = .crd false → serves none ((crdValue m e).setWidth 64)) ∧
     (o.kind = .crd true → serves (some (0, 8)) ((crdValue m e).setWidth 64))) ∧
  (∀ (s : State) (op k : Nat) (o : MemOp) (r : LaneReq), o.lanes = [r] → Servable s op o r 0 → r.st = .cleared → r.home = .slice k →
     (o.origin.isSome = true → s.coreTie r = false) →
     let line := r.key / 64
     let vf := s.opVf o
     let held := s.locks.filter (fun x => x.2.slice == k)
     (o.kind = .lkl →
       (SMap.find s.locks line ≠ none → Comes (.homeAtomicService op r.lane) s (fun t => SameMem s t ∧ t.locks = s.locks ∧
         ServedWith t op r.lane 2 0)) ∧
       (SMap.find s.locks line = none → ((s.aper k vf).lkq ≤ (held.filter (fun x => x.2.vf == vf)).length ∨ 512 ≤ held.length) →
         Comes (.homeAtomicService op r.lane) s (fun t => SameMem s t ∧ t.locks = s.locks ∧ ServedWith t op r.lane 3 0)) ∧
       (SMap.find s.locks line = none → (held.filter (fun x => x.2.vf == vf)).length < (s.aper k vf).lkq → held.length < 512 →
         Comes (.homeAtomicService op r.lane) s (fun t => SameMem s t ∧
           t.locks = SMap.set s.locks line { ctx := o.ctx, vf := vf, slice := k } ∧ ServedWith t op r.lane 1 0))) ∧
     (o.kind = .ulkl →
       (∀ l, SMap.find s.locks line = some l → l.ctx = o.ctx → Comes (.homeAtomicService op r.lane) s (fun t => SameMem s t ∧
         t.locks = SMap.erase s.locks line ∧ ServedWith t op r.lane 0 0)) ∧
       ((∀ l, SMap.find s.locks line = some l → l.ctx ≠ o.ctx) → Comes (.homeAtomicService op r.lane) s (fun t => SameMem s t ∧
         t.locks = s.locks ∧ ∃ q, laneOf t op r.lane = some q ∧ q.st = .failed))))

/-- R134, R268 to R271, R384, R410: at its home, once those of earlier cycles have acted, a push on an object with room, whose slot its context
may both read and write, stores its value in the next slot and adds 1 to the count, a pop takes the last value and takes 1 off, each with status
1; a full or an empty object answers 3, and a malformed header, or a slot that cannot be reached, fails; no other byte changes.
R132, R133, R270, R271, R376, R377: a cleared pool word comes to the first router of its route in the next cycle; it is held in a router's
reflector that has a slot free for its input port, and goes on towards its home when its time is over; while it is held, the oldest push of an
object and its oldest pop there meet: the pop takes the push's value, and both have the status of that reflector. -/
def Obligations.PoolWords : Prop :=
  (∀ (s : State) (op key : Nat) (home : Home) (slot : Option Nat) (o : MemOp) (r : LaneReq), o.lanes = [r] →
     Servable s op o r (s.absent r.key).toNat → r.st = .moving → s.poolBehind op r.lane r = false → Writable s o.team r.key → r.key % 64 = 0 →
     let kind := Memory.readN s.mem r.key 1
     let cap := Memory.readN s.mem (r.key + 4) 4
     let count := Memory.readN s.mem (r.key + 8) 4
     let base := Memory.readN s.mem (r.key + 16) 8
     let sound := (kind = 1 ∨ kind = 2) ∧ count ≤ cap ∧ base % 8 = 0
     let read := (s.useLine o r false).invalidatePeers (lineOf r.key)
     let at' := fun (n : Nat) (p : XRes → Prop) => ∀ u, u = s ∨ u = read → p (u.mapVa (s.tlbCluster o) (s.opPart o) (s.slotTables o) (base + 8 * n) .rmw)
     let hits := fun (x : XRes) => ∃ pte shift hit, x = .ok key home slot pte shift hit
     let lineOk := SMap.getD s.crypt (key / 64) [] = s.keyPair slot ∧ (∀ d, SMap.find s.dir (key / 64) = some d → d.st ≠ .modified) ∧
       s.slotClash { r with key := key, slot := slot } = false ∧ (key / 64 = r.key / 64 → slot = r.slot) ∧ s.isBad (key / 64) = false ∧
       key % 8 = 0 ∧ Native s key ∧ Native s r.key ∧
       (s.absent key = true → key / 64 ≠ r.key / 64 → Open s (768 + sliceOf key) (s.opVf o) (if r.home = .slice (sliceOf key) then 2 else 1))
     (o.kind = .qpush → sound → count < cap → at' count hits → lineOk → Writable s o.team key →
       Comes (.poolWordAtHome op r.lane) s (fun t => t.groups = s.groups ∧ ServedWith t op r.lane 0 1 ∧
         ∃ m, NativeMem s m ∧ t.mem = Memory.writeN (Memory.writeN m key r.data.toNat 8) (r.key + 8) (count + 1) 4)) ∧
     (o.kind = .qpop → sound → 0 < count → at' (count - 1) hits → lineOk →
       Comes (.poolWordAtHome op r.lane) s (fun t => t.groups = s.groups ∧
         ServedWith t op r.lane (BitVec.ofNat 64 (Memory.readN s.mem key 8)) 1 ∧
         ∃ m, NativeMem s m ∧ t.mem = Memory.writeN m (r.key + 8) (count - 1) 4)) ∧
     (o.kind = .qpush ∧ sound ∧ count = cap ∨ o.kind = .qpop ∧ sound ∧ count = 0 →
       Comes (.poolWordAtHome op r.lane) s (fun t => SameOwn s t ∧ t.groups = s.groups ∧ ServedWith t op r.lane 0 3)) ∧
     ((o.kind = .qpush ∨ o.kind = .qpop) ∧ ¬ sound ∨
         (∃ c k, sound ∧ (o.kind = .qpush ∧ count < cap ∧ at' count (fun x => x = .fault c k) ∨
           o.kind = .qpop ∧ 0 < count ∧ at' (count - 1) (fun x => x = .fault c k))) →
       (Native s r.key → Comes (.poolWordAtHome op r.lane) s (fun t => SameOwn s t ∧ ∃ q, laneOf t op r.lane = some q ∧ q.st = .failed)))) ∧
  (∀ (s : State) (op n : Nat) (o : MemOp) (r : LaneReq), SMap.find s.ops op = some o → o.lane r.lane = some r → (o.lanes.map (fun q => q.lane)).Nodup →
     let route := s.poolRoute o r
     let from' := if o.origin.isSome then 129 else 0
     let port := if r.place = 0 then from' else (route[r.place - 1]?.getD 0) + 1
     let cyc := s.cycle .uncore
     let long := cyc + 8 + 4 * polLinger o.pol
     (r.st = .cleared → s.orderWaits op o r = false → Comes (.reflectorEntry op r.lane) s (fun t => SameMem s t ∧ t.refl = s.refl ∧
       SentAt s t .uncore (cyc + 1) (.reflectorEntry op r.lane) ∧ laneOf t op r.lane = some { r with st := .moving, since := cyc + 1 })) ∧
     (route[r.place]? = some n → r.st = .moving → (∀ e, e ∈ s.refl → ¬ (e.op = op ∧ e.lane = r.lane)) → r.since ≤ cyc →
       let used := (s.refl.filter (fun e => e.place == n && e.port == port && e.holds cyc)).length
       let own : RefEntry := { place := n, port := port, op := op, lane := r.lane, cyc := cyc, until' := long - 1 }
       (used < 16 → Comes (.reflectorEntry op r.lane) s (fun t => SameMem s t ∧ t.refl = s.refl ++ [own] ∧
         Sent s t 0 (.reflectorForward op r.lane) ∧ SentAt s t .uncore long (.reflectorForward op r.lane) ∧
         laneOf t op r.lane = some { r with since := long })) ∧
       (16 ≤ used → Comes (.reflectorEntry op r.lane) s (fun t => SameMem s t ∧ t.refl = s.refl ∧
         SentAt s t .uncore (cyc + 8) (.reflectorForward op r.lane) ∧ laneOf t op r.lane = some { r with since := cyc + 8 }))) ∧
     (r.st = .moving → r.place + 1 = route.length → r.since ≤ cyc →
       Comes (.reflectorForward op r.lane) s (fun t => SameMem s t ∧
         t.refl = s.refl.filter (fun e => !(e.op == op && e.lane == r.lane)) ∧
         laneOf t op r.lane = some { r with place := r.place + 1 } ∧ SentAt s t .uncore cyc (.poolWordAtHome op r.lane))) ∧
     (∀ a b oa ob ra rb, r.st = .moving → route[r.place]? = some n → cyc < r.since →
       s.oldest n r.key (s.opPart o) true = some a → s.oldest n r.key (s.opPart o) false = some b →
       SMap.find s.ops a.op = some oa → oa.lane a.lane = some ra → (oa.lanes.map (fun q => q.lane)).Nodup →
       SMap.find s.ops b.op = some ob → ob.lane b.lane = some rb → (ob.lanes.map (fun q => q.lane)).Nodup →
       (∀ e, e ∈ s.refl → e ≠ a → ¬ (e.op = a.op ∧ e.lane = a.lane)) → (∀ e, e ∈ s.refl → e ≠ b → ¬ (e.op = b.op ∧ e.lane = b.lane)) →
       Comes (.reflectorForward op r.lane) s (fun t => SameMem s t ∧ a ∉ t.refl ∧ b ∉ t.refl ∧
         ServedWith t b.op b.lane ra.data (BitVec.ofNat 32 (2 + 256 * n)) ∧ ServedWith t a.op a.lane 0 (BitVec.ofNat 32 (2 + 256 * n)))))

/-- R272 to R274: a WAITC whose condition holds for the word at its address completes with that word; where it does not hold the slice's condition
monitor registers it, and where the monitor has no entry left, or the address is not a slice's (log entry 47), the core asks again after 512
router cycles.
R131, R259, R373, R374, R383, R416, R418, R470: a merging read that meets an open entry of its line and network joins it and goes no further;
where there is none it opens one, if the table has room, and goes on to the next router, 8 cycles away; an entry whose answer leaves closes and
gives each requester that it holds at its own router the bytes at its address, or its failure, where the line is bad, is under another key slot,
or is no longer the requester's to read. -/
def Obligations.MonitorsAndMerges : Prop :=
  (∀ (s : State) (op cc : Nat) (o : MemOp) (r : LaneReq), o.lanes = [r] → o.kind = .waitc cc → cc < 10 → r.st = .cleared → r.key % 4 = 0 →
     (∀ m, m ∈ s.mons → ¬ (m.queue = none ∧ m.op = op ∧ m.lane = r.lane)) →
     let x := memWord s r.key
     let entry : MonEntry := { key := r.key, op := op, lane := r.lane, queue := none }
     let asksAgain := Comes (.conditionMonitorTest op r.lane) s (fun t => SameOwn s t ∧ t.mons = s.mons ∧
       SentAt s t .uncore (s.cycle .uncore + 512) (.waitcPoll op r.lane))
     (Servable s op o r (s.absent r.key).toNat → Native s r.key →
       (holdsCc cc x r.cmp → Comes (.conditionMonitorTest op r.lane) s (fun t => SameOwn s t ∧ t.mons = s.mons ∧
         ServedWith t op r.lane (x.setWidth 64) 0)) ∧
       (∀ k, ¬ holdsCc cc x r.cmp → r.home = .slice k →
         ((s.mons.filter (fun m => sliceOfKey m.key == k)).length < 4096 →
           Comes (.conditionMonitorTest op r.lane) s (fun t => SameOwn s t ∧ t.mons = s.mons ++ [entry])) ∧
         (4096 ≤ (s.mons.filter (fun m => sliceOfKey m.key == k)).length → asksAgain)) ∧
       (¬ holdsCc cc x r.cmp → (∀ k, r.home ≠ .slice k) → asksAgain)) ∧
     (∀ o', SMap.find s.ops op = some o' → o'.lane r.lane = some r →
       Comes (.waitcPoll op r.lane) s (fun t => Sent s t 0 (.conditionMonitorTest op r.lane) ∧
         { t with agenda := s.agenda, verdict := s.verdict } = s))) ∧
  (∀ (s : State) (op k n id : Nat) (o : MemOp) (r : LaneReq), SMap.find s.ops op = some o → o.lane r.lane = some r →
     (o.lanes.map (fun q => q.lane)).Nodup → r.st = .cleared → r.home = .slice k →
     let net := (s.team o.team).part
     let line := r.key / 64
     let cyc := s.cycle .uncore
     let table := s.merges.filter (fun m => m.place == n)
     let mine := fun (m : MergeEntry) => m.line == line && m.net == net
     ((s.mergeRoute o k)[r.place]? = some n → r.place ≠ 255 → r.since ≤ cyc →
       (∀ m, table.find? mine = some m → m.tags.length < 32 → Comes (.mergeRequestPass op r.lane) s (fun t => SameMem s t ∧
         t.merges = s.merges.map (fun x => if x.id = m.id then { x with tags := x.tags ++ [(op, r.lane)] } else x) ∧
         ∀ q, q ∈ o.mates r → laneOf t op q.lane = some { q with place := 255 })) ∧
       (table.find? mine = none → table.length < 16 → Comes (.mergeRequestPass op r.lane) s (fun t => SameMem s t ∧
         t.merges = s.merges ++ [{ id := s.ticket, place := n, line := line, net := net, tags := [(op, r.lane)], val := none }] ∧
         SentAt s t .uncore (cyc + 8) (.mergeRequestPass op r.lane) ∧
         laneOf t op r.lane = some { r with place := r.place + 1, since := cyc + 8 }))) ∧
     (∀ m v, s.merges.find? (fun m => m.id == id && m.val.isSome) = some m → m.val = some v → m.tags = [(op, r.lane)] →
       s.below m.place (op, r.lane) = [] →
       let kept := s.admitted o r = true ∧ r.slot = v.slot ∧ v.bad = false
       Comes (.mergedResponseSplit id) s (fun t => SameMem s t ∧ t.merges = s.merges.filter (fun x => x.id != id) ∧
         ∀ q, q ∈ o.mates r → (kept → ServedWith t op q.lane (BitVec.ofNat 64 (v.val / 256 ^ (q.key % 64) % 2 ^ 32)) 0) ∧
           (¬ kept → ∃ y, laneOf t op q.lane = some y ∧ y.st = .failed))))

/-- R113, R370, R371, R414: the host writes its memory, or device memory, byte by byte and reads change nothing; a peer's access that an export admits
sets out for its home as an operation of the virtual function that exported it, and one that none admits has no effect; a peer that reads
a line becomes a sharer of it, and one that owns it is the only one, unless a monitor stands on the line; a peer's invalidation drops this
device's copy. What a peer answers is free (log entry 10). -/
def Obligations.PeersAndHostAccess : Prop :=
  (∀ (s : State) (addr line : Nat) (data : List Nat),
    ((∀ l d, SMap.find s.dir l = some d → d.st ≠ .modified) →
      Comes (.hostAccess true true addr data) s (fun t => t.groups = s.groups ∧
        (∀ k, k < data.length → Memory.read t.mem (hostKey + addr + k) = BitVec.ofNat 8 (data.getD k 0)) ∧
        ∀ y, y < hostKey + addr ∨ hostKey + addr + data.length ≤ y → Memory.read t.mem y = Memory.read s.mem y)) ∧
    (Comes (.hostAccess false true addr data) s (fun t => { t with verdict := s.verdict } = s)) ∧
    (∀ l, SMap.find s.l2 line = some l → l.whose ≠ .home → Comes (.peerInvalidation line) s (fun t => SMap.find t.l2 line = none ∧
      SameBut (64 * line) 64 s t ∧ t.groups = s.groups ∧ t.ops = s.ops ∧ (∀ j, j ≠ line → SMap.find t.l2 j = SMap.find s.l2 j)))) ∧
  (∀ (s : State) (peer net key who data linger v c k pte sh : Nat) (va : DWord) (kind : MemKind) (cmp : Word) (home : Home) (slot : Option Nat) (hit : Bool),
    kind.fromPeer = true → va.toNat % kind.peerBytes = 0 →
    (s.exporter net key va.toNat kind = some v → s.ctxOfVf net v = some c →
      s.mapVa (8 * (s.part net).home) net (s.ctx c).crec va.toNat (if kind = .own then .store else kind.acc) = .ok k home slot pte sh hit →
      Comes (.peerAccess peer net key va who kind { data := data, cmp := cmp, linger := linger }) s (fun t => ∃ o,
        SMap.find t.ops s.ticket = some o ∧ polLinger o.pol = linger % 64 ∧ o.origin = some { peer := peer, part := net, vf := v } ∧ o.kind = kind.byEight ∧ o.cleared = true ∧
        (∀ q, q ∈ o.lanes → q.st = .cleared ∧ q.home = home ∧ q.slot = slot ∧ q.cmp = cmp ∧ q.key = k + 8 * q.lane ∧
          q.data = BitVec.ofNat 64 (data / 2 ^ (64 * q.lane))) ∧ o.lanes ≠ [] ∧
        Sent s t 0 (o.kind.service home s.ticket 0) ∧ SameMem s t ∧ t.groups = s.groups ∧
        ∀ j, j ≠ s.ticket → SMap.find t.ops j = SMap.find s.ops j)) ∧
    (s.exporter net key va.toNat kind = none → Comes (.peerAccess peer net key va who kind { data := data, cmp := cmp, linger := linger }) s (fun t =>
      { t with dir := s.dir, verdict := s.verdict } = s))) ∧
  (∀ (s : State) (op : Nat) (o : MemOp) (r : LaneReq) (x : Origin), o.lanes = [r] → r.st = .cleared → o.origin = some x →
    let line := r.key / 64
    DirRoom s line →
    (∀ n sx, o.kind = .ld n sx → SMap.find s.dir line = none → Servable s op o r (s.fillsOf o r) →
      Comes (.sliceAccessService op r.lane) s (fun t => SameOwn s t ∧
        SMap.find t.dir line = some { st := .shared, ids := [x.peer], vf := x.vf, seen := [x.peer], slot := r.slot })) ∧
    (o.kind = .own → Servable s op o r (s.fillsOf o r) → s.pageBusy (r.key / 65536) = false →
      ((∀ m, m ∈ s.mons → m.key / 64 ≠ line) → Comes (.sliceAccessService op r.lane) s (fun t => SameOwn s t ∧
        SMap.find t.dir line = some { st := .modified, ids := [x.peer], vf := x.vf, seen := [x.peer], slot := r.slot })) ∧
      ((∃ m, m ∈ s.mons ∧ m.key / 64 = line) → Comes (.sliceAccessService op r.lane) s (fun t => SameOwn s t ∧ t.dir = s.dir))))

/-- R15, R136, R144, R217, R277, R345, R403, R404: a team whose groups have all retired with nothing outstanding and no deferred fault ends: it
leaves the device, its groups, its attachments and its scratchpad with it; a stopped team, its grid or its context ends as the monitor says; a
teardown kills the context's queues, in their descriptors as well, and its launches, its locks stand, and its generation advances; and a context
with nothing left, no request of its earlier generation either, ceases to exist, its locks with it, its energies are kept, and what it has written
is its own no more. What becomes of the interval's sums of a context that ends follows log entry 46. -/
def Obligations.TeamsAndContextsEnd : Prop :=
  ∀ (s : State) (t l c : Nat) (tm : Team),
    let gone := fun (u : State) =>
      SMap.find u.teams t = none ∧ (∀ j, j ≠ t → SMap.find u.teams j = SMap.find s.teams j) ∧
      (∀ i x, SMap.find u.groups i = some x → x.team ≠ t) ∧
      (∀ i x, SMap.find s.groups i = some x → x.team ≠ t → SMap.find u.groups i = some x) ∧
      (∀ i g, SMap.find u.segs i = some g → i ∈ tm.attach → t ∉ g.attached) ∧
      (∀ a, Memory.read u.mem a = if scratchKey t ≤ a ∧ a < scratchKey t + 1048576 then 0 else Memory.read s.mem a)
    (SMap.find s.teams t = some tm →
      ((tm.st = .running ∨ tm.st = .draining) → (∀ i, i ∈ tm.groups → (s.grp i).retired = true ∧ (s.grp i).deferred = []) →
        s.busy t = false → Comes (.teamEnd t) s gone) ∧
      ((tm.st = .faulted ∨ tm.st = .saved ∧ ∀ i x, (i, x) ∈ s.groups → x.team ≠ t) → tm.reports ≠ [] → (∀ r, r ∈ tm.reports → r.sent = true) →
        Comes (.endTeam t) s (fun u => gone u ∧ (∀ i o, SMap.find u.ops i = some o → o.team ≠ t) ∧ (∀ i k, (i, k) ∈ u.copies → k.team ≠ t)) ∧
        (tm.launch = l → Comes (.endGrid l) s (fun u =>
          (∀ j x, SMap.find u.teams j = some x → x.launch ≠ l) ∧
          (∀ j, j ∉ s.teamsOf l → SMap.find u.teams j = SMap.find s.teams j) ∧ (∀ i e, (i, e) ∈ u.emissions → e.launch ≠ l) ∧
          (∀ a, a < scratchKey 0 → Memory.read u.mem a = Memory.read s.mem a) ∧
          ∀ x, SMap.find s.launches l = some x → Sent s u 0 (.launchCompletion l))))) ∧
    (∀ k e, SMap.find s.ctxs c = some k → k.tdown = false →
      (e = Instr.endContext c ∧ (∃ j x, (j, x) ∈ s.teams ∧ x.ctx = c ∧ x.awaits = true) ∨
        e = .teardownStart c ∧ k.live = true ∧ s.boot.minimal = false) →
      let tab := (s.part k.part).qtab
      let known := fun (q : Nat) => q ∈ s.knownQueues k.part
      tab < 2 ^ 64 → (∀ j, j < 5 → s.pageBusy (tab / 65536 + j) = false) →
      Comes e s (fun u =>
        (∀ q, known q → (s.queue k.part q).ctx = c → let x := s.queue k.part q
          (∃ y, SMap.find u.queues (4096 * k.part + q) = some y ∧ y.st = 3 ∧ y.rptr = x.wptr ∧ y.wptr = x.wptr ∧ y.wait = none) ∧
          (let d := Memory.readN u.mem (tab + 64 * q) 64
           d / 2 ^ 331 % 8 = 3 ∧ d / 2 ^ 416 % 2 ^ 32 = x.wptr % 2 ^ 32 ∧ d / 2 ^ 384 % 2 ^ 32 = x.wptr % 2 ^ 32)) ∧
        (∀ i q, SMap.find s.queues i = some q → (i / 4096 ≠ k.part ∨ (s.queue k.part (i % 4096)).ctx ≠ c) →
          ∃ y, SMap.find u.queues i = some y ∧ { y with wait := q.wait } = q) ∧
        (∀ i x, SMap.find u.launches i = some x → x.ctx ≠ c) ∧ u.locks = s.locks ∧
        u.genOf k.part k.crec.pasid = (s.genOf k.part k.crec.pasid + 1) % 256 ∧ (u.ctx c).tdown = true ∧
        (∀ a, a < scratchKey 0 → (∀ q, known q → (s.queue k.part q).ctx = c → a < tab + 64 * q ∨ tab + 64 * q + 64 ≤ a) →
          Memory.read u.mem a = Memory.read s.mem a) ∧ Sent s u 0 (.teardownComplete c))) ∧
    (∀ k, SMap.find s.ctxs c = some k → s.outstanding k.part k.crec.pasid ((s.genOf k.part k.crec.pasid + 255) % 256) = 0 → k.live = true → k.tdown = true → k.arriving = [] → (∀ j x, (j, x) ∈ s.teams → x.ctx ≠ c) →
      (∀ i o, (i, o) ∈ s.ops → o.ctx ≠ c) → (∀ i o, (i, o) ∈ s.copies → o.ctx ≠ c) →
      Comes (.teardownComplete c) s (fun u =>
        SMap.find u.ctxs c = some { k with live := false, tdown := false, charged := [], gticks := [], held := [] } ∧
        (∀ j, j ≠ c → SMap.find u.ctxs j = SMap.find s.ctxs j) ∧ u.monlog = s.monlog ++ [(.tornDown, c)] ∧
        (∀ i x, (i, x) ∈ u.locks ↔ (i, x) ∈ s.locks ∧ x.ctx ≠ c) ∧
        (∀ l x, SMap.find s.l2 l = some x → ∃ y, SMap.find u.l2 l = some y ∧ { y with dirty := x.dirty } = x ∧ (x.dirty ≠ some c → y = x) ∧
          (x.dirty = some c → c < 1048576 → y.dirty ≠ none ∧ y.dirty ≠ some c)) ∧ (∀ x, x ∈ u.agenda → x ∈ s.agenda) ∧
        u.fleet.finals = s.fleet.finals ++ [(k.vf, (((k.acct : Int) - k.seen - (k.corr - k.seenCorr)) % 2 ^ 72).toNat, k.corr - k.seenCorr)] ∧
        { u with ctxs := s.ctxs, locks := s.locks, l2 := s.l2, agenda := s.agenda, monlog := s.monlog, verdict := s.verdict,
                 fleet := { u.fleet with finals := s.fleet.finals, gone := s.fleet.gone, goneTicks := s.fleet.goneTicks } } = s))

/-- R345, R348, R349, R350, R367, R415, R448: a stopped team that the monitor resumes, whose page has been resolved, or whose page request the
host grants, goes on from its boundaries with nothing else changed, and no copy of it stays halted; one that the monitor saves stops to be saved;
a refused page request is reported; a request beyond the 512 of its function waits; a page that is not resolved in time, and an attach that missed
and whose segment may still be met, have the team saved once its image may move; another attach fails and its team goes on. Which faults are
replayed and which resumes are refused follow log entries 33 and 34. -/
def Obligations.StoppedTeamsGoOn : Prop :=
  ∀ (s : State) (t area : Nat) (tm : Team), SMap.find s.teams t = some tm → tm.reports ≠ [] ∨ tm.st = .missed ∨ tm.st = .saving →
    (∀ i o, (i, o) ∈ s.ops → o.team = t → o.kind ≠ .segatt) → (∀ w, w ∈ (s.cluster tm.cluster).queue → w.team = t → w.halt = false) →
    let goes := fun (u : State) =>
      SMap.find u.teams t = some { tm with st := .running, stopAt := none, reports := [], since := s.now } ∧
      (∀ i x, SMap.find s.groups i = some x → SMap.find u.groups i = some (if i ∈ tm.groups then { x with stopped := false } else x)) ∧
      (∀ j, j ≠ t → SMap.find u.teams j = SMap.find s.teams j) ∧ u.mem = s.mem ∧ u.ctxs = s.ctxs ∧ u.ops = s.ops ∧
      (∀ i k, SMap.find u.copies i = some k → k.team = t → k.halt = false)
    let told := ∀ r, r ∈ tm.reports → r.sent = true
    let paged := ∀ r, r ∈ tm.reports → r.sent = false ∧ pageable r.info tm.crec.pgpol = true
    (tm.st = .faulted → told → Comes (.monitorResume t) s goes ∧
      ((∀ r, r ∈ tm.reports → r.info.cls = .softwareTrap ∨ r.info.defer = true) → Comes (.monitorResumeNext t) s goes) ∧
      (s.boot.savesHeld = false → Comes (.monitorSave t area) s (fun u =>
        SMap.find u.teams t = some { tm with reports := [], st := .saving } ∧ Sent s u 1 (.teamSave t area) ∧ u.mem = s.mem ∧
        u.groups = s.groups ∧ ∀ j, j ≠ t → SMap.find u.teams j = SMap.find s.teams j))) ∧
    (tm.st = .saved → told → Comes (.monitorResume t) s (fun u => SMap.find u.teams t = some { tm with reports := [] } ∧
      { u with teams := s.teams, verdict := s.verdict } = s ∧ ∀ j, j ≠ t → SMap.find u.teams j = SMap.find s.teams j)) ∧
    (tm.st = .faulted → paged → s.saveReady t = true →
      (s.pagesBack t = true → Comes (.pageFaultReplay t) s goes) ∧
      (∀ b, (∃ r, r ∈ tm.reports ∧ r.asks = true) → s.pageAsked t = false → exec (.pageRequestResponse t b) s = .next (s.verd .held)) ∧
      ((∀ r, r ∈ tm.reports → r.asks = true) → s.pageAsked t = true →
        Comes (.pageRequestResponse t true) s (fun u => goes u ∧ u.hosted = s.hosted + 1)) ∧
      ((∃ r, r ∈ tm.reports ∧ r.asks = true) → s.pageAsked t = true → Comes (.pageRequestResponse t false) s (fun u =>
        Sent s u 0 (.faultReport t) ∧ (∀ x, x ∈ u.agenda → ∀ b, x.2 ≠ .pageFaultReplay t ∧ x.2 ≠ .pfholdExpiry t b) ∧
        u.teams = s.teams ∧ u.groups = s.groups ∧ u.mem = s.mem ∧ u.ops = s.ops))) ∧
    (tm.st = .missed →
      let fails := ∃ i g, tm.missSeg = some i ∧ SMap.find s.segs i = some g ∧ s.missFails tm g = true
      (fails → s.saveReady t = true → Comes (.attachMissReplay t area) s (fun u => u.mem = s.mem ∧
        SMap.find u.teams t = some { tm with st := .running, missSeg := none, stopAt := none, reports := [], since := s.now })) ∧
      (¬ fails → s.boot.savesHeld = false → s.inReplay t = false → Comes (.attachMissReplay t area) s (fun u =>
        SMap.find u.teams t = some { tm with st := .saving } ∧ Sent s u 1 (.attachMissReplay t area) ∧ u.mem = s.mem ∧ u.groups = s.groups ∧
        ∀ j, j ≠ t → SMap.find u.teams j = SMap.find s.teams j))) ∧
    (s.saveReady t = true → s.boot.savesHeld = false → s.inReplay t = false → s.spanFree area (s.imageBytes t) = true →
      Admitted s (s.vfOf tm.ctx) (s.imageUnits area (s.imageBytes t) true) →
      (∀ e, (e = Instr.pfholdExpiry t area ∧ tm.st = .faulted ∧ paged) ∨ (e = .attachMissReplay t area ∧ tm.st = .saving ∧ tm.missSeg ≠ none) →
        Comes e s (fun u => ∃ x img, SMap.find u.teams t = some x ∧ x.st = .saved ∧ x.saved = some img ∧ img.area = area ∧
          x.reports = tm.reports ∧ ∀ i g, SMap.find u.groups i = some g → g.team ≠ t)))

/-- R75 to R77, R298, R346, R347, R350, R351, R364, R408: a pre-emption lets its team drain, flushes it or saves it, as its way says, a save
longer than its bound is reported, and that of a facet calls for the eviction of the segments there, for which the other teams that hold them are
saved; a flushed team is discarded and its TEAMID comes first of all that its context's teams await; a saved team's image holds its header and its
groups' records, and its core is free; a restored team has its groups as its image holds them, at its new place; an image that does not agree with
its descriptor is reported and stays. What a flush, a save and a restore do to parked words follows log entry 34; the place of an image is free
(log entry 12). -/
def Obligations.PreemptionSavesAndRestores : Prop :=
  ∀ (s : State) (t cause bound area cl core : Nat) (tm : Team), SMap.find s.teams t = some tm → s.inReplay t = false →
    ((tm.st = .running ∨ tm.st = .draining) → s.boot.savesHeld = false → (cause = 1 → ∀ j, s.inReplay j = false) →
      let e := s.elapsed tm
      let bw := s.savebw (tm.cluster / 8)
      let toSave := (s.imageBytes t + bw - 1) / bw
      let drains := cause < 3 ∧ tm.kernel.dur ≠ 0 ∧ (s.ctx tm.ctx).stopd = false ∧ tm.kernel.dur - e ≤ bound
      let flushes := cause < 3 ∧ tm.kernel.restart = true ∧ tm.dirty = false ∧ e < 2 * toSave
      let into := fun (st : TeamState) (u : State) => SMap.find u.teams t = some { tm with st := st } ∧ u.mem = s.mem ∧ u.groups = s.groups ∧
        (cause ≠ 1 → ∀ j, j ≠ t → SMap.find u.teams j = SMap.find s.teams j) ∧
        (cause = 1 → ∀ i g, (i, g) ∈ s.segs → g.st = .resident →
          (if g.chip then ∃ k, k < g.units ∧ (s.chipBank g (1024 * k)).1 = tm.cluster / 8 else g.cluster / 8 = tm.cluster / 8) →
          (∃ w k, (w, Ev.segmentEvictionStart i k) ∈ u.agenda) ∧
          ∀ j x, j ∈ g.attached → j ≠ t → SMap.find s.teams j = some x → x.st = .running ∨ x.st = .draining → (u.team j).st = .saving)
      (drains → Comes (.preemptionRequest t cause bound area) s (into .draining)) ∧
      (¬ drains → flushes → Comes (.preemptionRequest t cause bound area) s (fun u => into .flushing u ∧ Sent s u 0 (.teamFlush t))) ∧
      (¬ drains → ¬ flushes → Comes (.preemptionRequest t cause bound area) s (fun u => into .saving u ∧ Sent s u 1 (.teamSave t area) ∧
        u.monlog = s.monlog ++ if bound < toSave then [(.saveLate, t)] else []))) ∧
    (tm.st = .flushing → s.busy t = false → s.allStopped t = true → s.faultless t = true → Comes (.teamFlush t) s (fun u => SMap.find u.teams t = none ∧
      (∀ i x, SMap.find u.groups i = some x → x.team ≠ t) ∧ (∀ j, j ≠ t → SMap.find u.teams j = SMap.find s.teams j) ∧
      ∀ x, SMap.find s.launches tm.launch = some x → x.graph = false →
        SMap.find u.launches tm.launch = some { x with again := tm.teamid :: x.again } ∧
        ∀ k, SMap.find s.ctxs tm.ctx = some k → (u.ctx tm.ctx).flushed = (tm.launch, tm.teamid) :: k.flushed)) ∧
    (tm.st = .saving → s.saveReady t = true → s.spanFree area (s.imageBytes t) = true → Admitted s (s.vfOf tm.ctx) (s.imageUnits area (s.imageBytes t) true) →
      Comes (.teamSave t area) s (fun u =>
      (∃ x img, SMap.find u.teams t = some x ∧ x.st = .saved ∧ x.saved = some img ∧ img.area = area ∧ img.groups.map Prod.fst = tm.groups ∧
        x.elapsed = s.elapsed tm ∧ x.items = s.itemsOf t ∧
        ∀ i g, (i, g) ∈ img.groups → ∃ p, g = { s.grp i with pend := p, loopBuf := none, stopped := false }) ∧
      (∀ i x, SMap.find u.groups i = some x → x.team ≠ t) ∧
      (∀ i x, SMap.find s.groups i = some x → x.team ≠ t → SMap.find u.groups i = some x) ∧
      Memory.readN u.mem (area + 32) 4 = tm.ctx % 1024 ∧ Memory.readN u.mem (area + 52) 4 = tm.teamid % 2 ^ 32 ∧
      Memory.readN u.mem (area + 40) 8 = s.elapsed tm % 2 ^ 64 ∧
      ∀ i r, tm.groups = i :: r → Memory.readN u.mem (area + 256) 8 = (s.grp i).pos.pa.toNat ∧
        Memory.readN u.mem (area + 268) 4 = (s.grp i).em.toNat ∧ Memory.readN u.mem (area + 272) 4 = (s.grp i).x.toNat)) ∧
    (∀ img, tm.st = .saved → tm.saved = some img → (img.groups.map Prod.fst).Nodup → (∀ i o, (i, o) ∈ s.ops → o.team ≠ t) →
      (s.imageOk t = false → Comes (.teamRestore t) s (fun u => { u with monlog := s.monlog, verdict := s.verdict } = s ∧
        (.imageRefused, t) ∈ u.monlog)) ∧
      (s.imageOk t = true → s.pagesBack t = true → (∀ r, r ∈ tm.reports → r.sent = false) → s.savedNeeds tm = [] →
        s.bestCore (s.savedClusters tm) tm.kernel tm.items.length (fun _ => true) = some (cl, core) →
        Admitted s (s.vfOf tm.ctx) (s.imageUnits img.area (Memory.readN s.mem (img.area + 48) 4) false) →
        let word := fun (o n : Nat) => Memory.readN s.mem (img.area + o) n
        Comes (.teamRestore t) s (fun u =>
          (∃ x, SMap.find u.teams t = some x ∧ x.st = .running ∧ x.cluster = cl ∧ x.core = core ∧ x.saved = none ∧ x.elapsed = 0 ∧
            x.crec = s.readCtx tm.part tm.ctx ∧ x.groups = tm.groups ∧ x.attach = tm.attach ∧ x.batch = word 38 2) ∧
          (∀ i g, (i, g) ∈ img.groups → ∃ h, SMap.find u.groups i = some h ∧ h.team = g.team ∧ h.gnum = g.gnum ∧ h.facet = cl / 8 ∧
            h.cluster = cl ∧ h.core = core ∧ h.dispTick = s.now ∧ h.loopBuf = none ∧ h.block = g.block ∧ h.wake = s.cycle (s.clockOf cl) + 1) ∧
          ∀ i g r, img.groups = (i, g) :: r → (u.grp i).pos.pa.toNat = word 256 8 ∧ (u.grp i).em.toNat = word 268 4 ∧
            (u.grp i).x.toNat = word 272 4 ∧ (u.grp i).xnum = word 266 2 ∧
            ∀ n k, n < g.v.length → k < 32 → ((u.grp i).vLane n k).toNat = word (1280 + 128 * n + 4 * k) 4)))

/-- R293, R296 to R298: a phase that is complete advances by 1 modulo 256, with no arrival and, unless its count is fixed, no count; an arrival from
the partner team is counted as one of the team's own, its fault goes to the group that sent it, and nothing comes of it once the partner has ended.
The group that a peer arrival's fault stops follows log entry 31. -/
def Obligations.BarrierSteps : Prop :=
  ∀ (s : State) (t bar g : Nat) (n : Word) (pos : Pos) (tm : Team), SMap.find s.teams t = some tm →
    (let b := s.bar t bar
     tm.st ≠ .saved → tm.st ≠ .ended → b.cnt ≠ 0 → b.arr = b.cnt → b.pend = 0 → (∀ x, x ∈ tm.barOwed → x.1 ≠ bar) →
      Comes (.barrierPhaseComplete t bar) s (fun u => SameBut (scratchKey t + 8 * bar) 8 s u ∧ u.groups = s.groups ∧ u.teams = s.teams ∧
        u.bar t bar = { b with phase := (b.phase + 1) % 256, arr := 0, cnt := if b.fixed then b.cnt else 0 })) ∧
    ((∀ x, x ∈ tm.barOwed → x.1 ≠ 64 + 32 * g + bar) →
      (s.mateOf t = none → s.mateDue t = false → Comes (.peerArrival t bar n g pos) s (fun u => { u with verdict := s.verdict } = s)) ∧
      (∀ m y, s.mateOf t = some m → SMap.find s.teams m = some y →
        let b := s.bar m bar
        let cnt := if n = 0 then b.cnt else n.toNat
        (n.toNat ≤ 64 → cnt ≠ 0 → (b.cnt = 0 ∨ cnt = b.cnt ∧ b.arr ≠ b.cnt) → b.arr < 127 → y.saved = none →
          Comes (.peerArrival t bar n g pos) s (fun u => SameBut (scratchKey m + 8 * bar) 8 s u ∧ u.groups = s.groups ∧ u.teams = s.teams ∧
            u.bar m bar = { b with cnt := cnt, arr := b.arr + 1 } ∧
            (b.arr + 1 = cnt → b.pend = 0 → (∀ x, x ∈ y.barOwed → x.1 ≠ bar) → Sent s u 0 (.barrierPhaseComplete m bar)))) ∧
        (∀ x, SMap.find s.groups g = some x → (64 < n.toNat ∨ cnt = 0 ∨ b.cnt ≠ 0 ∧ (cnt ≠ b.cnt ∨ b.arr = b.cnt)) →
          Comes (.peerArrival t bar n g pos) s (fun u => { u with agenda := s.agenda, verdict := s.verdict } = s ∧
            ∃ f, Sent s u 0 (.deferredFaultReport g f) ∧ f.defer = true ∧ f.src = pos ∧
              f.cls = if 64 < n.toNat ∨ cnt = 0 then .illegalOperand else .barrierCount))))

/-- R122, R128, R130, R295, R300 to R304, R380: a line transfer of a copy moves the bytes of its lane from the source to the destination, lowers
its barrier's pending bytes, and is followed by the next, or, with its locks freed, by the copy's completion, which publishes what it was asked
to: its token, its barrier, or an atomic that adds 1 to its counter; one of system scope waits for the acknowledgements that it owes. -/
def Obligations.CopyAtWork : Prop :=
  ∀ (s : State) (k : Nat) (c : Copy) (x : Xfer) (rest : List Xfer) (e : Nat × DWord × DWord) (ts td : Touch), SMap.find s.copies k = some c →
    c.halt = false →
    let ends := fun (u : State) (b : Nat) => SentAt s u (s.clockOf (s.team c.team).cluster) (s.cycle (s.clockOf (s.team c.team).cluster) + 1)
      (.barrierPhaseComplete c.team b)
    (c.xfers = x :: rest → c.lanesOf x = [e] → c.size % 4 = 0 → (s.core c.core).xferAt ≤ s.cycle (s.clockOf (c.core / 12)) →
      s.xferPlaces c x = [(e.1, (x.ends e).1, .ok ts), (e.1, (x.ends e).2, .ok td)] → s.touchFault ts = none → s.touchFault td = none →
      ts.n = min c.size 64 → td.n = min c.size 64 → ts.wr = false → td.wr = true → Plain s ts → Plain s td →
      (lineOf ts.key = lineOf td.key → ts.slot = td.slot) → (∀ j, j < td.n → Native s (ts.key + j) ∧ Native s (td.key + j)) →
      s.engineWaits k c.gid c.path [ts, td] = false → Writable s c.team td.key →
      AtHand s c.team [ts, td] →
      Admitted s (s.vfOf (s.team c.team).ctx) (s.walkUnits (s.team c.team) (pagesOf [ts, td]) ++ (s.sideUnits [ts] ++ s.sideUnits [td])) →
      (∀ y, y ∈ c.ends → y.1 ≤ e.1) →
      let goesOn := fun (u : State) => u.groups = s.groups ∧ SMap.find u.copies k = some { c with xfers := rest } ∧
        (rest = [] → Sent s u 0 (.copyCompletion k) ∧ ∀ r, r ∈ (u.core c.core).ranges → r.owner ≠ k) ∧ (rest ≠ [] → Sent s u 0 (.copyLineTransfer k)) ∧
        (u.core c.core).xferAt = s.cycle (s.clockOf (c.core / 12)) + 1 ∧
        ∀ j, j < td.n → Memory.read u.mem (td.key + j) = Memory.read s.mem (ts.key + j)
      (∀ v m, c.done = .token v m → Comes (.copyLineTransfer k) s (fun u => goesOn u ∧
        ∀ a, Native s a → (a < td.key ∨ td.key + td.n ≤ a) → Memory.read u.mem a = Memory.read s.mem a)) ∧
      (∀ b, c.done = .bar b → (c.scope = 3 → SMap.find s.dir (lineOf td.key) = none ∧ ∀ y, y ∈ s.invals → y.1 ≠ k) → (∀ j, j < 8 → Native s (scratchKey c.team + 8 * b + j)) →
        (td.key + td.n ≤ scratchKey c.team + 8 * b ∨ scratchKey c.team + 8 * b + 8 ≤ td.key) →
        Comes (.copyLineTransfer k) s (fun u => goesOn u ∧
          (u.bar c.team b).pend = ((s.bar c.team b).pend + 16777216 - td.n) % 16777216 ∧ ends u b))) ∧
    (c.xfers = [] → c.scope = 3 → (∃ y, y ∈ s.invals ∧ y.1 = k) → exec (.copyCompletion k) s = .next (s.verd .held)) ∧
    (c.xfers = [] → (c.scope = 3 → ∀ y, y ∈ s.invals → y.1 ≠ k) →
      let frees := fun (u : State) => SMap.find u.copies k = none ∧ ∀ r, r ∈ (u.core c.core).ranges → r.owner ≠ k
      let counts := fun (u : State) (key : Nat) (home : Home) => frees u ∧ SameOwn s u ∧ u.groups = s.groups ∧
        Sent s u 0 (.homeAtomicService k 0) ∧ ∃ o r, SMap.find u.ops k = some o ∧ o.gid = c.gid ∧ o.kind = .atom .add ∧ o.cleared = true ∧
          o.lanes = [r] ∧ r.lane = 0 ∧ r.data = 1 ∧ r.key = key ∧ r.home = home ∧ r.st = .cleared
      (∀ v m g, c.done = .token v m → SMap.find s.groups c.gid = some g → Comes (.copyCompletion k) s (fun u => frees u ∧ u.mem = s.mem ∧
        u.grp c.gid = g.wrV v .i32 m (fun _ => BitVec.ofNat 32 c.size) ∧ ∀ j, j ≠ c.gid → SMap.find u.groups j = SMap.find s.groups j)) ∧
      (∀ b, c.done = .bar b → Comes (.copyCompletion k) s (fun u => frees u ∧ u.mem = s.mem ∧ u.groups = s.groups ∧ ends u b)) ∧
      (∀ a key home slot page, c.done = .ctr a → s.counterPlace c a = .at' key home slot page →
        (∀ p, page = some p → Admitted s (s.vfOf c.ctx) (s.walkUnits (s.team c.team) [(adOfs a, p)])) → TablesClear s (s.team c.team).crec [adOfs a] →
        Comes (.copyCompletion k) s (fun u => counts u key home)) ∧
      (∀ a h key, c.done = .ctr a → s.counterPlace c a = .peer h key → Comes (.copyCompletion k) s (fun u => counts u key (.peer h))))

/-- R97, R98, R100, R309 to R315, R317, R378, R379: the tile port zeroes a tile, or moves the next row of its word, and a word with all its rows moved
fills its tile or its scales and leaves the queue; a step adds to every accumulator cell the products of one slice, exact integers modulo 2^32 for
INT8 and one rounding a block for floats; a fence at the head closes its batch, once the invalidations that its team's earlier writes owe are
acknowledged where the batch holds a store of system scope (R119, R122, R316).
Faults of later rows and the state after a discard follow log entry 29. -/
def Obligations.MatrixUnitAtWork : Prop :=
  ∀ (s : State) (cl t : Nat) (tm : Team) (w : MxWord) (f : Nat → Touch) (key : Nat), SMap.find s.teams t = some tm → w.team = t →
    (s.portWord cl = some w →
      let leaves := fun (u : State) => (∀ y, y ∈ (u.cluster cl).queue → y.id ≠ w.id) ∧ u.mem = s.mem ∧ u.groups = s.groups ∧
        Sent s u 0 (.batchComplete t) ∧ ∀ j, j ≠ t → SMap.find u.teams j = SMap.find s.teams j
      (∀ td tag, w.kind = .zero td tag → td < tm.tiles.length → Comes (.tilePortService cl) s (fun u => leaves u ∧
        (u.team t).tile td = { cells := [], tag := tag } ∧ ∀ n, n ≠ td → (u.team t).tile n = tm.tile n)) ∧
      (∀ td base pitch tag, w.kind = .load td base pitch tag → w.row = 128 → td < tm.tiles.length → w.buf.length = 16384 →
        Comes (.tilePortService cl) s (fun u => leaves u ∧ ((u.team t).tile td).tag = tag ∧ (∀ n, n ≠ td → (u.team t).tile n = tm.tile n) ∧
          ∀ m c, m < 128 → c < 128 → ((u.team t).tile td).cell m c = w.buf.getD (128 * m + c) 0)) ∧
      (∀ td base pitch, w.kind = .store td base pitch → w.row = 128 → Comes (.tilePortService cl) s (fun u => leaves u ∧
        SMap.find u.teams t = some tm)) ∧
      (∀ base mode, w.kind = .scale base mode → (mode = 0 → Comes (.tilePortService cl) s (fun u => leaves u ∧
          SMap.find u.teams t = some { tm with mode := 0, ascale := [], bscale := [] })) ∧
        (mode ≠ 0 → w.row = 2 → Comes (.tilePortService cl) s (fun u => leaves u ∧
          SMap.find u.teams t = some { tm with mode := mode, ascale := bytesOf (w.buf.take 128), bscale := bytesOf (w.buf.drop 128) }))) ∧
      (w.row < w.kind.rows → (∀ y, y ∈ (s.cluster cl).queue → y.id = w.id → y = w) → w ∈ (s.cluster cl).queue →
        (∀ k, k < 8 → Plain s (f k) ∧ (f k).key = key + 64 * k ∧ (f k).n = 64 ∧ (f k).wr = w.kind.isStore ∧ s.touchFault (f k) = none) →
        (∀ j, j < 512 → Native s (key + j)) → s.engineWaits w.id w.gid w.path ((List.range 8).map f) = false →
        s.rowPlaces w (w.kind.rowBase w.row) w.kind.isStore = (List.range 8).map (fun k =>
          (0, w.kind.rowBase w.row + BitVec.ofNat 64 (64 * k), .ok (f k))) →
        (w.kind.isStore = true → ∀ k, k < 8 → Writable s t (f k).key) →
        AtHand s t ((List.range 8).map f) →
        Admitted s (s.vfOf (s.team t).ctx) (s.walkUnits (s.team t) (pagesOf ((List.range 8).map f)) ++ (List.range 8).flatMap (fun k => s.sideUnits [f k])) →
        let next := fun (u : State) => SentAt s u (s.clockOf cl) (s.cycle (s.clockOf cl) + 1) (.tilePortService cl)
        (w.kind.isStore = false → Comes (.tilePortService cl) s (fun u => SameOwn s u ∧ u.teams = s.teams ∧ next u ∧
          { w with row := w.row + 1, buf := w.buf ++ (List.range 128).map (fun j => BitVec.ofNat 32 (Memory.readN s.mem (key + 4 * j) 4)) }
            ∈ (u.cluster cl).queue)) ∧
        (∀ td base pitch, w.kind = .store td base pitch → Comes (.tilePortService cl) s (fun u =>
          (∀ a, Native s a → (a < key ∨ key + 512 ≤ a) → Memory.read u.mem a = Memory.read s.mem a) ∧
          SMap.find u.teams t = some { tm with
            mstSys := tm.mstSys || (List.range 8).any (fun k => effScope (polScope w.pol) (f k).addr == 3) } ∧ next u ∧ { w with row := w.row + 1 } ∈ (u.cluster cl).queue ∧
          ∀ j, j < 128 → BitVec.ofNat 32 (Memory.readN u.mem (key + 4 * j) 4) = (tm.tile td).cell w.row j)))) ∧
    (∀ td ta tb ksl ra rb done total, s.nextWord cl (s.cluster cl).lastStep (fun y => y.kind.isSteps) = some w →
      w.kind = .steps td ta tb ksl ra rb done total → (s.cluster cl).stepFree ≤ s.cycle (s.clockOf cl) → td < tm.tiles.length →
      let n := elems (tm.tile (ta + 0)).tag
      let a := ta + (ksl + done) / n % ra
      let b := tb + (ksl + done) / n % rb
      let sl := (ksl + done) % n
      let av := fun (m : Nat) => (tm.tile a).slice m sl
      let bv := fun (c : Nat) => (tm.tile b).slice c sl
      Comes (.matrixStep cl) s (fun u => u.mem = s.mem ∧ u.groups = s.groups ∧ (∀ j, j ≠ t → SMap.find u.teams j = SMap.find s.teams j) ∧
        (∀ j, j ≠ td → (u.team t).tile j = tm.tile j) ∧ ((u.team t).tile td).tag = (tm.tile td).tag ∧
        (done + 1 = total → ∀ y, y ∈ (u.cluster cl).queue → y.id ≠ w.id) ∧
        ∀ m c, m < 128 → c < 128 →
          ((tm.tile a).tag = .i8x4 → ((u.team t).tile td).cell m c = (tm.tile td).cell m c + BitVec.ofInt 32
            ((List.zipWith (fun x y => elemInt 8 x * elemInt 8 y) (av m) (bv c)).foldl (· + ·) 0)) ∧
          ((tm.tile a).tag ≠ .i8x4 →
            let len := blockLen (tm.tile a).tag tm.mode
            let vals := fun (g : Tag) (l : List Nat) (k : Nat) => ((l.map (fval ((fmtOf? g).getD .fp32))).drop (len * k)).take len
            ((u.team t).tile td).cell m c = (List.range (128 / len)).foldl (fun acc k =>
              blockAcc (vals (tm.tile a).tag (av m) k) (vals (tm.tile b).tag (bv c) k) (tm.scaleA m k) (tm.scaleB k c) acc)
              ((tm.tile td).cell m c)))) ∧
    (∀ sd g, tm.cluster = cl → (s.cluster cl).queue.find? (fun y => y.team == t) = some w → w.kind = .fence sd → tm.mxFree ≤ s.cycle (s.clockOf cl) →
      SMap.find s.groups w.gid = some g →
      let owes := tm.mstSys = true ∧ ∃ y, y ∈ s.invals ∧ y.1 < w.id ∧ y.2 ∈ tm.groups
      (owes → exec (.batchComplete t) s = .next (s.verd .held)) ∧
      (¬ owes → tm.mdead = false → Comes (.batchComplete t) s (fun u =>
        SMap.find u.teams t = some { tm with batch := (tm.batch + 1) % 65536, mstSys := false } ∧
        u.grp w.gid = g.wrS sd (BitVec.ofNat 32 ((tm.batch + 1) % 65536)) ∧ (∀ y, y ∈ (u.cluster cl).queue → y.id ≠ w.id) ∧ u.mem = s.mem ∧
        ∀ j, j ≠ w.gid → SMap.find u.groups j = SMap.find s.groups j)) ∧
      (¬ owes → tm.mdead = true → Comes (.batchComplete t) s (fun u => u.teams = s.teams ∧ u.groups = s.groups ∧ u.mem = s.mem ∧
        ∀ y, y ∈ (u.cluster cl).queue → y.id ≠ w.id)))

/-- R137, R158, R319, R320, R363 to R365, R382: the zeroing of a new segment leaves its bytes 0 and its status there to be read; an eviction begins
with its attached teams saved and ends with the mirror holding the segment's bytes; a restore takes its place on chip and ends with the segment
holding what the mirror holds; each moves its lines once their apertures allow.
The place of a mirror is free (log entry 12). -/
def Obligations.SegmentUnitAtWork : Prop :=
  ∀ (s : State) (i cause cl : Nat) (g : Seg), SMap.find s.segs i = some g →
    let at' := fun (u : State) (k j : Nat) => Memory.read u.mem (s.unitKey g k + j)
    let image := fun (u : State) (k j : Nat) => Memory.read u.mem (g.mirror + 65536 * k + j)
    let others := fun (u : State) => ∀ j, j ≠ i → SMap.find u.segs j = SMap.find s.segs j
    let soon := fun (u : State) (e : Ev) => SentAt s u .uncore (s.cycle .uncore + 1) e
    (∀ gid d x, g.zeroing = some (gid, d) → SMap.find s.groups gid = some x →
      Admitted s g.vf (sumUnits ((List.range g.lines).flatMap (s.chipUnit g))) → Comes (.segcrtZeroingDone i) s (fun u =>
      u.grp gid = x.wrS d 1 ∧ (∀ j, j ≠ gid → SMap.find u.groups j = SMap.find s.groups j) ∧
      SMap.find u.segs i = some { g with zeroing := none } ∧ others u ∧ (∀ k j, k < g.units → j < 65536 → at' u k j = 0) ∧
      ∀ a, (∀ k, k < g.units → a < s.unitKey g k ∨ s.unitKey g k + 65536 ≤ a) → Memory.read u.mem a = Memory.read s.mem a)) ∧
    (g.st = .resident → (cause ≠ 1 ∨ g.attached = []) → (∀ t, t ∈ g.attached → (s.team t).st = .saved) → g.zeroing = none →
      Comes (.segmentEvictionStart i cause) s (fun u => (∃ r, SMap.find u.segs i = some { g with st := .evicting, cause := cause, reserved := r } ∧
        (r = true ↔ g.attached ≠ [])) ∧ others u ∧ soon u (.segmentMirrored i) ∧
        { u with segs := s.segs, agenda := s.agenda, verdict := s.verdict } = s)) ∧
    (g.st = .evicting → g.waiters = [] → Memory.wf s.mem = true → g.mirror + 65536 * g.units ≤ 549755813888 →
      (∀ k j, k < g.units → j < 65536 → Native s (s.unitKey g k + j)) → Admitted s g.vf (s.segUnits g true) →
      Comes (.segmentMirrored i) s (fun u => SMap.find u.segs i = some { g with st := .mirrored } ∧ others u ∧ u.groups = s.groups ∧
        ∀ k j, k < g.units → j < 65536 → image u k j = at' s k j)) ∧
    (∀ off, g.st = .mirrored → s.restorePlace g cl = some off → Comes (.segmentRestoreStart i cl) s (fun u =>
      SMap.find u.segs i = some { g with st := .restoring, cluster := if g.chip then g.cluster else cl, off := off } ∧ others u ∧
      soon u (.segmentResident i) ∧ { u with segs := s.segs, agenda := s.agenda, verdict := s.verdict } = s)) ∧
    (g.st = .restoring → g.waiters = [] → Memory.wf s.mem = true → g.mirror % 64 = 0 → g.mirror + 65536 * g.units ≤ 549755813888 →
      (∀ l, g.mirror / 64 ≤ l → l < g.mirror / 64 + 1024 * g.units → SMap.getD s.crypt l [] = [] ∧
        (∀ d, SMap.find s.dir l = some d → d.st ≠ .modified) ∧ ∀ x, SMap.find s.l2 l = some x → x.whose = .home) →
      (∀ k k', k < g.units → k' < g.units → k ≠ k' → s.unitKey g k + 65536 ≤ s.unitKey g k' ∨ s.unitKey g k' + 65536 ≤ s.unitKey g k) →
      Admitted s g.vf (s.segUnits g false) →
      Comes (.segmentResident i) s (fun u => SMap.find u.segs i = some { g with st := .resident, reserved := false } ∧ others u ∧
        u.groups = s.groups ∧ ∀ k j, k < g.units → j < 65536 → at' u k j = image s k j))

/-- R138, R148 to R154, R161, R165, R166: charges that have reached the home unit raise the account and lower the level by what they sum to, and an
enforced bucket at 0 or below stops its context; the stop and the resume take effect in each facet X + 24 cycles on; at a period boundary written
fields take effect, the level is refilled up to CAP, and a level above RESUME resumes; a bad record write is reported and changes nothing.
When a context's record comes into being and which writes are refused follow log entry 35. -/
def Obligations.EnergyStopsAndResumes : Prop :=
  ∀ (s : State) (c : Nat) (k : Ctx), SMap.find s.ctxs c = some k → k.writes = [] →
    let clk := Clock.facets k.part
    let here := k.arriving.filter (fun l => decide (l.cyc ≤ s.cycle clk))
    let sum : Int := (here.map Landing.units).foldl (· + ·) 0
    let corr : Int := ((here.filter (fun l => l.corr)).map Landing.units).foldl (· + ·) 0
    let only := fun (u : State) => u.mem = s.mem ∧ u.groups = s.groups ∧ u.parts = s.parts ∧ ∀ j, j ≠ c → SMap.find u.ctxs j = SMap.find s.ctxs j
    let all := fun (u : State) (e : CtxFacet → Ev) => ∀ f, f ∈ (s.part k.part).facetList →
      SentAt s u clk (s.cycle clk + s.cross k.part f + 24) (e { ctx := c, facet := f })
    (here ≠ [] → (∀ l, l ∈ here → 0 ≤ l.units) → k.level - sum ≥ -(2 ^ 63 * 256) → ∃ fair,
      let after : Ctx := { k with arriving := k.arriving.filter (fun l => decide (s.cycle clk < l.cyc)), acct := ((k.acct + sum) % 2 ^ 72).toNat,
                                  level := k.level - sum, corr := if here.any (fun l => l.corr) then signed72 (k.corr + corr) else k.corr, fair := fair }
      (k.cap = 0 ∨ k.enf = false ∨ k.stopd = true ∨ 0 < k.level - sum →
        Comes (.chargeArrival c) s (fun u => only u ∧ SMap.find u.ctxs c = some after ∧ u.teams = s.teams)) ∧
      (k.cap ≠ 0 → k.enf = true → k.stopd = false → k.level - sum ≤ 0 →
        Comes (.chargeArrival c) s (fun u => only u ∧ SMap.find u.ctxs c = some { after with stopd := true, passes := 0 } ∧
          all u .stopTakesEffect))) ∧
    (∀ f, Comes (.stopTakesEffect { ctx := c, facet := f }) s (fun u => only u ∧ u.teams = s.teams ∧
        SMap.find u.ctxs c = some { k with held := SMap.set k.held f (s.cycle clk) }) ∧
      Comes (.resumeTakesEffect { ctx := c, facet := f }) s (fun u => only u ∧ u.teams = s.teams ∧
        SMap.find u.ctxs c = some { k with held := SMap.erase k.held f }) ∧
      (SMap.find k.held f ≠ none → ∀ g, (s.team g.team).ctx = c → g.facet = f → s.ready g = false)) ∧
    (∀ p, s.ctxIds p = [c] → k.part = p → k.live = true → k.arriving = [] → k.cap ≠ 0 → s.fleet.refillScale = none →
      let level : Int := min (k.cap * 256 : Nat) (k.level + (k.refill * 256 : Nat))
      (k.stopd = true → k.resume * 256 < level → Comes (.budgetPeriodBoundary p) s (fun u => (∃ x, SMap.find u.ctxs c = some x ∧ x.level = level ∧
          x.stopd = false ∧ x.acct = k.acct) ∧ all u .resumeTakesEffect ∧ u.mem = s.mem ∧ u.groups = s.groups ∧
          SentAt s u clk (s.cycleFrom clk (4096 - s.now % 4096)) (.budgetPeriodBoundary p))) ∧
      (k.stopd = true → level ≤ k.resume * 256 →
        Comes (.budgetPeriodBoundary p) s (fun u => (∃ x, SMap.find u.ctxs c = some x ∧ x.level = level ∧
          x.stopd = true ∧ x.passes = k.passes + 1 ∧ x.acct = k.acct) ∧ u.mem = s.mem ∧ u.groups = s.groups ∧
          SentAt s u clk (s.cycleFrom clk (4096 - s.now % 4096)) (.budgetPeriodBoundary p)))) ∧
    (s.boot.minimal = false → k.live = true →
      (∀ n v, (n, v) ∈ [(0, v), (2, v), (4, v)] → v < 2 ^ 63 → (n = 4 → v < 2) → Comes (.energyRecordWrite c n v) s (fun u => only u ∧
        SMap.find u.ctxs c = some { k with writes := [(n, v)] })) ∧
      (∀ v, v < 16 → (v ≤ k.opmax → Comes (.energyRecordWrite c 7 v) s (fun u => only u ∧ SMap.find u.ctxs c = some { k with opmin := v })) ∧
        (k.opmax < v → Comes (.energyRecordWrite c 7 v) s (fun u => u.monlog = s.monlog ++ [(.configError, c)] ∧
          { u with monlog := s.monlog, verdict := s.verdict } = s))) ∧
      (∀ v, v < 2 ^ 63 → k.cap ≤ v → Comes (.energyRecordWrite c 3 v) s (fun u => u.monlog = s.monlog ++ [(.configError, c)] ∧
        { u with monlog := s.monlog, verdict := s.verdict } = s)) ∧
      (∀ v, v < 65536 → Comes (.energyRecordWrite c 9 v) s (fun u => only u ∧ SMap.find u.ctxs c = some { k with share := v })))

/-- R157, R160 to R163, R427, R428, R440, R466: a correction gives its contexts and the idle account together exactly what the domain's sensor
integrated; a decision tick chooses for each partition its highest standing request, or its default, held under what the grant allows; a switch
point puts the chosen points, planes and monitor into force. What a correction gives a context lands in the cycle after. The energy of the sensor is
a free value.
What a context that has ended would take goes to the idle account (log entry 46). -/
def Obligations.PointsAndCorrection : Prop :=
  ∀ (s : State),
    let coming := fun (k : Ctx) => (k.arriving.map Landing.units).foldl (fun (a b : Int) => a + b) 0
    (∀ dom, dom ≤ 18 → (s.ctxs.map Prod.fst).Nodup →
      Comes (.correctionInterval dom) s (fun u => u.mem = s.mem ∧ u.groups = s.groups ∧
        Sent s u (1048576 - s.now % 1048576) (.correctionInterval dom) ∧
        (match (if 16 ≤ dom then none else s.partOfFacet dom) with
          | some p => (u.part p).idle - (s.part p).idle
          | none => u.fleet.idle - s.fleet.idle) +
          ((s.ctxs.filter (fun x => x.2.live)).map (fun x => coming (u.ctx x.1) - coming x.2 + ((SMap.getD x.2.charged dom 0 : Nat) : Int))).foldl
            (fun (a b : Int) => a + b) ((SMap.getD s.fleet.gone dom 0 : Nat) : Int) = (Config.sensorEnergy dom (s.now / 1048576) : Int) ∧
        ∀ x, x ∈ s.ctxs → x.2.live = true → SMap.find (u.ctx x.1).charged dom = none ∧ SMap.find (u.ctx x.1).gticks dom = none ∧
          ∀ l, l ∈ (u.ctx x.1).arriving → l ∈ x.2.arriving ∨ l.corr = true ∧ l.cyc = s.cycleFrom (.facets x.2.part) 0 + 1)) ∧
    (s.boot.updAct = false → s.fleet.grant = none → Comes .decisionTick s (fun u =>
      (∀ p x, SMap.find s.parts p = some x →
        let stands := fun (k : Ctx) => (((k.asks.filter (fun a => s.isOver (.facets k.part) a.1)).getLast?).map Prod.snd).getD k.request
        let asked := (s.ctxIds p).filterMap (fun c => if (s.ctx c).oprt then stands (s.ctx c) else none)
        ∃ q, SMap.find u.parts p = some { x with next := some q, lowered := Nat.blt 15 (s.wanted p) } ∧
          (asked = [] → q = min x.opdef 15) ∧ (asked ≠ [] → (∃ r, r ∈ asked ∧ q = min r 15) ∧ ∀ r, r ∈ asked → r ≤ 15 → r ≤ q)) ∧
      u.boot = s.boot ∧ u.mem = s.mem ∧ Sent s u 65536 .decisionTick)) ∧
    Comes .switchPoint s (fun u =>
      (∀ p x, SMap.find s.parts p = some x → ∃ y, SMap.find u.parts p = some y ∧ y.point = x.next.getD x.point ∧ y.next = none ∧
        (x.next ≠ none → y.capped = (x.capped || x.lowered)) ∧ y.facets = x.facets ∧ y.ring = x.ring ∧
        y.optime.getD x.point 0 = (if x.point < 16 then x.optime.getD x.point 0 + (s.now - x.opSince) else 0)) ∧
      u.fleet.planeen = s.fleet.planeNext.getD s.fleet.planeen ∧ u.fleet.planeNext = none ∧
      (∀ v, s.boot.switchTo = some v → u.boot.monver = v ∧ u.boot.updResult = 1 ∧ u.boot.updBusy = false ∧ u.boot.updAct = false) ∧
      u.boot.savesHeld = false ∧ u.mem = s.mem ∧ u.groups = s.groups ∧ Sent s u 65536 .switchPoint)

/-- R387, R388, R391, R392, R401: a doorbell sets WPTR, or puts the queue in error 6 where it is too far on; a packet that is not yet visible is read
again 65,536 ticks later, and then processed where it is; a wait packet makes its queue wait, and it goes on once its test holds, or errs after its
timeout; a wait that its slice has no entry for is tested again every 512 router cycles; a signal packet writes or adds its value; a slot maps a
queue as its descriptor gives it, and unmapping gives the slot back and keeps RPTR.
The error numbers of malformed packets follow log entry 32. -/
def Obligations.QueuesAndPackets : Prop :=
  ∀ (s : State) (p q : Nat) (pt : Part), SMap.find s.parts p = some pt → q < 4096 → s.boot.minimal = false → Unshared s → s.queueBusy p q = false →
    let x := s.queue p q
    let place := pt.qtab + 64 * q
    let done := { x with rptr := (x.rptr + 1) % 4294967296, st := 1, wait := none }
    let last := (x.rptr + 1) % 4294967296 = x.wptr
    let errs := fun (code : Nat) (u : State) => u.queue p q = { x with st := 4, err := code, wait := none } ∧
      u.msix = s.msix ++ [(x.vf, q % 2048)] ∧ u.groups = s.groups ∧ SameBut place 64 s u
    (∀ v : Word, 2 ^ x.log2 < (v.toNat + 4294967296 - x.rptr) % 4294967296 → Comes (.doorbellWrite p q v) s (errs 6)) ∧
    (∀ v : Word, (v.toNat + 4294967296 - x.rptr) % 4294967296 ≤ 2 ^ x.log2 →
      (s.mapped p q = false → Comes (.doorbellWrite p q v) s (fun u => u.queue p q = { x with wptr := v.toNat } ∧ q ∈ (u.part p).pending ∧
        u.groups = s.groups ∧ SameBut place 64 s u)) ∧
      (∀ w e, s.mapped p q = true → x.st ≤ 1 → v.toNat ≠ x.rptr →
        (s.setQueue p q { x with wptr := v.toNat }).packet p q = some w → packetStep p q (w % 256) = some e →
        Comes (.doorbellWrite p q v) s (fun u => u.queue p q = { x with wptr := v.toNat } ∧ (∃ d, (d, e) ∈ u.agenda) ∧ u.groups = s.groups))) ∧
    (∀ w, s.fetches p q = true → s.packet p q = some w →
      (w % 256 = 0 → Comes (.fetchRetryTimer p q) s (fun u => Sent s u 65536 (.fetchRetryTimer p q) ∧
        { u with agenda := s.agenda, verdict := s.verdict } = s)) ∧
      (∀ e, packetStep p q (w % 256) = some e → Comes (.fetchRetryTimer p q) s (fun u => (∃ d, (d, e) ∈ u.agenda) ∧
        { u with agenda := s.agenda, verdict := s.verdict } = s)) ∧
      (4 < w % 256 → Comes (.fetchRetryTimer p q) s (errs 1))) ∧
    (s.fetches p q = true → s.packet p q = none →
      ∀ i, i ∈ [Instr.fetchRetryTimer p q, .gridLaunch p q, .graphLaunch p q, .waitPacket p q, .signalPacket p q] → Comes i s (errs 5)) ∧
    (∀ w, s.packet p q = some w → s.barWaits p q w = false →
      (s.nextIs p q 3 = true →
        (fld w 12 340 ≠ 0 → Comes (.waitPacket p q) s (errs 2)) ∧
        (∀ k, fld w 12 340 = 0 → fld w 448 64 % 8 = 0 → s.feKey p (s.queueRec p x) (fld w 448 64) .load = some k →
          (s.absent k.1 = true → SMap.getD s.crypt (lineOf k.1) [] = s.keyPair k.2) →
          Comes (.waitPacket p q) s (fun u => (u.queue p q).st = 2 ∧ (u.queue p q).rptr = x.rptr ∧ u.groups = s.groups ∧ SameBut place 64 s u ∧
            ∃ y, (u.queue p q).wait = some y ∧ y.sig = fld w 448 64 ∧ y.value = fld w 384 64 ∧ y.cc = fld w 10 2 ∧
              ((k.1 + 8 ≤ place ∨ place + 64 ≤ k.1) → let m := Memory.readN s.mem k.1 8
                (y.met = true ↔ (y.cc = 0 ∧ m = y.value) ∨ (y.cc = 1 ∧ m ≠ y.value) ∨ (y.cc = 2 ∧ m < y.value) ∨ (y.cc = 3 ∧ y.value ≤ m))) ∧
              (y.met = true → Sent s u 0 (.waitCompletion p q)) ∧
              (y.met = false → ((∃ m, m ∈ u.mons ∧ m.key = k.1 ∧ m.queue = some (4096 * p + q)) ∨
                  SentAt s u .uncore (s.cycle .uncore + 512) (.waitPacket p q)) ∧
                (isHbm k.1 = true → (s.mons.filter (fun m => sliceOfKey m.key == sliceOf k.1)).length < 4096 →
                  ∃ m, m ∈ u.mons ∧ m.key = k.1 ∧ m.queue = some (4096 * p + q)) ∧
                (fld w 352 32 ≠ 0 → Sent s u (fld w 352 32) (.waitTimeout p q)))))) ∧
      (∀ k, s.nextIs p q 4 = true → fld w 12 340 = 0 → fld w 352 32 = 0 → fld w 10 2 < 2 → fld w 448 64 % 8 = 0 →
        s.feKey p (s.queueRec p x) (fld w 448 64) .rmw = some k → s.pageBusy (k.1 / 65536) = false →
        SMap.getD s.crypt (lineOf k.1) [] = s.keyPair k.2 → (k.1 + 8 ≤ place ∨ place + 64 ≤ k.1) →
        Comes (.signalPacket p q) s (fun u => (u.queue p q).rptr = (x.rptr + 1) % 4294967296 ∧ u.groups = s.groups ∧
          (last → (u.queue p q).st = 1 ∧ u.msix = s.msix ++ (if fld w 9 1 = 1 then [(x.vf, q % 2048)] else [])) ∧
          Memory.readN u.mem k.1 8 = (if fld w 10 2 = 0 then fld w 384 64 else (Memory.readN s.mem k.1 8 + fld w 384 64) % 2 ^ 64) ∧
          ∀ a, (a < k.1 ∨ k.1 + 8 ≤ a) → (a < place ∨ place + 64 ≤ a) → Memory.read u.mem a = Memory.read s.mem a))) ∧
    (∀ y k, s.polls p q = true → x.wait = some y → s.feKey p (s.queueRec p x) y.sig .load = some k →
      (s.absent k.1 = true → SMap.getD s.crypt (lineOf k.1) [] = s.keyPair k.2) →
      let m := Memory.readN s.mem k.1 8
      let holds := (y.cc = 0 ∧ m = y.value) ∨ (y.cc = 1 ∧ m ≠ y.value) ∨ (y.cc = 2 ∧ m < y.value) ∨ (2 < y.cc ∧ y.value ≤ m)
      (holds → Comes (.waitPacket p q) s (fun u => u.queue p q = { x with wait := some { y with met := true } } ∧ u.mem = s.mem ∧
        u.groups = s.groups ∧ Sent s u 0 (.waitCompletion p q))) ∧
      (¬holds → Comes (.waitPacket p q) s (fun u => u.queue p q = x ∧ u.mem = s.mem ∧ u.groups = s.groups ∧
        ((∃ n, n ∈ u.mons ∧ n.key = k.1 ∧ n.queue = some (4096 * p + q)) ∨ SentAt s u .uncore (s.cycle .uncore + 512) (.waitPacket p q))))) ∧
    (∀ y, x.st = 2 → x.wait = some y → y.met = true → last → Comes (.waitCompletion p q) s (fun u => u.queue p q = done ∧
      u.msix = s.msix ++ (if y.irq then [(x.vf, q % 2048)] else []) ∧ u.groups = s.groups ∧ SameBut place 64 s u)) ∧
    (∀ y t, x.st = 2 → x.wait = some y → y.met = false → y.expires = some t → t ≤ s.now → Comes (.waitTimeout p q) s (errs 4)) ∧
    (∀ slot, slot < 32 →
      (pt.slots.getD slot 0 = 0 → s.mapped p q = false → s.dying p (s.mapQueue p q).pasid = false →
        (s.mapQueue p q).rptr = (s.mapQueue p q).wptr →
        Comes (.queueMapWrite p slot (32768 + q)) s (fun u => (u.part p).slots.getD slot 0 = q + 1 ∧ u.queue p q = s.mapQueue p q ∧
          (u.queue p q).st = 1 ∧ (u.queue p q).rptr = x.rptr ∧ (u.queue p q).gen = s.genOf p (u.queue p q).pasid ∧ q ∉ (u.part p).pending ∧
          u.groups = s.groups ∧ SameBut place 64 s u)) ∧
      (pt.slots.getD slot 0 = q + 1 → Comes (.queueMapWrite p slot 0) s (fun u => (u.part p).slots.getD slot 0 = 0 ∧
        (u.queue p q).rptr = x.rptr ∧ (x.st = 1 ∨ x.st = 2 → (u.queue p q).st = 0) ∧ (u.queue p q).wait = none ∧ u.groups = s.groups ∧
        (∀ i, i < 32 → i ≠ slot → (u.part p).slots.getD i 0 = pt.slots.getD i 0) ∧ SameBut place 64 s u)))

/-- R136, R155, R156, R323, R389 to R391, R393, R397 to R400: a grid or graph packet that its rules accept becomes a launch, and one that they
refuse an error of its queue; records enter their node, or its ring, in order, once their release allows, and beyond a limit their sender takes a
quota fault; a ring gives its oldest records back to the buffer; a timer forms a team of the records present; a launch whose teams have ended
leaves, its completion word less by 1, once the invalidations of its writes are acknowledged; the dispatcher comes about every tick while its
partition has facets. The error numbers of malformed packets follow log entry 32. -/
def Obligations.LaunchesAndRecords : Prop :=
  ∀ (s : State) (p q l n : Nat) (pt : Part), SMap.find s.parts p = some pt → Unshared s → s.queueBusy p q = false →
    let x := s.queue p q
    let place := pt.qtab + 64 * q
    let line := fun (d : Node) => d.formed.flatten ++ d.buf ++ d.spill.map Prod.snd
    let nodeIn := fun (u : State) (l n : Nat) => (SMap.find u.launches l).bind (fun y => y.nodes[n]?)
    (∀ w, s.packet p q = some w → s.barWaits p q w = false →
      let c := s.queueRec p x
      (∀ d args, s.nextIs p q 1 = true → s.feRead p c (fld w 320 64) 16 = some d →
        let k := kernelOf s.ticket (fld w 320 64) d
        s.feWords p c (fld w 384 64) k.args = some args →
        (gridBad w k = none → badDesc d = false → s.kernelBad p (s.readCtx p x.ctx) k = false → k.chip = 0 → pt.replay.arm = false →
          Comes (.gridLaunch p q) s (fun u => (∃ y, SMap.find u.launches s.ticket = some y ∧ y.part = p ∧ y.queue = q ∧ y.ctx = x.ctx ∧ y.pasid = x.pasid ∧
              y.prio = x.prio ∧ y.kernel = k ∧ y.args = args ∧ y.teams = fld w 192 32 ∧ y.next = 0 ∧ y.itemBase = fld w 224 32 ∧
              y.itemCnt = fld w 256 32 ∧ y.itemPer = fld w 288 32 ∧ y.compl = fld w 448 64) ∧
            (u.queue p q).rptr = (x.rptr + 1) % 4294967296 ∧ u.groups = s.groups ∧ u.teams = s.teams ∧ SameBut place 64 s u)) ∧
        (∀ e, gridBad w k = some e → Comes (.gridLaunch p q) s (fun u => u.queue p q = { x with st := 4, err := e, wait := none } ∧
          u.launches = s.launches ∧ u.groups = s.groups)) ∧
        (gridBad w k = none → badDesc d = true ∨ s.kernelBad p (s.readCtx p x.ctx) k = true → Comes (.gridLaunch p q) s (fun u =>
          u.queue p q = { x with st := 4, err := 3, wait := none } ∧ u.launches = s.launches ∧ u.groups = s.groups))) ∧
      (∀ nodes ws nd, s.nextIs p q 2 = true → fld w 10 246 = 0 → fld w 256 16 ≠ 0 → fld w 272 16 < fld w 256 16 → fld w 384 64 % 64 = 0 →
        s.readNodes p x.ctx (fld w 256 16) c (fld w 384 64) (fld w 256 16) = .ok nodes → nodes[fld w 272 16]? = some nd →
        fld w 288 32 ≤ nd.gcap → s.activeNodes p < 64 →
        s.feWords p c (fld w 320 64) (fld w 288 32 * nd.kernel.record / 4) = some ws →
        Comes (.graphLaunch p q) s (fun u => (∃ y, SMap.find u.launches s.ticket = some y ∧ y.graph = true ∧ y.ctx = x.ctx ∧ y.pasid = x.pasid ∧
            y.compl = fld w 448 64 ∧ y.nodes.map (fun m => m.kernel) = nodes.map (fun m => m.kernel)) ∧
          (∃ m, nodeIn u s.ticket (fld w 272 16) = some m ∧ line m = chunk (nd.kernel.record / 4) (fld w 288 32) ws) ∧
          (u.queue p q).rptr = (x.rptr + 1) % 4294967296 ∧ u.groups = s.groups ∧ u.teams = s.teams))) ∧
    (∀ id e y nd, SMap.find s.emissions id = some e → (∀ j f, (j, f) ∈ s.emissions → j < id → f.gid ≠ e.gid) →
      (∀ o, o ∈ e.owed → SMap.find s.ops o = none) → SMap.find s.launches e.launch = some y → y.graph = true → y.nodes[e.node]? = some nd →
      s.ringBusy y nd e.recs.length = false → (∀ z, z ∈ s.emissions → s.arrivesFirst id e z = false) →
      (s.overQuota y.part nd e.ctx e.recs.length = false → Comes (.recordArrival id) s (fun u => SMap.find u.emissions id = none ∧
        u.groups = s.groups ∧ ∃ m, nodeIn u e.launch e.node = some m ∧ line m = line nd ++ e.recs)) ∧
      (s.overQuota y.part nd e.ctx e.recs.length = true → Comes (.recordArrival id) s (fun u => SMap.find u.emissions id = none ∧
        u.launches = s.launches ∧ u.groups = s.groups ∧ u.mem = s.mem ∧
        ∃ f, Sent s u 0 (.deferredFaultReport e.gid f) ∧ f.cls = .quota ∧ f.src = e.pos))) ∧
    (∀ id e, SMap.find s.emissions id = some e → (∃ o, o ∈ e.owed ∧ SMap.find s.ops o ≠ none) →
      Comes (.recordArrival id) s (fun u => Sent s u 1 (.recordArrival id) ∧ { u with agenda := s.agenda, verdict := s.verdict } = s)) ∧
    (∀ y nd, SMap.find s.launches l = some y → y.graph = true → y.nodes[n]? = some nd →
      (∀ k0, s.mayRefill y.part nd = true → (s.part y.part).refilled ≤ s.now → s.queueBusy y.part y.queue = false →
        s.feKey y.part (s.launchRec y) (nd.ringAt 0) .load = some k0 →
        (s.absent k0.1 = true → SMap.getD s.crypt (lineOf k0.1) [] = s.keyPair k0.2) →
        (∀ i r, i < nd.lineRecs → nd.spill[i]? = some r → ∃ k, s.feKey y.part (s.launchRec y) (nd.ringAt i) .load = some k ∧
          (let b := s.bringLine y.ctx k0.1 .normal k0.2 false;
            b.feKey y.part (b.launchRec y) (nd.ringAt i) .load = some k) ∧ lineOf k.1 = lineOf k0.1 ∧ k.2 = k0.2 ∧
          (List.range (nd.kernel.record / 4)).map (fun j => BitVec.ofNat 32 (Memory.readN s.mem (k.1 + 4 * j) 4)) = r.2) →
        Comes (.spillRefill l n) s (fun u => u.groups = s.groups ∧ u.mem = s.mem ∧
        ∃ m, nodeIn u l n = some m ∧ line m = line nd ∧ m.spill = nd.spill.drop (min nd.lineRecs (min nd.spill.length (nd.gcap - nd.count))))) ∧
      (∀ a, nd.since = some a → a + (if nd.timer = 0 then 4096 else nd.timer) ≤ s.now → nd.buf ≠ [] →
        Comes (.coalesceTimerExpiry l n) s (fun u => u.groups = s.groups ∧ u.mem = s.mem ∧
          ∃ m, nodeIn u l n = some m ∧ m.buf = [] ∧ m.formed = nd.formed ++ [nd.buf] ∧ m.spill = nd.spill))) ∧
    (∀ y k, SMap.find s.launches l = some y → y.replay = false → s.launchDone l y = true → y.part = p → y.queue = q →
      s.launchOwes l = false → y.compl ≠ 0 → y.compl % 8 = 0 → s.feKey p (s.launchRec y) y.compl .rmw = some k → s.pageBusy (k.1 / 65536) = false →
      SMap.getD s.crypt (lineOf k.1) [] = s.keyPair k.2 → (k.1 + 8 ≤ place ∨ place + 64 ≤ k.1) →
      Comes (.launchCompletion l) s (fun u => SMap.find u.launches l = none ∧ u.groups = s.groups ∧ (∀ i g, (i, g) ∈ u.segs → g.launch ≠ some l) ∧
        Memory.readN u.mem k.1 8 = (Memory.readN s.mem k.1 8 + 2 ^ 64 - 1) % 2 ^ 64)) ∧
    (∀ y, SMap.find s.launches l = some y → y.replay = false → s.launchDone l y = true → y.compl ≠ 0 → s.launchOwes l = true →
      exec (.launchCompletion l) s = .next (s.verd .held)) ∧
    (pt.facets ≠ 0 → Comes (.dispatch p) s (fun u => Sent s u 1 (.dispatch p) ∧
      ((∀ c, c ∈ s.ctxIds p → s.ctxReady p c = false) → u.groups = s.groups ∧ u.teams = s.teams ∧ u.mem = s.mem ∧
        ∀ c k, c ∈ s.ctxIds p → SMap.find s.ctxs c = some k → SMap.find u.ctxs c = some { k with ready := false, passed := 0 }))) ∧
    (∀ c k y cl core o, pt.facets ≠ 0 → s.ctxIds p = [c] → SMap.find s.ctxs c = some k → s.ctxReady p c = true → k.passed < pt.fb →
      s.launches = [(l, y)] → y.ctx = c → y.part = p → y.graph = false → y.line = [] → y.again = [] → y.replay = false → s.teams = [] → y.next < y.teams →
      y.kernel.pair = false → y.kernel.segNames = [] → y.kernel.cmem = 0 → y.chipSeg = none → s.segs = [] → y.cmSegs = [] →
      s.bestCore (s.clustersOf p) y.kernel (y.items y.next).length (fun _ => true) = some (cl, core) →
      s.laneOff c y.kernel (s.readCtx p c).lpsize [] = some o →
      Comes (.dispatch p) s (fun u => Sent s u 1 (.dispatch p) ∧ ∃ tm, SMap.find u.teams s.ticket = some tm ∧ tm.ctx = c ∧ tm.launch = l ∧
        tm.teamid = y.next ∧ tm.cluster = cl ∧ tm.core = core ∧ tm.st = .running ∧ tm.kernel = y.kernel ∧ tm.since = s.now ∧
        tm.groups = (List.range (y.kernel.pgrp + y.kernel.cgrp)).map (s.ticket + 1 + ·) ∧
        (∃ z, SMap.find u.launches l = some z ∧ z.next = y.next + 1) ∧
        (∀ i, i < y.kernel.pgrp + y.kernel.cgrp → ∃ g, SMap.find u.groups (s.ticket + 1 + i) = some g ∧ g.team = s.ticket ∧ g.gnum = i ∧
          g.em = BitVec.allOnes 32 ∧ g.x = 0 ∧ g.pos = { pa := y.kernel.codebase, w := 0 } ∧ g.stack = [] ∧
          g.v.length = (if i < y.kernel.pgrp then y.kernel.pvreg else y.kernel.cvreg) ∧
          (∀ j, g.isFull .v j = true ∧ g.isFull .s j = true) ∧
          (∀ j, j < g.s.length → g.sVal j = y.args.getD j 0) ∧
          (∀ j r, 0 < j → j < g.v.length → r < 32 → g.vLane j r = 0 ∧ g.vReg j = VReg.zero) ∧
          (0 < g.v.length → ∀ r, r < 32 → g.vLane 0 r = BitVec.ofNat 32 (r + 32 * i))) ∧
        ∀ a, Memory.read u.mem a = if scratchKey s.ticket ≤ a ∧ a < scratchKey s.ticket + 1048576 then 0 else Memory.read s.mem a))

/-- R403, R405, R407, R408, R412, R413, R415, R424: a control register takes the written fields, or refuses a write that would share a facet, a
virtual function or a key slot, give more than four virtual functions, or change FACETS under a context; a reset discards what the partition runs,
purges, and scrubs what it held on chip, keeping its grants and facets; an invalidation drops the covered translations, and ends once no access
under one of them is outstanding.
The lengths of a reset and an invalidation are the model's (log entry 28), and what the rules leave open of these registers follows log entry 36. -/
def Obligations.PartitionsAndTranslations : Prop :=
  ∀ (s : State) (p v : Nat), p < 16 → s.boot.minimal = false →
    let x := s.part p
    let told := fun (u : State) => u.monlog = s.monlog ++ [(.configError, p)] ∧ { u with monlog := s.monlog, verdict := s.verdict } = s
    let shared := ∃ y, y ∈ s.parts ∧ y.1 ≠ p ∧
      (y.2.facets &&& v / 2 ^ 80 % 2 ^ 16 ≠ 0 ∨ y.2.vfs &&& v / 2 ^ 128 % 2 ^ 64 ≠ 0 ∨ y.2.keygrant &&& v / 2 ^ 256 % 2 ^ 256 ≠ 0)
    let many := 4 < ((List.range 64).filter (fun i => (v / 2 ^ 128 % 2 ^ 64).testBit i)).length
    let used := v / 2 ^ 80 % 2 ^ 16 ≠ x.facets ∧ s.ctxIds p ≠ []
    (shared ∨ many ∨ used → Comes (.partitionControlWrite p v) s told) ∧
    (¬shared → ¬many → ¬used → Comes (.partitionControlWrite p v) s (fun u => let y := u.part p
      y.keygrant = v / 2 ^ 256 % 2 ^ 256 ∧ y.ctxtab = v / 2 ^ 192 % 2 ^ 64 ∧ y.vfs = v / 2 ^ 128 % 2 ^ 64 ∧ y.xto = v / 2 ^ 96 % 2 ^ 32 ∧
        y.facets = v / 2 ^ 80 % 2 ^ 16 ∧ y.opdef = v / 2 ^ 76 % 16 ∧ y.qtab = v % 2 ^ 64 ∧ y.rst = x.rst ∧
        (v / 2 ^ 74 % 4 = 1 → x.rst = 0 → Sent s u 0 (.partitionReset p)) ∧ u.mem = s.mem ∧ u.groups = s.groups ∧ u.teams = s.teams ∧
        ∀ q, q ≠ p → u.part q = s.part q)) ∧
    (x.rst = 0 → Comes (.partitionReset p) s (fun u => (u.part p).rst = 2 ∧ Sent s u 1 (.partitionResetComplete p) ∧
      u.fleet.finals = s.fleet.finals ++ (s.ctxIds p).map (fun c => (s.ctx c).final) ∧ (∀ c, c ∈ s.ctxIds p → (u.ctx c).final.2 = (0, 0)) ∧
      (∀ l, l ∈ u.launches → l.2.part ≠ p) ∧ (∀ t, t ∈ u.teams → t.2.part ≠ p) ∧ (∀ q, q ∈ u.queues → q.1 / 4096 ≠ p) ∧
      (∀ e, e ∈ u.exports → x.vfs.testBit e.1 = false) ∧ (u.part p).slots = [] ∧ (u.part p).pending = [] ∧
      (u.part p).keygrant = x.keygrant ∧ (u.part p).facets = x.facets ∧ u.msix = s.msix)) ∧
    (x.rst = 2 → Comes (.partitionResetComplete p) s (fun u => u.part p = { x with rst := 3 } ∧ Sent s u 1 (.partitionResetComplete p) ∧
      u.mem = s.mem ∧ u.ctxs = s.ctxs)) ∧
    (x.rst = 3 → Comes (.partitionResetComplete p) s (fun u => u.part p = { x with rst := 0, fb := 0 } ∧ (∀ c, c ∈ u.ctxs → c.2.part = p →
        c.2 = { Ctx.scrubbed with part := p, spq := c.2.spq } ∧ c.2.opmax = 0 ∧ c.2.share = 0 ∧ c.2.hold = 0 ∧ c.2.enf = false ∧ c.2.acct = 0) ∧
      (∀ g, g ∈ u.segs → g.2.part ≠ p) ∧ (∀ e, e ∈ u.tlb → e.part ≠ p) ∧ 
      (∀ k, k ∈ u.locks → if k.2.ctx < 4294967296 then k.2.ctx / 1024 ≠ p else x.vfs.testBit k.2.vf = false) ∧
      (∀ l, l ∈ u.l2 → s.lineIn p l.1 = false) ∧ u.apers = s.apers ∧ u.keys = s.keys ∧
      (∀ f a, x.facets.testBit f = true → f < 16 → chipKey f ≤ a → a < chipKey f + 16777216 → Memory.read u.mem a = 0) ∧
      (∀ cl a, cl ∈ s.clustersOf p → clusterKey cl ≤ a → a < clusterKey cl + 8388608 → Memory.read u.mem a = 0) ∧
      (∀ c, c < 1024 → (Memory.readN u.mem (x.ctxtab + 64 * c + 40) 1).testBit 6 = false) ∧
      (∀ a, a < 549755813888 → SMap.find s.l2 (a / 64) = none → (∀ c, c < 1024 → a ≠ x.ctxtab + 64 * c + 40) →
        Memory.read u.mem a = Memory.read s.mem a))) ∧
    (∀ (pasid pages vf : Nat) (i : Instr) (pas : Nat → Prop) (whole : Bool),
      (i, pas, whole) ∈ [(.tlbInvalidatePasid p pasid, fun y => y = pasid % 1048576, true),
        (.tlbInvalidateRange p pasid pages, fun y => y = pasid % 1048576, false), (.tlbInvalidateVf p vf, fun y => y ∈ s.pasidsOf p (vf % 64), true)] →
      (x.invBusy = true → Comes i s told) ∧
      (x.invBusy = false → Comes i s (fun u => (u.part p).invBusy = true ∧ Sent s u 1 (.tlbInvalidationComplete p) ∧ u.mem = s.mem ∧
        u.groups = s.groups ∧ ∀ e, e ∈ u.tlb ↔ e ∈ s.tlb ∧ ¬(e.part = p ∧ pas e.pasid ∧ (whole = true ∨
          (65536 * x.invVa < e.page * 2 ^ e.size + 2 ^ e.size ∧ e.page * 2 ^ e.size < 65536 * x.invVa + 65536 * 2 ^ (pages % 16))))))) ∧
    (x.invBusy = true → (s.owesCovered p = true → exec (.tlbInvalidationComplete p) s = .next (s.verd .held)) ∧
      (s.owesCovered p = false → Comes (.tlbInvalidationComplete p) s (fun u => u.part p = { x with invBusy := false } ∧
        (∀ e, e ∈ u.tlb ↔ e ∈ s.tlb ∧ s.coversEntry p e = false) ∧ u.mem = s.mem ∧ u.groups = s.groups ∧
        ∀ t tm, SMap.find s.teams t = some tm → tm.part = p → s.coversPasid p tm.crec.pasid = true →
          SMap.find u.teams t = some { tm with crec := s.readCtx p tm.ctx }))) ∧
    (∀ pasid page pages,
      let owed := ∃ o, o ∈ s.ops ∧ o.2.cleared = true ∧ s.opPart o.2 = p ∧ s.opPasid o.2 = pasid ∧
        ∃ r, r ∈ o.2.lanes ∧ r.over = false ∧ r.home = .host
      (owed → exec (.atsInvalidation p pasid page pages) s = .next (s.verd .held)) ∧
      (¬owed → Comes (.atsInvalidation p pasid page pages) s (fun u => u.hosted = s.hosted + 1 ∧ u.mem = s.mem ∧ u.groups = s.groups ∧
        ∀ e, e ∈ u.tlb ↔ e ∈ s.tlb ∧ ¬(e.part = p ∧ e.pasid = pasid ∧ pteHost e.pte = true ∧ pteFrame e.pte / 65536 < page + pages ∧
          page < pteFrame e.pte / 65536 + 2 ^ e.size / 65536))))

/-- R158, R159, R417 to R419, R423: a key command loads an empty slot with the 64 bytes of KDATA or erases one that no partition holds, and answers
why it does not; KDATA is cleared after each; an aperture keeps what was written for the next period, or refuses what would go beyond its
target's capacity or the locks of a slice.
The length of a key command is the model's (log entry 28), and the order of its refusals log entry 36's. -/
def Obligations.KeysAndApertures : Prop :=
  ∀ (s : State), s.boot.minimal = false →
    let k := s.keys
    let data := (List.range 64).map (fun i => k.kdata.getD i 0 % 256)
    (∀ slot, slot < 256 → k.busy = false → ∀ n i, (n, i) ∈ [(0, Instr.keyLoad slot), (1, .keyErase slot)] → Comes i s (fun u =>
      u.keys = { k with busy := true, slot := slot, op := n } ∧ Sent s u 1 .keyCommandComplete ∧ u.mem = s.mem ∧ u.groups = s.groups)) ∧
    (k.busy = true → ∃ res, (Comes .keyCommandComplete s (fun u => u.keys.busy = false ∧ u.keys.kdata = [] ∧ u.keys.result = res ∧
        u.keys.loaded = (SMap.find u.keys.slots k.slot).isSome ∧ (∀ j, j ≠ k.slot → SMap.find u.keys.slots j = SMap.find k.slots j) ∧
        (res = 0 → k.op = 0 → SMap.find u.keys.slots k.slot = some data) ∧
        (res = 0 → k.op = 1 → SMap.find u.keys.slots k.slot = none ∧ ∀ l, l ∈ u.l2 → l.2.slot ≠ some k.slot) ∧
        (res ≠ 0 → u.keys.slots = k.slots ∧ u.l2 = s.l2 ∧ u.mem = s.mem) ∧ SameOwn s u ∧ u.groups = s.groups)) ∧
      (res = 1 ↔ k.op = 0 ∧ data.take 32 = data.drop 32) ∧
      (res = 2 ↔ k.op = 0 ∧ data.take 32 ≠ data.drop 32 ∧ ∃ b, SMap.find k.slots k.slot = some b) ∧
      (res = 3 ↔ k.op = 1 ∧ ∃ x, x ∈ s.parts ∧ x.2.keygrant.testBit k.slot = true) ∧ (res = 4 ↔ 2 ≤ k.op) ∧ res ≤ 4) ∧
    (∀ target vf value, vf < 64 →
      let cap := if target < 256 then 6553 else if target < 544 then 6400 else 7200
      let lkq := if target < 256 then value / 65536 % 1024 else 0
      let others := (s.apers.filter (fun x => x.1 / 64 == target && x.1 % 64 != vf)).map (fun x => x.2.next.getD (x.2.lkq, x.2.aper))
      let tooMuch := cap < (others.map Prod.snd).foldl (· + ·) (value % 65536) ∨ 512 < (others.map Prod.fst).foldl (· + ·) lkq
      target < 256 ∨ (512 ≤ target ∧ target < 544) ∨ (768 ≤ target ∧ target < 1024) →
        (tooMuch → Comes (.apertureWrite target vf value) s (fun u => u.monlog = s.monlog ++ [(.configError, target)] ∧
          { u with monlog := s.monlog, verdict := s.verdict } = s)) ∧
        (¬tooMuch → Comes (.apertureWrite target vf value) s (fun u => { u with apers := s.apers, verdict := s.verdict } = s ∧
          u.aper target vf = { s.aper target vf with next := some (lkq, value % 65536) } ∧
          ∀ j, j ≠ target * 64 + vf → SMap.find u.apers j = SMap.find s.apers j)))

/-- R426, R431 to R437, R439, R440, R472: a gate write goes through quiescing, draining, saving and clock gating to the gated rail once the cluster is
quiet, or is refused; a wake ends on; a start checks its images, calibrates within 2 to 15 and sets its clocks, or fails and is counted, the third
failure bringing minimal mode; CFGLOCK and BOOTOK; a staged image is verified, and judged at the decision tick. What the checks find is free.
The lengths of the power states and of a verification are the model's (log entry 28), and a failed start follows log entry 37. -/
def Obligations.GatingBootAndUpdate : Prop :=
  ∀ (s : State) (cl : Nat),
    let x := s.cluster cl
    let put := fun (u : State) (y : ClusterSt) => u.cluster cl = y ∧ u.groups = s.groups ∧ ∀ j, j ≠ cl → u.cluster j = s.cluster j
    let failed := fun (u : State) (reason : Nat) => u.boot.released = false ∧ u.boot.failcnt = min 3 (s.boot.failcnt + 1) ∧
      u.boot.reason = reason ∧ u.boot.locked = false ∧ u.boot.bootno = s.boot.bootno ∧ u.agenda = [({ tick := 0, cyc := none }, .resetRelease)] ∧ u.mem = s.mem ∧
      u.groups = [] ∧ u.teams = [] ∧ u.ctxs = [] ∧ u.parts = [] ∧ u.now = 0
    let path := [PowerState.on, .quiescing, .draining, .savingRetention, .clockGated, .railGated]
    (∀ ret, cl < 128 → x.power = .on → s.boot.minimal = false →
      let bad := (ret = false ∧ ∃ g, g ∈ s.segs ∧ g.2.chip = false ∧ g.2.cluster = cl ∧ g.2.st = .resident) ∨
        ∃ t, t ∈ s.teams ∧ t.2.resident = true ∧ t.2.cluster = cl ∧ t.2.kernel.pair = true
      (bad → Comes (.clusterGate cl ret) s (fun u => u.monlog = s.monlog ++ [(.configError, cl)] ∧
        { u with monlog := s.monlog, verdict := s.verdict } = s)) ∧
      (¬bad → Comes (.clusterGate cl ret) s (fun u => put u { x with ret := ret, gate := true, busy := true, power := .quiescing } ∧
        Sent s u 1 (.clusterGated cl) ∧ u.mem = s.mem))) ∧
    (∀ ret, cl < 128 → x.power ≠ .on → s.boot.minimal = false → Comes (.clusterGate cl ret) s (fun u => put u { x with ret := ret } ∧
      { u with clusters := s.clusters, verdict := s.verdict } = s)) ∧
    (∀ n, 1 ≤ n → n < 4 → path[n]? = some x.power → s.quiet cl = true → Comes (.clusterGated cl) s (fun u =>
      put u { x with power := path.getD (n + 1) .on } ∧ Sent s u 1 (.clusterGated cl) ∧ (n ≠ 3 → u.mem = s.mem ∧ u.tlb = s.tlb ∧ u.icache = s.icache) ∧
        (n = 3 → (∀ e, e ∈ u.tlb ↔ e ∈ s.tlb ∧ e.place ≠ cl) ∧ (∀ c va, c < 65536 → va < 2 ^ 64 → SMap.find u.icache (icKey cl c va) = none) ∧
          ∀ a, Memory.read u.mem a = if x.ret = false ∧ clusterKey cl ≤ a ∧ a < clusterKey cl + 8388608 then 0 else Memory.read s.mem a))) ∧
    (∀ n, 1 ≤ n → n < 5 → path[n]? = some x.power → s.quiet cl = false → exec (.clusterGated cl) s = .next (s.verd .held)) ∧
    (x.power = .clockGated → s.quiet cl = true → Comes (.clusterGated cl) s (fun u =>
      (x.wake = false → put u { x with power := .railGated, busy := false, gate := false, offSince := some s.now }) ∧
      (x.wake = true → put u { x with power := .waking, wake := true, busy := true, gate := false, offSince := some s.now } ∧
        ∃ dt, dt ≤ 8192 ∧ Sent s u dt (.clusterWakeComplete cl)) ∧ u.mem = s.mem)) ∧
    (cl < 128 → s.boot.minimal = false → x.wake = false →
      (x.power = .on → exec (.clusterWake cl) s = .next (s.verd .issued)) ∧
      (x.power = .railGated → Comes (.clusterWake cl) s (fun u => put u { x with power := .waking, wake := true, busy := true } ∧
        (∃ dt, dt ≤ 8192 ∧ Sent s u dt (.clusterWakeComplete cl)) ∧ u.mem = s.mem)) ∧
      (x.power ≠ .on → x.power ≠ .railGated → Comes (.clusterWake cl) s (fun u => put u { x with wake := true } ∧ u.mem = s.mem))) ∧
    (x.power = .waking → Comes (.clusterWakeComplete cl) s (fun u => (u.cluster cl).power = .on ∧ (u.cluster cl).wake = false ∧
      (u.cluster cl).busy = false ∧ (u.cluster cl).ret = x.ret ∧ u.mem = s.mem ∧ u.groups = s.groups)) ∧
    ((s.boot.released = false →
        let third := 3 ≤ s.boot.failcnt
        let r := if third then Config.imageCheck Config.safeImage
          else if Config.imageCheck Config.monitorImage ≠ 0 then Config.imageCheck Config.monitorImage
          else if Config.imageCheck Config.storeImage ≠ 0 then 4 else if Config.identityOk s.ticket = false then 5 else 0
        (r ≠ 0 → Comes .resetRelease s (fun u => 1 ≤ r ∧ r ≤ 5 ∧ failed u r)) ∧
        (r = 0 → Comes .resetRelease s (fun u =>
          (u.boot.released = true ∧ u.boot.minimal = decide (3 ≤ s.boot.failcnt) ∧ u.boot.stage = 4 ∧ u.boot.monver < 65536 ∧
            u.boot.failcnt = s.boot.failcnt ∧ u.boot.xlat.length = 48 ∧ (∀ e, e ∈ u.boot.xlat → 2 ≤ e ∧ e ≤ 15) ∧ u.mem = s.mem ∧
            (third → (u.part 0).facets = 1 ∧ (u.part 0).point = 0 ∧ u.boot.pins = []) ∧
            (¬third → ∀ vf ver, (vf, ver) ∈ u.boot.pins → ∃ im, Config.policyImage vf = some im ∧ Config.imageCheck im = 0 ∧ ver = versionOf im) ∧
            (∀ p, p < 16 → SentAt s u (.facets p) (s.cycleFrom (.facets p) (4096 - s.now % 4096)) (.budgetPeriodBoundary p)) ∧ (∀ d, d < 19 → Sent s u 1048576 (.correctionInterval d)) ∧
            Sent s u 61440 .decisionTick ∧ Sent s u 65536 .switchPoint ∧ Sent s u 10000000 .exportBoundary ∧ Sent s u 1000000 .demandSend ∧
            Sent s u 1073741824 .bootWatchdogExpiry)))) ∧
      (s.boot.released = true →
        (s.boot.bootok = false → Comes .bootWatchdogExpiry s (fun u => failed u 6)) ∧
        (s.boot.bootok = true → exec .bootWatchdogExpiry s = .next (s.verd .issued) ∧ exec .bootokWrite s = .next (s.verd .issued)) ∧
        Comes .cfglockWrite s (fun u => { u with verdict := s.verdict } =
          { s with boot := { s.boot with locked := true, stage := max 5 s.boot.stage } }) ∧
        (s.boot.bootok = false → Comes .bootokWrite s (fun u =>
          u.boot = { s.boot with bootok := true, bootno := s.boot.bootno + 1, failcnt := 0, stage := 6 } ∧
            (s.fleet.held = [] → u.fleet.epoch = s.fleet.rootLeaf ∧ u.fleet.rootLeaf = s.fleet.rootLeaf + 1) ∧ (s.fleet.held = [] → u.fleet.mkey = 0 ∧ u.fleet.leaf = 0) ∧ u.groups = s.groups ∧ u.teams = s.teams ∧ ∀ a, a ∈ s.agenda → a ∈ u.agenda)))) ∧
    (s.boot.updBusy = false → Comes .updateVerify s (fun u => u.boot = { s.boot with updBusy := true, updVer := true } ∧
        Sent s u 1 .updateVerifyComplete ∧ u.mem = s.mem ∧ u.groups = s.groups) ∧
      Comes .updateActivateRequest s (fun u => { u with verdict := s.verdict } = { s with boot := { s.boot with updBusy := true, updAct := true } })) ∧
    (s.boot.updBusy = true → exec .updateVerify s = .next (s.verd .issued) ∧ exec .updateActivateRequest s = .next (s.verd .issued)) ∧
    (s.boot.minimal = true → ∀ reg i v, reg ≠ 22 → exec (.configRegisterWrite reg i v) s = .next (s.verd .issued) ∧
      ∀ ring (w : Word), exec (.frrptrWrite ring w) s = .next (s.verd .issued)) ∧
    (s.boot.updVer = true → Comes .updateVerifyComplete s (fun u => u.boot.updBusy = false ∧ u.boot.updVer = false ∧
      u.boot.updResult = (match Config.imageCheck s.stagedImage with | 0 => 0 | 3 => 5 | _ => 2) ∧ u.boot.monver = s.boot.monver ∧ u.mem = s.mem ∧ u.groups = s.groups)) ∧
    (s.boot.updAct = true → Comes .decisionTick s (fun u => u.boot.monver = s.boot.monver ∧
      ((Config.imageCheck s.stagedImage = 0 ∧ let ver := versionOf s.stagedImage
          u.boot = { s.boot with switchTo := some ver, savesHeld := true } ∧
          (∀ t tm, (t, tm) ∈ s.teams → tm.st = .saved → s.imageAt t 0 2 ∈ Config.layouts ver) ∧
          ∀ x, x ∈ s.boot.pins → Config.policyKnown ver (Config.policyInterface x.2) = true) ∨
        (u.boot.updAct = false ∧ u.boot.updBusy = false ∧ u.boot.switchTo = s.boot.switchTo ∧ u.boot.updResult ∈ [2, 3, 4, 5]))))

/-- R402, R441 to R455: written counters and selectors, the addition of events and its wrap; arming a replay and its refusals; the copy of a page
before its first write; the end of a pass, once all that it counts has been counted, with its counts, signature and mismatch; the reset that
follows, and the next pass, the captured pages put back.
What ends a launch whose passes are exhausted follows log entry 41. -/
def Obligations.CountersAndReplay : Prop :=
  ∀ (s : State) (p n : Nat), p < 16 → s.boot.minimal = false →
    let x := s.part p
    let r := x.replay
    let c0 := s.cycle .uncore
    let only := fun (u : State) (y : Part) => { u.part p with opSince := x.opSince, cyc := x.cyc } = y ∧ (∀ q, q ≠ p → u.part q = s.part q) ∧ u.mem = s.mem ∧ u.groups = s.groups ∧
      u.launches = s.launches
    (n < 4 →
      (∀ v : DWord, r.arm = false → ∃ l m, Comes (.pmcWrite p n v) s (fun u => only u { x with pmc := l, pmsel := m }) ∧
        l.getD n 0 = v + BitVec.ofNat 64 (x.landedIn c0 n) ∧ (∀ k, k < 4 → k ≠ n → l.getD k 0 = x.pmc.getD k 0 ∧ m.getD k 0 = x.pmsel.getD k 0) ∧
        m.getD n 0 = if 2 ^ 64 ≤ v.toNat + x.landedIn c0 n then x.pmsel.getD n 0 ||| 0x10000000 else x.pmsel.getD n 0) ∧
      (∀ v : Word, r.arm = false → ∃ l, Comes (.pmselWrite p n v) s (fun u => only u { x with pmsel := l, selWas := some (c0, x.selIn c0) }) ∧
        (∀ k, k < 4 → k ≠ n → l.getD k 0 = x.pmsel.getD k 0) ∧
        ∀ i, i < 32 → (l.getD n 0).getLsbD i = (if i = 28 then (x.pmsel.getD n 0).getLsbD 28 && !v.getLsbD 28
          else if (20 ≤ i ∧ i < 28) ∨ i = 8 ∨ i = 9 then false else v.getLsbD i)) ∧
      (∀ v w, r.arm = true → exec (.pmcWrite p n v) s = .next (s.verd .issued) ∧ exec (.pmselWrite p n w) s = .next (s.verd .issued))) ∧
    (∀ c ev amount rp,
      let hit := fun (k : Nat) => let w := (x.selIn c0).getD k 0
        w.getLsbD 31 = true ∧ (w.extractLsb' 0 8).toNat = ev ∧ ((w.extractLsb' 29 2 = 0 ∧ (w.extractLsb' 10 10).toNat = c % 1024) ∨
          w.extractLsb' 29 2 = 1 ∨ (w.extractLsb' 29 2 = 2 ∧ rp = true))
      ((∃ k, k < 4 ∧ hit k) → ∃ l m, Comes (.counterEvent p { ctx := c, ev := ev, replay := rp } amount) s (fun u => ∃ i, only u { x with pmc := l, pmsel := m, landed := some (c0, i) } ∧
        ∀ k, k < 4 → (hit k → i.getD k 0 = x.landedIn c0 k + amount) ∧ (¬hit k → i.getD k 0 = x.landedIn c0 k)) ∧ ∀ k, k < 4 →
        (hit k → l.getD k 0 = x.pmc.getD k 0 + BitVec.ofNat 64 amount ∧
          m.getD k 0 = if 2 ^ 64 ≤ (x.pmc.getD k 0).toNat + amount then x.pmsel.getD k 0 ||| 0x10000000 else x.pmsel.getD k 0) ∧
        (¬hit k → l.getD k 0 = x.pmc.getD k 0 ∧ m.getD k 0 = x.pmsel.getD k 0)) ∧
      ((∀ k, k < 4 → ¬hit k) → exec (.counterEvent p { ctx := c, ev := ev, replay := rp } amount) s = .next (s.verd .issued))) ∧
    (∀ v, r.arm = false →
      let set := { r with npass := v / 2 ^ 59 % 16, retry := v / 2 ^ 56 % 8, queue := v / 2 ^ 44 % 4096, areapg := v / 2 ^ 24 % 65536, area := v % 2 ^ 24 }
      let pages := v / 2 ^ 24 % 65536
      let lies := 1 ≤ pages ∧ pages ≤ 4096 ∧ ∀ k, k < pages → let a := (v % 2 ^ 24 + k) * 65536
        a + 65535 < 549755813888 ∧ (a + 65535) % 34359738368 < 27000000000 ∧ x.facets.testBit (a / 34359738368) = true
      (v.testBit 63 = false → Comes (.replayArm p v) s (fun u => only u { x with replay := set })) ∧
      (v.testBit 63 = true → lies → Comes (.replayArm p v) s (fun u => only u { x with replay :=
        { set with arm := true, state := 1, result := 0, unsafeW := false, preempt := 0, mismatch := 0, pages := [], copying := [], full := false } })) ∧
      (v.testBit 63 = true → ¬lies → Comes (.replayArm p v) s (fun u => u.monlog = s.monlog ++ [(.configError, p)] ∧
        { u with monlog := s.monlog, verdict := s.verdict } = s))) ∧
    (∀ v, r.arm = true → exec (.replayArm p v) s = .next (s.verd .issued)) ∧
    (∀ page, r.state = 2 → page ∉ r.pages → page ∉ r.copying → r.full = false →
      (r.areapg ≤ r.pages.length + r.copying.length → Comes (.pageCapture p page) s (fun u => only u { x with replay := { r with full := true } })) ∧
      (r.pages.length + r.copying.length < r.areapg →
        Admitted s (s.vfOf (s.replayPayer p)) (sumUnits (s.pageUnits (65536 * page) ((r.area + r.pages.length + r.copying.length) * 65536))) →
        Comes (.pageCapture p page) s (fun u =>
        only u { x with replay := { r with copying := r.copying ++ [page] } } ∧ Sent s u 1 (.pageCaptureComplete p page)))) ∧
    (∀ page, page ∈ r.copying → Memory.wf s.mem = true → s.fleet.errHeld = [] → s.fleet.held = [] → s.fleet.certs = [] → Comes (.pageCaptureComplete p page) s (fun u =>
      let slot := (r.area + r.pages.length) * 65536
      (u.part p).replay = { r with pages := r.pages ++ [page], copying := r.copying.filter (fun g => g != page) } ∧
        (∀ i, i < 65536 → Memory.read u.mem (slot + i) = Memory.read s.mem (65536 * page + i)) ∧ SameBut slot 65536 s u ∧ u.groups = s.groups ∧
        u.launches = s.launches)) ∧
    (∀ l, SMap.find s.launches r.launch = some l → r.state = 2 → l.replay = true → s.launchDone r.launch l = true →
      r.copying ≠ [] ∨ s.replayLands p = true → exec (.replayPassEnd p) s = .next (s.verd .held)) ∧
    (∀ l, SMap.find s.launches r.launch = some l → r.state = 2 → l.replay = true → s.launchDone r.launch l = true → r.copying = [] →
      s.replayLands p = false →
      let cnt := fun (u : State) => ∀ k, k < 4 → SMap.find (u.part p).replay.cnt (4 * r.pass + k) = some (x.pmc.getD k 0).toNat
      let sig := fun (u : State) => SMap.find (u.part p).replay.sig r.pass = some r.grid ∧ (u.part p).replay.mismatch =
        (if r.pass ≠ 0 ∧ SMap.getD r.sig 0 0 ≠ r.grid then r.mismatch ||| 2 ^ r.pass else r.mismatch)
      let ended := fun (u : State) (st res : Nat) => (u.part p).replay.state = st ∧ (u.part p).replay.result = res ∧ (u.part p).replay.arm = false ∧
        SMap.find u.launches r.launch = some { l with replay := false } ∧ Sent s u 0 (.launchCompletion r.launch) ∧ u.mem = s.mem
      (r.full = true → Comes (.replayPassEnd p) s (fun u => cnt u ∧ sig u ∧ ended u 5 3)) ∧
      (r.full = false → r.pass = r.npass → Comes (.replayPassEnd p) s (fun u => cnt u ∧ sig u ∧ ended u 4 1)) ∧
      (r.full = false → r.pass ≠ r.npass → Unshared s →
        Comes (.replayPassEnd p) s (fun u => cnt u ∧ sig u ∧ (u.part p).replay.state = 3 ∧ (u.part p).replay.next = r.pass + 1 ∧
          (u.part p).replay.pages = r.pages ∧ u.launches = s.launches ∧ Sent s u 1 (.replayPassEnd p) ∧ SameOwn s u ∧
          (∀ e, e ∈ u.l2 → s.lineIn p e.1 = false) ∧ ∀ e, e ∈ u.tlb → ¬(e.part = p ∧ e.pasid = (s.ctx l.ctx).crec.pasid ∧ (s.ctx l.ctx).part = p)))) ∧
    (∀ l, SMap.find s.launches r.launch = some l → r.state = 3 → l.replay = true → SMap.find s.parts p = some x → Memory.wf s.mem = true →
      r.pages.Nodup → (∀ g, g ∈ r.pages → g < 8388608 ∧ (g < r.area ∨ r.area + r.pages.length ≤ g)) → Admitted s (s.vfOf l.ctx) (s.restoreUnits p) →
      Comes (.replayPassEnd p) s (fun u => (u.part p).replay.state = 2 ∧ (u.part p).replay.pass = r.next ∧
        (u.part p).replay.cnt = r.cnt ∧ (u.part p).replay.sig = r.sig ∧ (u.part p).replay.grid = 0 ∧ (u.part p).pmc = [0, 0, 0, 0] ∧
        (∀ k, k < 4 → ((u.part p).pmsel.getD k 0).toNat = 3221225472 + r.sel.getD r.next 0 / 256 ^ k % 256) ∧
        (∃ y, SMap.find u.launches r.launch = some y ∧ y.next = 0 ∧ y.again = [] ∧ y.replay = true) ∧
        ∀ k i g, r.pages[k]? = some g → i < 65536 → Memory.read u.mem (65536 * g + i) = Memory.read s.mem ((r.area + k) * 65536 + i)))

/-- R139, R456 to R461, R463: at an export boundary every context's account is read, the number and the start of the interval advance, a virtual
function's running total grows by what its record reports, and the device's idle record, signed, stands in the meter ring; an attestation
report carries its kind, its virtual function, BSTAT, BOOTNO and the nonce, signed by a fresh leaf. The bytes of signatures are free.
When a record is signed, merged and flagged FINAL follows log entry 38. -/
def Obligations.ExportsAndReports : Prop :=
  ∀ (s : State),
    let f := s.fleet
    let slot := f.meter.base + 3072 * (f.meter.wptr % 2 ^ f.meter.log2)
    let room := (f.meter.wptr + 4294967296 - f.meter.rptr) % 4294967296 < 2 ^ f.meter.log2
    let field := fun (u : State) (k n v : Nat) => Memory.readN u.mem (slot + k) n = v % 256 ^ n
    (s.now % f.exptNext.getD f.expt < f.exptNext.getD f.expt → Comes .exportBoundary s (fun u =>
      u.fleet.seq = f.seq + 1 ∧ u.fleet.lastExport = s.now ∧ u.fleet.expt = f.exptNext.getD f.expt ∧ u.fleet.exptNext = none ∧
      u.fleet.finals = [] ∧ u.groups = s.groups ∧ u.teams = s.teams ∧
      Sent s u (f.exptNext.getD f.expt - s.now % f.exptNext.getD f.expt) .exportBoundary ∧
      (∀ c k, SMap.find s.ctxs c = some k → ∃ l, SMap.find u.ctxs c = some { k with seen := k.acct, seenCorr := k.corr, verified := l }) ∧
      (∀ p x v, (p, x) ∈ s.parts → v < 64 → x.vfs.testBit v = true →
        SMap.getD u.fleet.totals v 0 = SMap.getD f.totals v 0 + (s.unread v).1 + (s.unread v).2) ∧
      (s.parts = [] → f.leaving = [] → f.held = [] → f.certs = [] → SMap.find f.vfMeters 80 = none → room → f.leaf < 32768 → s.boot.bootok = true →
        u.fleet.meter = { f.meter with wptr := (f.meter.wptr + 1) % 4294967296 } ∧ u.fleet.held = [] ∧ u.fleet.leaf = f.leaf + 1 ∧
        field u 0 2 1 ∧ field u 2 1 255 ∧ field u 3 1 255 ∧ field u 4 4 0 ∧ field u 8 8 Config.deviceId ∧ field u 16 4 s.boot.bootno ∧
        field u 20 4 (f.seq + 1) ∧ field u 24 8 f.lastExport ∧ field u 32 8 (s.now - f.lastExport) ∧
        field u 40 16 ((f.idle - f.seenIdle) % 2 ^ 128).toNat ∧ field u 56 16 0 ∧ field u 104 8 (s.now - f.lastExport) ∧
        field u 234 2 0 ∧ field u 352 4 f.epoch ∧ field u 356 4 f.mkey ∧ field u 360 8 0 ∧ SameBut slot 3072 s u) ∧
      (s.boot.bootok = false → f.certs = [] → u.mem = s.mem ∧ u.fleet.meter = f.meter ∧ u.fleet.leaf = f.leaf ∧ u.fleet.held ≠ []))) ∧
    (∀ v nonce, v < 64 ∨ v = 255 → s.boot.minimal = false → s.boot.bootok = true → f.leaf < 32768 → Comes (.attestationRequest v nonce) s (fun u =>
      u.fleet.leaf = f.leaf + 1 ∧ u.groups = s.groups ∧ u.teams = s.teams ∧ (f.certs = [] → u.ctxs = s.ctxs ∧ u.mem = s.mem) ∧ ∃ r, u.fleet.reports = f.reports ++ [r] ∧ r.length = 2940 ∧
        (∀ k n x, (k, n, x) ∈ [(0, 2, 3), (2, 1, v), (8, 8, Config.deviceId), (16, 4, s.boot.bootno), (20, 4, 0), (24, 32, nonce),
            (154, 2, s.boot.monver), (156, 2, s.policy v), (158, 2, 0), (160 + 96, 4, f.epoch), (160 + 100, 4, f.mkey), (160 + 104, 8, 0)] →
          ∀ i, i < n → r[k + i]? = some (BitVec.ofNat 8 (x / 256 ^ i))) ∧
        (s.boot.locked = true → ∃ y, r[7]? = some y ∧ y.getLsbD 7 = true))) ∧
    (∀ v nonce, v < 64 ∨ v = 255 → s.boot.minimal = false → s.boot.bootok = false →
      exec (.attestationRequest v nonce) s = .next (s.verd .held))

/-- R426, R464 to R466, R468 to R471: a demand each period, the allocator's division of the rack cap, a grant that echoes a period and the floor
after three without one; PLANEEN; a failing port, corrected and uncorrected errors and link retries, each with its record in the error ring; a
line that holds an uncorrectable error is bad, and a full table stops its partition. The order of the fields of an error record is the model's
choice (log entry 26), and who is served and how retries are counted follows log entry 39. -/
def Obligations.CapsPlanesAndErrors : Prop :=
  ∀ (s : State),
    let f := s.fleet
    let slot := f.errors.base + 32 * (f.errors.wptr % 2 ^ f.errors.log2)
    let logged := fun (u : State) (addr unit kind part : Nat) =>
      (f.errors.wptr + 4294967296 - f.errors.rptr) % 4294967296 < 2 ^ f.errors.log2 → f.errHeld = [] → s.mayWrite slot 32 = true →
        u.fleet.errors = { f.errors with wptr := (f.errors.wptr + 1) % 4294967296 } ∧ u.fleet.errHeld = [] ∧
          ∀ k n x, (k, n, x) ∈ [(0, 8, s.now), (8, 8, addr), (16, 2, unit), (18, 1, kind), (19, 1, part), (20, 2, 65535)] →
            Memory.readN u.mem (slot + k) n = x % 256 ^ n
    let near := fun (u : State) => u.groups = s.groups ∧ ∀ c k, SMap.find s.ctxs c = some k → ∃ l, SMap.find u.ctxs c = some { k with verified := l }
    let quiet := fun (u : State) => near u ∧ u.teams = s.teams ∧
      ∀ n x, SMap.find s.queues n = some x → ∃ w, SMap.find u.queues n = some { x with wait := w }
    let burst := fun (k : Nat) => unitsOf (amountOf s.weights [(k, 1)])
    Comes .demandSend s (fun u => u.fleet.demandSeq = f.demandSeq + 1 ∧ u.fleet.missed = f.missed + 1 ∧
      Sent s u (1000000 - s.now % 1000000) .demandSend ∧ quiet u ∧ u.mem = s.mem ∧ (3 ≤ f.missed → Sent s u 0 .grantAbsence) ∧
      ∀ n, f.capPlane = some n → ∃ z, u.fleet.flits = f.flits ++ [(n, z)] ∧ z % 256 = 1 ∧ z / 256 % 4096 = Config.fabricId % 4096 ∧
        z / 2 ^ 32 % 2 ^ 32 = (f.demandSeq + 1) % 2 ^ 32 ∧ z / 2 ^ 64 % 65536 ≤ 6000 ∧ z / 2 ^ 80 % 65536 = Config.packageFloor % 65536 ∧
        z / 2 ^ 112 = 0 ∧ SMap.find u.fleet.demands Config.fabricId = some (z / 2 ^ 64 % 65536)) ∧
    (f.demands ≠ [] →
      let dmd := fun (d : Nat) => SMap.getD f.demands d (SMap.getD f.prev d 0)
      let e := f.capC - (f.served.map Prod.snd).foldl (· + ·) 0
      let sum := (f.served.map (fun x => dmd x.1 - x.2)).foldl (· + ·) 0
      let answered := fun (u : State) => u.fleet.grants = f.served.map (fun x => (x.1, if sum = 0 then x.2 else
          x.2 + min (dmd x.1 - x.2) (e * (dmd x.1 - x.2) / sum))) ∧ u.fleet.demands = [] ∧ u.fleet.prev = f.served.map (fun x => (x.1, dmd x.1)) ∧
        (f.capPlane ≠ none → Sent s u 1 (.grantReceived (SMap.getD u.fleet.grants Config.fabricId 0) f.demandSeq)) ∧ quiet u ∧ u.mem = s.mem
      Comes .allocatorWaitExpiry s answered ∧
        ((∀ x, x ∈ f.served → SMap.find f.demands x.1 ≠ none) → Comes .allocatorGrant s answered)) ∧
    (∀ watts seq, (seq ≤ f.demandSeq → Comes (.grantReceived watts seq) s (fun u =>
        { u with verdict := s.verdict } = { s with fleet := { f with grant := some watts, missed := 0 } })) ∧
      (f.demandSeq < seq → exec (.grantReceived watts seq) s = .next (s.verd .issued))) ∧
    (3 ≤ f.missed → Comes .grantAbsence s (fun u =>
      { u with verdict := s.verdict } = { s with fleet := { f with grant := some Config.packageFloor, floorFlag := true } })) ∧
    (∀ v : Word, s.boot.minimal = false → Comes (.planeenWrite v) s (fun u =>
      { u with verdict := s.verdict } = { s with fleet := { f with planeNext := some v.toNat } })) ∧
    (∀ port, port < 32 → port ∉ f.down →
      Comes (.fabricPortFailure port) s (fun u => u.fleet.down = f.down ++ [port] ∧ quiet u ∧ logged u 0 port 5 255) ∧
      (SMap.getD f.retries port 0 < 8 → Comes (.linkCrcRetry port) s (fun u => quiet u ∧ u.fleet.down = f.down ∧
        SMap.getD u.fleet.retries port 0 = SMap.getD f.retries port 0 + 1 ∧ u.fleet.idle = f.idle + (burst 11 : Nat) ∧ logged u 0 port 2 255)) ∧
      (8 ≤ SMap.getD f.retries port 0 → Comes (.linkCrcRetry port) s (fun u => quiet u ∧ u.mem = s.mem ∧
        SMap.getD u.fleet.retries port 0 = 0 ∧ Sent s u 0 (.fabricPortFailure port)))) ∧
    (∀ unit kind addr, kind ≤ 1 → Comes (.correctedError unit kind addr) s (fun u => quiet u ∧ u.l2 = s.l2 ∧
      u.fleet.idle = f.idle + (if kind = 1 then burst 10 else 0 : Nat) ∧ logged u addr.toNat unit kind (s.partAt addr.toNat) ∧
      ∀ a, (a < slot ∨ slot + 32 ≤ a) → f.errHeld = [] → Memory.read u.mem a = Memory.read s.mem a)) ∧
    (∀ unit line, 64 * line < 549755813888 → s.isBad line = false →
      let k := sliceOf (64 * line)
      let p := s.partAt (64 * line)
      let n := (f.badLines.filter (fun x => x.1 == k)).length
      (n < 64 → Comes (.uncorrectableUnconsumed unit line) s (fun u => quiet u ∧ u.isBad line = true ∧ SMap.find u.l2 line = none ∧
        logged u (64 * line) unit 4 p)) ∧
      (64 ≤ n → Comes (.uncorrectableUnconsumed unit line) s (fun u => near u ∧ u.fleet.badLines = f.badLines ∧
        SMap.find u.l2 line = none ∧ u.monlog = s.monlog ++ [(.partitionBad, p)] ∧
        ∀ t tm, SMap.find s.teams t = some tm →
          (tm.part = p → tm.resident = true → ∃ y, SMap.find u.teams t = some y ∧ y.st = .faulted) ∧
          (tm.part ≠ p → SMap.find u.teams t = some tm))))

/-- R7, R8, R140, R141, R346, R349, R370, R402, R413, R416, R419, R430, R434, R439, R445, R456, R460, R464, R471: what a write leaves in each
configuration register, its refusals and its lock, and that it changes nothing else; a written read pointer.
The numbers and packing of the registers are the model's choice (log entry 25), and what is refused beyond the rules follows log entry 36. -/
def Obligations.ConfigurationRegisters : Prop :=
  ∀ (s : State) (i v : Nat), s.boot.minimal = false →
    let same := fun (u : State) (t : State) => { u with verdict := s.verdict } = t
    let told := fun (u : State) (n : Nat) => same u { s with monlog := s.monlog ++ [(.configError, n)] }
    let reg := fun (n : Nat) (t : State) => Comes (.configRegisterWrite n i v) s (fun u => same u t)
    let refused := fun (n k : Nat) => Comes (.configRegisterWrite n i v) s (fun u => told u k)
    let entry : AccEntry :=
      { lim := v / 2 ^ 104 % 2 ^ 24, base := v / 2 ^ 80 % 2 ^ 24, a := v.testBit 3, w := v.testBit 2, r := v.testBit 1, v := v.testBit 0 }
    let new : Export :=
      { valid := v.testBit 0, key := v / 2 ^ 136 % 2 ^ 32, lo := v / 2 ^ 8 % 2 ^ 64, hi := v / 2 ^ 72 % 2 ^ 64, at' := v.testBit 3, wr := v.testBit 2,
        rd := v.testBit 1 }
    let none' : Export := { valid := false, key := 0, lo := 0, hi := 0, at' := false, wr := false, rd := false }
    let nibble := fun (k : Nat) => v / 16 ^ k % 16
    (s.boot.locked = true → ∀ n, n < 3 → reg n s) ∧
    (s.boot.locked = false → i < 6 →
      ((∃ k, k < 8 ∧ nibble k < 2) → refused 0 i) ∧
      ((∀ k, k < 8 → 2 ≤ nibble k) → Comes (.configRegisterWrite 0 i v) s (fun u => same u { s with boot := { s.boot with xlat := u.boot.xlat } } ∧
        ∀ j, j < 48 → u.boot.xlat.getD j 0 = if j / 8 = i then nibble (j % 8) else s.boot.xlat.getD j 0))) ∧
    (s.boot.locked = false → i < 18 → Comes (.configRegisterWrite 1 i v) s (fun u => same u { s with weights := u.weights } ∧
      u.weights.getD i 0 = v % 2 ^ 48 ∧ ∀ j, j < 18 → j ≠ i → u.weights.getD j 0 = s.weights.getD j 0)) ∧
    (s.boot.locked = false → i < 16 → Comes (.configRegisterWrite 2 i v) s (fun u => same u { s with scale := u.scale } ∧
      u.scale.getD i 0 = v ∧ ∀ j, j < 16 → j ≠ i → u.scale.getD j 0 = s.scale.getD j 0)) ∧
    Comes (.configRegisterWrite 3 i v) s (fun u => same u { s with access := u.access } ∧
      SMap.find u.access i = some entry ∧ ∀ j, j ≠ i → SMap.find u.access j = SMap.find s.access j) ∧
    Comes (.configRegisterWrite 4 i v) s (fun u => same u { s with exports := u.exports } ∧
      ∀ k, k < 256 → let old := (SMap.getD s.exports (i / 256) []).getD k none'
        ∃ l, SMap.find u.exports (i / 256) = some l ∧ l[k]? = some (if k ≠ i % 256 then old else new)) ∧
    (1000000 ≤ v → v ≤ 1000000000 → reg 5 { s with fleet := { s.fleet with exptNext := some v } }) ∧
    (v < 1000000 ∨ 1000000000 < v → refused 5 v) ∧
    (i < 16 →
      let x := s.part i
      let part := fun (n : Nat) (y : Part) => Comes (.configRegisterWrite n i v) s (fun u => same u { s with parts := u.parts } ∧
        { u.part i with opSince := x.opSince, cyc := x.cyc } = y ∧ ∀ j, j ≠ i → SMap.find u.parts j = SMap.find s.parts j)
      part 6 { x with ring := { x.ring with base := v / 64 * 64 } } ∧ (4 ≤ v → v ≤ 16 → part 7 { x with ring := { x.ring with log2 := v } }) ∧
      Comes (.configRegisterWrite 15 i v) s (fun u => same u { s with savebws := u.savebws } ∧ u.savebw i = v % 2 ^ 32 ∧
        ∀ j, j ≠ i → u.savebw j = s.savebw j) ∧
      part 16 { x with pfhold := v % 2 ^ 32 } ∧ part 20 { x with invVa := v % 2 ^ 41 }) ∧
    (∀ n, n ∈ [7, 9, 11, 13] → (n = 7 → i < 16) → (n = 13 → i < 64) → v < 4 ∨ 16 < v → refused n v) ∧
    reg 8 { s with fleet := { s.fleet with meter := { s.fleet.meter with base := v / 64 * 64 } } } ∧
    (4 ≤ v → v ≤ 16 → reg 9 { s with fleet := { s.fleet with meter := { s.fleet.meter with log2 := v } } } ∧
      reg 11 { s with fleet := { s.fleet with errors := { s.fleet.errors with log2 := v } } }) ∧
    reg 10 { s with fleet := { s.fleet with errors := { s.fleet.errors with base := v / 64 * 64 } } } ∧
    (i < 64 →
      let old := SMap.getD s.fleet.vfMeters i Ring.zero
      let ring := fun (n : Nat) (r : Ring) => Comes (.configRegisterWrite n i v) s (fun u =>
        same u { s with fleet := { s.fleet with vfMeters := u.fleet.vfMeters } } ∧ SMap.find u.fleet.vfMeters i = some r)
      ring 12 { old with base := v / 64 * 64 } ∧ (4 ≤ v → v ≤ 16 → ring 13 { old with log2 := v })) ∧
    (s.keys.busy = false →
      (v.testBit 31 = true → Comes (.configRegisterWrite 19 i v) s (fun u =>
        u.keys = { s.keys with busy := true, slot := v / 256 % 256, op := v % 4 } ∧ Sent s u 1 .keyCommandComplete ∧
          same u { s with keys := u.keys, agenda := u.agenda })) ∧
      (v.testBit 31 = false → reg 19 { s with keys := { s.keys with slot := v / 256 % 256, op := v % 4 } })) ∧
    (s.keys.busy = true → reg 19 s) ∧
    (i < 16384 → Comes (.configRegisterWrite 14 i v) s (fun u => same u { s with ctxs := u.ctxs } ∧
      SMap.find u.ctxs i = some { s.ctx i with part := i / 1024, spq := v / 65536 % 2 ^ 24 } ∧
        ∀ j, j ≠ i → SMap.find u.ctxs j = SMap.find s.ctxs j)) ∧
    (i < 256 → (s.part (i / 16)).replay.arm = false → Comes (.configRegisterWrite 17 i v) s (fun u =>
      same u { s with parts := u.parts } ∧ (u.part (i / 16)).replay.sel.getD (i % 16) 0 = v % 2 ^ 32 ∧
        ∀ j, j < 16 → j ≠ i % 16 → (u.part (i / 16)).replay.sel.getD j 0 = (s.part (i / 16)).replay.sel.getD j 0)) ∧
    (i < 128 → v.testBit 0 = false → Comes (.configRegisterWrite 25 i v) s (fun u => same u { s with clusters := u.clusters } ∧
      u.cluster i = { s.cluster i with ret := v.testBit 1 } ∧ ∀ j, j ≠ i → u.cluster j = s.cluster j)) ∧
    (i < 16 → s.keys.busy = false → Comes (.configRegisterWrite 18 i v) s (fun u => same u { s with keys := { s.keys with kdata := u.keys.kdata } } ∧
      ∀ k, k < 64 → u.keys.kdata.getD k 0 = if k / 4 = i then v / 256 ^ (k % 4) % 256 else s.keys.kdata.getD k 0)) ∧
    (v / 2 ^ 61 % 4 = 3 → refused 21 i) ∧
    Comes (.configRegisterWrite 22 i v) s (fun u => same u { s with boot := { s.boot with updStage := v % 2 ^ 64 } }) ∧
    reg 23 { s with fleet := { s.fleet with capC := v } } ∧
    reg 24 { s with fleet := { s.fleet with floors := SMap.set s.fleet.floors i v } } ∧
    (∀ w : Word,
      (i < 16 → Comes (.frrptrWrite i w) s (fun u => same u { s with parts := u.parts } ∧
        { u.part i with opSince := (s.part i).opSince, cyc := (s.part i).cyc } =
          { s.part i with ring := { (s.part i).ring with rptr := w.toNat } } ∧ ∀ j, j ≠ i → SMap.find u.parts j = SMap.find s.parts j)) ∧
      (s.fleet.held = [] → s.fleet.certs = [] → Comes (.frrptrWrite 16 w) s (fun u =>
        same u { s with fleet := { s.fleet with meter := { s.fleet.meter with rptr := w.toNat } } })) ∧
      (s.fleet.errHeld = [] → Comes (.frrptrWrite 17 w) s (fun u =>
        same u { s with fleet := { s.fleet with errors := { s.fleet.errors with rptr := w.toNat } } })) ∧
      (i < 64 → s.fleet.held = [] → s.fleet.certs = [] → Comes (.frrptrWrite (18 + i) w) s (fun u =>
        same u { s with fleet := { s.fleet with vfMeters := u.fleet.vfMeters } } ∧
          SMap.find u.fleet.vfMeters i = some { SMap.getD s.fleet.vfMeters i Ring.zero with rptr := w.toNat })))

/-- R28, R30, R31, R167 to R173, R205, R332, R333: where nothing else is due and one group may issue, a step fetches the packet at the group's
position, walking for it where no instruction cache holds it, and where the word there decodes to an instruction that stands alone in its set, the
step is exec of that instruction on the group as it stood, and the group then stands at the next set, at the target of a transfer, from which it
issues no sooner than the gap of a taken transfer allows, or blocked at the word; a memory word awaits its clearance; a held word leaves the group
waiting, and time passes. A path that the word blocks gives way to another where one may run (R42). That a step issues one set, and that a held
group waits for the clocks' next cycle, is the model's (log entries 3 and 24). -/
def Obligations.StepRunsTheDecodedWord : Prop :=
  ∀ (s : State) (gid : Nat) (g : Group) (code : List Nat) (i : Instr), s.rest = none → s.due = [] → s.subcores = [(g.subKey, [(gid, g)])] →
    (∀ x, x ∈ s.groups → s.mayFault x.2 = true → s.ready x.2 = true) →
    SMap.find s.groups gid = some g → g.block = none → g.deferred = [] → g.clear = none → g.loopBuf = none →
    let team := s.team g.team
    let k := g.pos.w
    let word := code.getD k 0
    let after := if isHeadMajor (majorOf word) then k + 2 else k + 1
    let next : Pos := if 3 ≤ after ∨ isPad code after = true then { pa := g.pos.pa + 12, w := 0 } else { pa := g.pos.pa, w := after }
    let key := icKey team.cluster team.ctx g.pos.pa.toNat
    s.packetAt team.cluster team.part team.crec g.pos.pa = .ok code → (∀ q, SMap.find s.icache key = some q → q = code) →
    isLit code k = false → isPad code k = false → after ≤ 3 →
    decodeWord word (if isHeadMajor (majorOf word) then some (code.getD (k + 1) 0) else none) = .ok (false, i) →
    let set : IssueCtx := { snap := some (signedNow g), w := k, next := next, phase := .whole }
    let here : State := { s with cur := gid }
    let walked := if (SMap.find s.icache key).isSome then here else here.fetchWalk g.team g.pos.pa.toNat
    ∀ t, exec i { ({ walked with icache := SMap.set s.icache key code : State }.resign) with issue := set } = .next t →
      let h := t.grp gid
      let rest := fun (u : State) =>
        { u with groups := t.groups, agenda := t.agenda, issue := t.issue, cores := t.cores, turn := t.turn, verdict := t.verdict }
      let onward := fun (u : State) => rest u = t ∧ u.now = s.now ∧ (∀ x, x ∈ t.agenda → x ∈ u.agenda)
      let turned := fun (u : State) => u.turn = (u.grp gid).subKey + 1 ∧
        SMap.find (u.core (u.grp gid).coreId).last (u.grp gid).subc = some gid
      t.cur = gid → t.now = s.now →
      let like := fun (u : State) => { u.grp gid with sig := h.sig, sigs := h.sigs } = h ∧
        ∀ j, j ≠ gid → SMap.find u.groups j = SMap.find t.groups j
      (t.verdict = .trapped → ∃ u, step s = .next u ∧ onward u ∧ like u) ∧
      (t.verdict = .issued → h.clear = none → ∃ u, step s = .next u ∧ onward u ∧ turned u ∧
        u.groups = SMap.set t.groups gid (settled (h.moveTo next))) ∧
      (t.verdict = .transferred → h.clear = none → ∃ u, step s = .next u ∧ onward u ∧ turned u ∧
        u.grp gid = settled (h.gapped g.pos (t.cycle (.facets (t.team h.team).part))) ∧
        ∀ j, j ≠ gid → SMap.find u.groups j = SMap.find t.groups j) ∧
      (t.verdict = .blocked → h.clear = none → ∃ u, step s = .next u ∧ onward u ∧ turned u ∧ u.grp gid =
          settled { h.moveTo { pa := g.pos.pa, w := k } with block := h.block.map (fun b => { b with after := next }) } ∧
        ∀ j, j ≠ gid → SMap.find u.groups j = SMap.find t.groups j) ∧
      (t.verdict = .issued → ∀ op, h.clear = some op → ∃ u, step s = .next u ∧ turned u ∧ u.groups = t.groups ∧ u.ops = t.ops ∧ u.mem = t.mem ∧
        u.teams = t.teams ∧ u.ctxs = t.ctxs ∧ (∀ x, x ∈ t.agenda → x ∈ u.agenda) ∧ u.now = s.now ∧
        SMap.find u.snaps op = some { gid := gid, words := [], snap := signedNow g, start := g.pos, next := next }) ∧
      (t.verdict = .held → ∃ u, step s = .next u ∧ (s.now < u.now ∨ u.now = s.now ∧ s.round = 0 ∧ u.round = 1) ∧ u.verdict = .held ∧
        u.turn = 0 ∧ u.mem = t.mem ∧ u.ops = t.ops ∧ u.ctxs = t.ctxs ∧ u.cores = t.cores ∧ u.locks = t.locks ∧ u.tlb = t.tlb ∧ like u ∧
        ∀ x, x ∈ t.agenda → x ∈ u.agenda)

/-- R3, R167 to R184, R197 to R221, R252 to R276, R280 to R285, R293, R300, R306 to R320 (the words that the spec writes out in its examples, and
words that its tables give): each decodes to the instruction that the spec says it is; a literal head without its literal, a major and a minor
that are not assigned, and a field that the form does not use and that is not 0 are refused by name. -/
def Obligations.SpecWordsDecode : Prop :=
  decodeWord 0x02182100 none = .ok (false, .saddS 3 1 2 false false) ∧
  decodeWord 0x0228A3B2 none = .ok (false, .ssra 5 5 7 false true) ∧
  decodeWord 0x0A2120E8 none = .ok (false, .sbfeZ 4 9 false 7 8) ∧
  decodeWord 0x0C1FFFFF none = .ok (false, .sli 3 524287) ∧
  decodeWord 0x0E400000 (some 0x3FC00000) = .ok (false, .slit 8 0x3FC00000) ∧
  decodeWord 0x0230A01E none = .ok (false, .smov 6 5 false) ∧
  decodeWord 0x105FFFFE none = .ok (false, .jmp 2 2097150) ∧
  decodeWord 0x14480003 none = .ok (false, .brnz 9 3) ∧
  decodeWord 0x1A080002 (some 3) = .ok (false, .div 1 2 3) ∧
  decodeWord 0x1E100004 none = .ok (false, .loopb 2 4) ∧
  decodeWord 0x18000005 none = .ok (false, .nop) ∧
  decodeWord 0x18000006 none = .ok (false, .exit) ∧
  decodeWord 0x18000007 none = .ok (false, .join) ∧
  decodeWord 0x22282102 none = .ok (false, .vcmp 2 5 1 2 false false) ∧
  decodeWord 0x2A18210A none = .ok (false, .vpermb 3 1 2 false false) ∧
  decodeWord 0x20B28E19 none = .ok (false, .vlane 22 20 28 false false) ∧
  decodeWord 0x30202101 none = .ok (false, .vfadd 1 4 1 2 false false) ∧
  decodeWord 0x3028818C none = .ok (false, .vfma 0 5 4 3 false false) ∧
  decodeWord 0x3E186012 none = .ok (false, .vtag 2 3 3 false) ∧
  decodeWord 0x3E404201 none = .ok (false, .vclmulHi 8 2 4 false false) ∧
  decodeWord 0x4048400C none = .ok (false, .ldB32 9 2 0 6 false) ∧
  decodeWord 0x5220438D none = .ok (false, .stB64 4 2 7 6 true) ∧
  decodeWord 0x5688478C (some 0x08000000) = .ok (false, .stsB32 17 2 15 6 false) ∧
  decodeWord 0x58480390 (some 0x00640000) = .ok (false, .atomAdd 9 0 7 8 false 6 false true) ∧
  decodeWord 0x5E610094 (some 0x00E00000) = .ok (false, .qpush 12 8 1 10 false 14 false false) ∧
  decodeWord 0x5E810094 (some 0x04D00000) = .ok (false, .qpop 16 8 1 10 false 13 false) ∧
  decodeWord 0x6080478A (some 0x00E40000) = .ok (false, .waitc 0 16 2 15 5 false 14 false true) ∧
  decodeWord 0x66A0C188 none = .ok (false, .winchk 20 6 3 4 false) ∧
  decodeWord 0x68488182 none = .ok (false, .voteBallot 9 4 3 false) ∧
  decodeWord 0x6A30A100 (some 0xE0000000) = .ok (false, .shflXor 6 5 2 false 16) ∧
  decodeWord 0x6C382110 none = .ok (false, .gscanAdd 7 1 2 false) ∧
  decodeWord 0x6C402108 none = .ok (false, .gredFadd 8 1 2 false) ∧
  decodeWord 0x6E516100 none = .ok (false, .xchg 10 11 2 false) ∧
  decodeWord 0x70008023 none = .ok (false, .barr 3 4 false) ∧
  decodeWord 0x703800A3 none = .ok (false, .bqry 3 7) ∧
  decodeWord 0x70008063 none = .ok (false, .barrw 3 4 false) ∧
  decodeWord 0x74A0C190 (some 0x10240000) = .ok (false, .acp 20 6 3 8 false 4 2 false 4 0 0 0) ∧
  decodeWord 0x76200100 (some 0x30000000) = .ok (false, .mzero 2 4 12) ∧
  decodeWord 0x76200105 (some 0x30F00000) = .ok (false, .mloop 4 0 2 12 15 false) ∧
  decodeWord 0x76024007 (some 0x30000000) = .ok (false, .mwait 18 false 12) ∧
  decodeWord 0x78508002 none = .ok (false, .segatt 10 4 false) ∧
  decodeWord 0x78010187 none = .ok (false, .emit32 8 3 false false) ∧
  decodeWord 0x7A280580 none = .ok (false, .csrr 5 11) ∧
  decodeWord 0x7A300501 none = .ok (false, .csrw 6 10) ∧
  decodeWord 0x7A006007 none = .ok (false, .opreq 3 false) ∧
  decodeWord 0x7A009189 none = .ok (false, .trap 0x123) ∧
  decodeWord 0x7A00000A none = .ok (false, .trapret) ∧
  decodeWord 0xA0190018 none = .ok (true, .vbcast 3 8 false) ∧
  decodeWord 0x0E400000 none = .error .literal ∧ decodeWord 0 none = .error .major ∧
  decodeWord 0x18000105 none = .error .reserved ∧ decodeWord 0x7A00000B none = .error .minor

/-- R167 to R188: the words of a well-formed instruction decode to it, with every operand at every value that the encoding admits, with the chain bit
it was given; they are one word, or a word and its literal, each of 32 bits. -/
def Obligations.DecodeOfEncode : Prop :=
  ∀ (i : Instr) (chain : Bool), i.wellFormed = true → i.hasWords = true →
    ∃ w, (encode chain i = [w] ∧ w < 4294967296 ∧ isHeadMajor (majorOf w) = false ∧ (∀ l, decodeWord w l = .ok (chain, i)) ∧
        (chain = false → ∀ n, decodeTableWord n w = some i)) ∨
      ∃ l, encode chain i = [w, l] ∧ w < 4294967296 ∧ l < 4294967296 ∧ isHeadMajor (majorOf w) = true ∧ decodeWord w (some l) = .ok (chain, i) ∧
        decodeWord w none = .error .literal ∧ (chain = false → ∀ n, decodeTableWord n (w + 4294967296 * l) = some i)

/-- The canonical form of memory (log entry 1 says what an unlisted address reads as; the form is the model's): every step that answers a next state
keeps it, so that equal memories are equal data. -/
def Obligations.StepKeepsMemoryCanonical : Prop :=
  ∀ (s t : State), MemInv s → step s = .next t → MemInv t

/-- R57, R58, R138, R148, R156, R165, R289, R346, R349, R407, R416, R419, R423, R434, R437, R439, R441, R444, R455, R456, R458, R472: the machine
in the tick of its release from reset, and the values that a partition's registers, a context's energy record, an aperture, an access-table entry,
a key interface and a dispatched group start with. Memory lists nothing (log entry 1), and the values that no rule states are log entry 2's. -/
def Obligations.ResetState : Prop :=
  let s := State.reset
  MemInv s ∧ s.mem = [] ∧ s.now = 0 ∧ s.agenda = [({ tick := 0, cyc := none }, .resetRelease)] ∧ s.groups = [] ∧ s.teams = [] ∧ s.ctxs = [] ∧ s.segs = [] ∧ s.tlb = [] ∧
    s.l2 = [] ∧ s.locks = [] ∧ s.queues = [] ∧ s.weights = Config.weights ∧ s.scale = Config.scale ∧ s.boot.bits = 0 ∧ s.boot.updBusy = false ∧
    s.boot.updResult = 0 ∧ s.keys.slots = [] ∧ s.keys.busy = false ∧ s.keys.result = 0 ∧ s.fleet.expt = 10000000 ∧ s.fleet.seq = 0 ∧
    (∀ p, let x := s.part p
      x.keygrant = 0 ∧ x.ctxtab = 0 ∧ x.vfs = 0 ∧ x.xto = 1048576 ∧ x.facets = 0 ∧ x.opdef = 0 ∧ x.rst = 0 ∧ x.qtab = 0 ∧ x.fb = 16 ∧
        x.pfhold = 262144 ∧ x.point = 0 ∧ x.invBusy = false ∧ x.replay.arm = false ∧ x.replay.state = 0 ∧
        (∀ n, x.pmc.getD n 0 = 0 ∧ x.pmsel.getD n 0 = 0)) ∧
    (∀ f, s.savebw f = 64) ∧
    (∀ c, let k := s.ctx c
      k.acct = 0 ∧ k.level = 0 ∧ k.cap = 0 ∧ k.refill = 0 ∧ k.resume = 0 ∧ k.enf = true ∧ k.stopd = false ∧ k.oprt = false ∧ k.opmin = 0 ∧
        k.opmax = 15 ∧ k.share = 256 ∧ k.hold = 8 ∧ k.fair = 0) ∧
    (∀ target vf, (s.aper target vf).aper = 0 ∧ (s.aper target vf).lkq = 0 ∧ SMap.find s.access target = none) ∧
    (∀ k t n cl core sub slot now args, let g := newGroup k t n cl core sub slot now args none
      g.em = BitVec.allOnes 32 ∧ g.x = 0 ∧ g.stack = [] ∧ g.pos = { pa := k.codebase, w := 0 } ∧ g.csr = Csrs.zero ∧ g.xnum = 0 ∧ g.held = [] ∧
        g.deferred = [] ∧ g.sig = 0)

/-- R7, R139, R341, R405, R407, R416, R417, R434: no instruction word, whatever its operands and its mode, changes what only the monitor programs,
another tenant's record or account, or, at its issue, a byte of device memory; memory changes where an access is served. -/
def Obligations.WordsReachNoConfiguration : Prop :=
  ∀ (s t : State) (i : Instr), i.hasWords = true → exec i s = .next t → Sealed s t

/-- R35, R140 to R142, R149: a uniform word is charged the issue and the uniform classes, a vector integer word the issue class and the vector
class for each active lane, either the issue class alone where no lane is active: the sum of weights times counts, scaled at the partition's
point, and rounded once; the charge lands at the home unit 6 cycles and the crossing latency later, and the account stands until then. That a
charge lands by a step of its own is log entry 42's. -/
def Obligations.WordsAreCharged : Prop :=
  ∀ (s : State) (d a b n : Nat) (fa fb : Bool) (i : Instr) (c : Ctx), Live s → SMap.find s.ctxs s.myTeam.ctx = some c →
    let lanes := ((List.range 32).filter s.src.em.getLsbD).length
    let weight := fun (k : Nat) => s.weights.getD k 0
    let home := s.cycle (.facets c.part) + (if s.g.facet = (s.part c.part).home then 0 else s.xlatOf 0 (s.part c.part).point) + 6
    let charged := fun (amount : Nat) =>
      let units := ((amount * s.scale.getD (s.part c.part).point 0 + 16384) / 32768 + 128) / 256
      ∃ t x, exec i s = .next t ∧ t.verdict = .issued ∧ SMap.find t.ctxs s.myTeam.ctx = some x ∧ x.arriving = c.arriving ++ [{ cyc := home, units := units, corr := false, ev := some (s.inReplay s.g.team) }] ∧
        SMap.getD x.charged s.g.facet 0 = SMap.getD c.charged s.g.facet 0 + units ∧ x.acct = c.acct ∧ x.level = c.level ∧
        ((∀ l, l ∈ c.arriving → l.cyc ≠ home) → SentAt s t (.facets c.part) home (.chargeArrival s.myTeam.ctx))
    (SOk s a → SOk s b → SOk s d → ((∃ f, (i, f) ∈ uniTable d a b fa fb) ∨ ∃ f, (i, f) ∈ uniUnTable d a fa n) →
      charged (if lanes = 0 then weight 0 else weight 0 + weight 1)) ∧
    (VOk s a → VOk s b → VOk s d → IntTagged s a → IntTagged s b → ((∃ f, (i, f) ∈ vecTable d a b fa fb) ∨ ∃ f, (i, f) ∈ vecUnTable d a fa n) →
      charged (if lanes = 0 then weight 0 else weight 0 + weight 2 * lanes))
end

