-- ==== Sys2Proof/Laws/Map.lean ====
section
/-! SUPPORT. The laws of finite maps and of memory: what a read gives after a write, and that every operation of memory keeps its
canonical form. -/

namespace Sys2Proof.Machine

/-! ### Maps -/

variable {α : Type}

@[simp] theorem SMap.find_set_self (m : SMap α) (i : Nat) (x : α) : SMap.find (SMap.set m i x) i = some x := by
  induction m with
  | nil => simp [SMap.set, SMap.find]
  | cons p r ih =>
    obtain ⟨k, v⟩ := p
    simp only [SMap.set]
    split
    · simp [SMap.find]
    · split
      · simp [SMap.find]
      · simp [SMap.find, *]

theorem SMap.find_set_ne (m : SMap α) {i j : Nat} (x : α) (h : j ≠ i) : SMap.find (SMap.set m i x) j = SMap.find m j := by
  induction m with
  | nil => simp [SMap.set, SMap.find, h]
  | cons p r ih =>
    obtain ⟨k, v⟩ := p
    simp only [SMap.set]
    split
    · simp [SMap.find, h]
    · split
      · subst_vars; simp [SMap.find, h]
      · simp [SMap.find, ih]

theorem SMap.find_set (m : SMap α) (i j : Nat) (x : α) :
    SMap.find (SMap.set m i x) j = if j = i then some x else SMap.find m j := by
  split
  · subst_vars; simp
  · exact SMap.find_set_ne m x ‹_›

theorem SMap.find_modify (m : SMap α) (i j : Nat) (f : α → α) :
    SMap.find (SMap.modify m i f) j = if j = i then (SMap.find m j).map f else SMap.find m j := by
  unfold SMap.modify
  cases h : SMap.find m i with
  | none => split <;> simp_all
  | some v => simp only [SMap.find_set]; split <;> simp_all

@[simp] theorem SMap.find_erase_self (m : SMap α) (i : Nat) : SMap.find (SMap.erase m i) i = none := by
  induction m with
  | nil => rfl
  | cons p r ih =>
    obtain ⟨k, v⟩ := p
    simp only [SMap.erase]
    split
    · exact ih
    · simp [SMap.find, *]

theorem SMap.find_erase_ne (m : SMap α) {i j : Nat} (h : j ≠ i) : SMap.find (SMap.erase m i) j = SMap.find m j := by
  induction m with
  | nil => rfl
  | cons p r ih =>
    obtain ⟨k, v⟩ := p
    simp only [SMap.erase]
    split
    · subst_vars; simp [SMap.find, h, ih]
    · simp [SMap.find, ih]

@[simp] theorem SMap.getD_set_self (m : SMap α) (i : Nat) (x d : α) : SMap.getD (SMap.set m i x) i d = x := by
  simp [SMap.getD]

theorem SMap.getD_set_ne (m : SMap α) {i j : Nat} (x d : α) (h : j ≠ i) :
    SMap.getD (SMap.set m i x) j d = SMap.getD m j d := by
  simp [SMap.getD, SMap.find_set_ne m x h]

theorem SMap.getD_modify_self (m : SMap α) (i : Nat) (f : α → α) (d : α) {v : α} (h : SMap.find m i = some v) :
    SMap.getD (SMap.modify m i f) i d = f v := by
  simp [SMap.getD, SMap.find_modify, h]

/-! ### Memory: reads after writes -/

theorem Memory.read_drop (m : Memory) (i j : Nat) :
    Memory.read (Memory.drop m i) j = if j = i then 0 else Memory.read m j := by
  induction m with
  | nil => simp [Memory.drop, Memory.read]
  | cons p r ih =>
    obtain ⟨a, b⟩ := p
    simp only [Memory.drop]
    split
    · subst_vars; simp only [ih, Memory.read]; split <;> rfl
    · simp only [Memory.read, ih]; grind

theorem Memory.read_put (m : Memory) (i j : Nat) (x : Byte) :
    Memory.read (Memory.put m i x) j = if j = i then x else Memory.read m j := by
  induction m with
  | nil => simp [Memory.put, Memory.read]
  | cons p r ih =>
    obtain ⟨a, b⟩ := p
    simp only [Memory.put]
    split
    · simp [Memory.read]
    · split
      · subst_vars; simp only [Memory.read]; split <;> rfl
      · simp only [Memory.read, ih]; grind

/-- A byte read after a byte is written. -/
theorem Memory.read_write (m : Memory) (i j : Nat) (x : Byte) :
    Memory.read (Memory.write m i x) j = if j = i then x else Memory.read m j := by
  unfold Memory.write
  split
  · subst_vars; exact Memory.read_drop m i j
  · exact Memory.read_put m i j x

/-- A write of `n` bytes leaves every byte outside them. -/
theorem Memory.read_writeN_out (m : Memory) (a x n j : Nat) (h : j < a ∨ a + n ≤ j) :
    Memory.read (Memory.writeN m a x n) j = Memory.read m j := by
  induction n generalizing m a x with
  | zero => rfl
  | succ n ih =>
    simp only [Memory.writeN]
    rw [ih _ _ _ (by omega), Memory.read_write, if_neg (by omega)]

/-- A write of `n` bytes puts byte `k` of the number at address `a + k`. -/
theorem Memory.read_writeN_in (m : Memory) (a x n k : Nat) (h : k < n) :
    Memory.read (Memory.writeN m a x n) (a + k) = BitVec.ofNat 8 (x / 256 ^ k) := by
  induction n generalizing m a x k with
  | zero => omega
  | succ n ih =>
    simp only [Memory.writeN]
    cases k with
    | zero =>
      rw [Memory.read_writeN_out _ _ _ _ _ (by omega), Memory.read_write]; simp
    | succ k =>
      have e : a + (k + 1) = a + 1 + k := by omega
      rw [e, ih _ _ _ _ (by omega), Nat.div_div_eq_div_mul, Nat.pow_succ, Nat.mul_comm]

/-- A list of bytes written leaves every byte outside them. -/
theorem Memory.read_writeBytes_out (m : Memory) (a : Nat) (l : List Byte) (j : Nat) (h : j < a ∨ a + l.length ≤ j) :
    Memory.read (Memory.writeBytes m a l) j = Memory.read m j := by
  induction l generalizing m a with
  | nil => rfl
  | cons b r ih =>
    simp only [Memory.writeBytes, List.length_cons] at *
    rw [ih _ _ (by omega), Memory.read_write, if_neg (by omega)]

/-! ### The canonical form -/

/-- Every address of a memory lies above a bound. -/
theorem Memory.wfFrom_weaken {lo lo' : Nat} {m : Memory} (h : Memory.wfFrom (some lo) m = true) (hl : lo' ≤ lo) :
    Memory.wfFrom (some lo') m = true := by
  cases m with
  | nil => rfl
  | cons p r => obtain ⟨a, b⟩ := p; simp [Memory.wfFrom, Nat.blt_eq] at *; exact ⟨⟨by omega, h.1.2⟩, h.2⟩

theorem Memory.wf_of_wfFrom {lo : Option Nat} {m : Memory} (h : Memory.wfFrom lo m = true) : Memory.wf m = true := by
  cases m with
  | nil => rfl
  | cons p r => obtain ⟨a, b⟩ := p; cases lo <;> simp_all [Memory.wf, Memory.wfFrom]

theorem Memory.wfFrom_drop (m : Memory) (i : Nat) (lo : Option Nat) (h : Memory.wfFrom lo m = true) :
    Memory.wfFrom lo (Memory.drop m i) = true := by
  induction m generalizing lo with
  | nil => rfl
  | cons p r ih =>
    obtain ⟨a, b⟩ := p
    simp only [Memory.drop]
    split
    · apply ih
      simp only [Memory.wfFrom, Bool.and_eq_true] at h
      obtain ⟨⟨h1, -⟩, h3⟩ := h
      cases lo with
      | none => exact Memory.wf_of_wfFrom h3
      | some l => exact Memory.wfFrom_weaken h3 (Nat.le_of_lt (by simpa [Nat.blt_eq] using h1))
    · simp only [Memory.wfFrom, Bool.and_eq_true] at *
      exact ⟨h.1, ih _ h.2⟩

theorem Memory.wfFrom_put (m : Memory) (i : Nat) (x : Byte) (hx : x ≠ 0) (lo : Option Nat)
    (hl : ∀ l, lo = some l → l < i) (h : Memory.wfFrom lo m = true) : Memory.wfFrom lo (Memory.put m i x) = true := by
  induction m generalizing lo with
  | nil => cases lo <;> simp_all [Memory.put, Memory.wfFrom, Nat.blt_eq]
  | cons p r ih =>
    obtain ⟨a, b⟩ := p
    simp only [Memory.put]
    split
    · cases lo <;> simp_all [Memory.wfFrom, Nat.blt_eq]
    · split
      · cases lo <;> simp_all [Memory.wfFrom, Nat.blt_eq]
      · have : Memory.wfFrom (some a) (Memory.put r i x) = true := by
          apply ih
          · intro l hl'; cases hl'; omega
          · simp only [Memory.wfFrom, Bool.and_eq_true] at h; exact h.2
        cases lo <;> simp_all [Memory.wfFrom, Nat.blt_eq]

/-- Writing a byte keeps the canonical form. -/
theorem Memory.wf_write (m : Memory) (i : Nat) (x : Byte) (h : Memory.wf m = true) :
    Memory.wf (Memory.write m i x) = true := by
  unfold Memory.write
  split
  · exact Memory.wfFrom_drop m i none h
  · exact Memory.wfFrom_put m i x ‹_› none (by simp) h

/-- Writing several bytes keeps the canonical form. -/
theorem Memory.wf_writeN (m : Memory) (a x n : Nat) (h : Memory.wf m = true) :
    Memory.wf (Memory.writeN m a x n) = true := by
  induction n generalizing m a x with
  | zero => exact h
  | succ n ih => exact ih _ _ _ (Memory.wf_write m a _ h)

theorem Memory.wf_writeBytes (m : Memory) (a : Nat) (l : List Byte) (h : Memory.wf m = true) :
    Memory.wf (Memory.writeBytes m a l) = true := by
  induction l generalizing m a with
  | nil => exact h
  | cons b r ih => exact ih _ _ (Memory.wf_write m a b h)

/-- A part of a memory in its canonical form is in it. -/
theorem Memory.wfFrom_filter (m : Memory) (p : Host.Cell → Bool) (lo : Option Nat) (h : Memory.wfFrom lo m = true) :
    Memory.wfFrom lo (m.filter p) = true := by
  induction m generalizing lo with
  | nil => rfl
  | cons c r ih =>
    obtain ⟨a, b⟩ := c
    simp only [Memory.wfFrom, Bool.and_eq_true] at h
    simp only [List.filter_cons]
    split
    · simp only [Memory.wfFrom, Bool.and_eq_true]; exact ⟨h.1, ih _ h.2⟩
    · apply ih
      cases lo with
      | none => exact Memory.wf_of_wfFrom h.2
      | some l => exact Memory.wfFrom_weaken h.2 (Nat.le_of_lt (by simpa [Nat.blt_eq] using h.1.1))

/-- Clearing a range keeps the canonical form. -/
theorem Memory.wf_clear (m : Memory) (lo n : Nat) (h : Memory.wf m = true) : Memory.wf (Memory.clear m lo n) = true :=
  Memory.wfFrom_filter m _ none h

end Sys2Proof.Machine
end

