-- ==== Sys2Proof/Laws/Issue.lean ====
section
/-! SUPPORT. What the issue of a word can do: its checks pass when its operands are as R17, R30, R64 and R336 ask, and what it does
before its effect is accounting alone. -/

namespace Sys2Proof.Laws

open Sys2Proof.Machine Sys2Proof.Claims

/-! ### Operands -/

theorem errOf_none {g : Group} {us : List Use} (h : ∀ u, u ∈ us → u.err g = none) : errOf g us = none := by
  unfold errOf
  induction us with
  | nil => rfl
  | cons u r ih =>
    simp only [List.foldl_cons, h u (by simp)]
    exact ih (fun v hv => h v (by simp [hv]))

/-- An operand that is aligned, in the budget, full and not in error passes every check (R17, R30, R56, R64, R336). -/
theorem use_ok {g : Group} {u : Use} (h : RegOk g u.file u.cnt u.n) :
    u.bad g = false ∧ u.err g = none ∧ u.holds g = false ∧ u.traps g = false := by
  obtain ⟨h1, h2, h3⟩ := h
  have hp : ∀ n, n ∈ u.regs → g.isFull u.file n = true ∧ g.regErr u.file n = none := by
    intro n hn
    simp only [Use.regs, List.mem_map, List.mem_range] at hn
    obtain ⟨k, hk, rfl⟩ := hn
    exact h3 k hk
  have hpend : ∀ n, g.isFull u.file n = true → g.isPend u.file n = false := by
    intro n hn
    cases hf : u.file <;> simp_all [Group.isFull, Group.isPend]
  refine ⟨?_, ?_, ?_, ?_⟩
  · have : (g.budget u.file).blt (u.n + u.cnt) = false := by
      rw [← Bool.not_eq_true, Nat.blt_eq]; omega
    simp [Use.bad, h1, this]
  · unfold Use.err
    generalize u.regs = l at hp
    induction l with
    | nil => rfl
    | cons n r ih => simp only [List.foldl_cons, (hp n (by simp)).2]; exact ih (fun m hm => hp m (by simp [hm]))
  · simp only [Use.holds, List.any_eq_false]
    intro n hn
    obtain ⟨a, -⟩ := hp n hn
    simp [a, hpend n a]
  · simp only [Use.traps, Bool.and_eq_false_iff, List.any_eq_false]
    exact Or.inr (fun n hn => by simp [(hp n hn).1])

/-- The checks pass where every operand may be used and nothing else is wrong (R178). -/
theorem check_ok {sp : WordSpec} {s : State} (hu : ∀ u, u ∈ sp.uses → RegOk s.src u.file u.cnt u.n)
    (hi : sp.illegal = false) (hp : sp.priv s = false) (ho : sp.opnd s = false) (hm : sp.matrix s = false) (hf : sp.fmt s.src = none)
    (hv : sp.value s = none) (hw : sp.wait s = false) : check sp s = .ok := by
  have e1 : sp.uses.any (Use.bad s.src) = false := by
    simp only [List.any_eq_false]; intro u h; simp [(use_ok (hu u h)).1]
  have e2 : errOf s.src sp.uses = none := errOf_none (fun u h => (use_ok (hu u h)).2.1)
  have e3 : sp.uses.any (Use.holds s.src) = false := by
    simp only [List.any_eq_false]; intro u h; simp [(use_ok (hu u h)).2.2.1]
  have e4 : sp.uses.any (Use.traps s.src) = false := by
    simp only [List.any_eq_false]; intro u h; simp [(use_ok (hu u h)).2.2.2]
  simp [check, hi, hp, ho, hm, hf, hv, hw, e1, e2, e3, e4]

/-- A word whose checks pass takes effect after its accounting (R31). -/
theorem issue_ok {sp : WordSpec} {eff : State → State} {s : State} (hl : Live s) (hc : check sp s = .ok) :
    issueWord sp eff s = .next (eff (s.begin sp)) := by
  obtain ⟨h1, h2⟩ := hl
  simp [issueWord, h1, h2, hc]

/-- A fault that the checks find is taken at the boundary before the word (R31, R332). -/
theorem issue_fault {sp : WordSpec} {eff : State → State} {s : State} {f : FaultInfo} (hl : Live s)
    (hc : check sp s = .fault f) : issueWord sp eff s = .next (s.issueFault f) := by
  obtain ⟨h1, h2⟩ := hl
  simp [issueWord, h1, h2, hc]

/-! ### Accounting -/

/-- `t` is `s` after charges and counts only. -/
structure Acct (s t : State) : Prop where
  rest   : { t with ctxs := s.ctxs, agenda := s.agenda } = s
  ctxs   : ∀ c, (SMap.find t.ctxs c).map bare = (SMap.find s.ctxs c).map bare
  agenda : ∃ l, t.agenda = s.agenda ++ l ∧ ∀ x, x ∈ l → isAccounting x.2 = true

theorem Acct.refl (s : State) : Acct s s := ⟨rfl, fun _ => rfl, [], by simp, by simp⟩

theorem Acct.trans {s t u : State} (h : Acct s t) (k : Acct t u) : Acct s u := by
  obtain ⟨l, hl, hl'⟩ := h.agenda
  obtain ⟨m, hm, hm'⟩ := k.agenda
  refine ⟨?_, fun c => (k.ctxs c).trans (h.ctxs c), l ++ m, by simp [hm, hl], ?_⟩
  · have e := h.rest
    rw [← k.rest] at e
    exact e
  · intro x hx
    rcases List.mem_append.mp hx with hx | hx
    · exact hl' x hx
    · exact hm' x hx

theorem acct_post (s : State) (dt : Nat) (e : Ev) (h : isAccounting e = true) : Acct s (s.post dt e) :=
  ⟨rfl, fun _ => rfl, [({ tick := s.now + dt, cyc := none }, e)], rfl, by simp [h]⟩

theorem acct_postAt (s : State) (k : Clock) (n : Nat) (e : Ev) (h : isAccounting e = true) : Acct s (s.postAt k n e) :=
  ⟨rfl, fun _ => rfl, [({ tick := s.tickOf k n, cyc := some (k, n) }, e)], rfl, by simp [h]⟩

theorem acct_modCtx (s : State) (c : Nat) (f : Ctx → Ctx) (hf : ∀ x, bare (f x) = bare x) : Acct s (s.modCtx c f) := by
  refine ⟨rfl, fun d => ?_, [], by simp [State.modCtx], by simp⟩
  simp only [State.modCtx, SMap.find_modify]
  split
  · cases SMap.find s.ctxs d <;> simp [hf]
  · rfl

theorem acct_landAt (s : State) (c : Nat) (l : Landing) : Acct s (s.landAt c l) := by
  unfold State.landAt
  have h := acct_modCtx s c (fun x => { x with arriving := x.arriving ++ [l] }) (fun _ => rfl)
  simp only
  split
  · exact h
  · exact h.trans (acct_postAt _ _ _ _ rfl)

theorem acct_arrive (s : State) (c f dom u : Nat) (ev : Option Bool) : Acct s (s.arrive c f dom u ev) := by
  unfold State.arrive
  split
  · exact Acct.refl s
  · exact (acct_modCtx s c (fun x => { x with charged := addTo x.charged dom u }) (fun _ => rfl)).trans (acct_landAt ..)

theorem acct_charge (s : State) (c facet : Nat) (l : List (Nat × Nat)) (ev : Option Bool) : Acct s (s.charge c facet l ev) :=
  acct_arrive ..

theorem acct_foldl {β : Type} (l : List β) (f : State → β → State) (hf : ∀ s x, Acct s (f s x)) (s : State) :
    Acct s (l.foldl f s) := by
  induction l generalizing s with
  | nil => exact Acct.refl s
  | cons x r ih => exact (hf s x).trans (ih _)

theorem acct_countCtx (s : State) (c ev n : Nat) (rp : Bool) : Acct s (s.countCtx c ev n rp) := by
  unfold State.countCtx
  simp only
  split
  · exact Acct.refl s
  · exact acct_postAt _ _ _ _ rfl

theorem acct_chargeShared (s : State) (c f dom : Nat) (l : List (Nat × Nat)) (ev : Option Bool) :
    Acct s (s.chargeShared c f dom l ev) := by
  unfold State.chargeShared
  cases ev with
  | none => exact acct_arrive ..
  | some rp => exact (acct_arrive s c f dom _ _).trans (acct_countCtx _ _ _ _ _)

theorem acct_count (s : State) (t ev n : Nat) : Acct s (s.count t ev n) := acct_countCtx ..

theorem acct_counts (s : State) (l : List (Nat × Nat)) : Acct s (s.counts l) :=
  acct_foldl l _ (fun s x => acct_count s s.g.team x.1 x.2) s

/-! What accounting leaves of a state, field by field. -/

theorem Acct.groups {s t : State} (h : Acct s t) : t.groups = s.groups := (congrArg State.groups h.rest :)
theorem Acct.cur {s t : State} (h : Acct s t) : t.cur = s.cur := (congrArg State.cur h.rest :)
theorem Acct.issue {s t : State} (h : Acct s t) : t.issue = s.issue := (congrArg State.issue h.rest :)
theorem Acct.teams {s t : State} (h : Acct s t) : t.teams = s.teams := (congrArg State.teams h.rest :)
theorem Acct.launches {s t : State} (h : Acct s t) : t.launches = s.launches := (congrArg State.launches h.rest :)
theorem Acct.mem {s t : State} (h : Acct s t) : t.mem = s.mem := (congrArg State.mem h.rest :)
theorem Acct.ticket {s t : State} (h : Acct s t) : t.ticket = s.ticket := (congrArg State.ticket h.rest :)
theorem Acct.now {s t : State} (h : Acct s t) : t.now = s.now := (congrArg State.now h.rest :)
theorem Acct.ops {s t : State} (h : Acct s t) : t.ops = s.ops := (congrArg State.ops h.rest :)
theorem Acct.verdict {s t : State} (h : Acct s t) : t.verdict = s.verdict := (congrArg State.verdict h.rest :)
theorem Acct.g {s t : State} (h : Acct s t) : t.g = s.g := by simp [State.g, State.grp, h.groups, h.cur]
theorem Acct.src {s t : State} (h : Acct s t) : t.src = s.src := by simp [State.src, h.g, h.issue]

/-- What a word does before its effect: accounting, the verdict, and the mark of a word that makes its team dirty. -/
theorem begin_eq (s : State) (sp : WordSpec) : ∃ u, Acct s u ∧
    s.begin sp = (if sp.dirty s then { dirtied u with verdict := .issued } else { u with verdict := .issued }) := by
  refine ⟨(s.charge s.myTeam.ctx s.g.facet (sp.classes s) (some (s.inReplay s.g.team))).counts (sp.evs s),
    (acct_charge ..).trans (acct_counts ..), ?_⟩
  have e : ((s.charge s.myTeam.ctx s.g.facet (sp.classes s) (some (s.inReplay s.g.team))).counts (sp.evs s)).g = s.g :=
    ((acct_charge s _ _ _ _).trans (acct_counts _ _)).g
  unfold State.begin
  split
  · simp [dirtied, State.modTeam, State.verd, e]
  · simp [State.verd]

/-! ### Frames -/

/-- The steps in flight besides accounting, after accounting. -/
theorem Acct.work_eq {s t : State} (h : Acct s t) : work t = work s := by
  obtain ⟨l, hl, hl'⟩ := h.agenda
  have e : l.filter (fun x => !isAccounting x.2) = [] := List.filter_eq_nil_iff.mpr (fun x hx => by simp [hl' x hx])
  simp [work, hl, e]

theorem Acct.kept {s t : State} (h : Acct s t) : ∀ x, x ∈ s.agenda → x ∈ t.agenda := by
  obtain ⟨l, hl, -⟩ := h.agenda
  intro x hx
  simp [hl, hx]

/-- After accounting, a state whose only further change is its group's and its verdict's has the frame of a word. -/
theorem Acct.frame {s u : State} (h : Acct s u) (g : Group) (v : Verdict) :
    Frame s s { u with groups := SMap.set u.groups s.cur g, verdict := v } := by
  have e := h.rest
  refine ⟨?_, fun a => by simp [h.mem], ?_, h.ctxs, h.work_eq, h.kept⟩
  · have hv := h.verdict
    have hg := h.groups
    cases u; cases s; simp_all
  · intro i hi; simp [SMap.find_set_ne _ _ hi, h.groups]

/-- A word that is not marked dirty and writes its group only. -/
theorem gives_of {sp : WordSpec} {eff : State → State} {s : State} {g : Group} {i : Instr}
    (hi : exec i s = issueWord sp eff s) (hl : Live s) (hc : check sp s = .ok) (hd : sp.dirty s = false)
    (he : ∀ u, u.groups = s.groups → u.cur = s.cur → eff u = u.setG g) : Gives i s g := by
  obtain ⟨u, hu, hb⟩ := begin_eq s sp
  simp only [hd, Bool.false_eq_true, if_false] at hb
  have e := he { u with verdict := .issued } hu.groups hu.cur
  rw [← hb] at e
  refine ⟨_, (hi.trans (issue_ok hl hc)), ?_, ?_, ?_⟩
  · rw [e, hb]; rfl
  · rw [e, hb]; simp [State.g, State.grp, State.setG, State.setGrp]
  · rw [e, hb]
    have := hu.frame g .issued
    simpa [State.setG, State.setGrp, hu.cur] using this

end Sys2Proof.Laws
end

