-- ==== Sys2Proof/Laws/State.lean ====
section
/-! SUPPORT. What each update of the state leaves as it was, field by field, what it leaves where it writes, and the same of the updates of a
group. -/

namespace Sys2Proof.Machine

/-! ### Fields that an update of the state leaves -/

@[simp] theorem State.setGrp_now (s : State) (i : Nat) (g : Group) : (s.setGrp i g).now = s.now := rfl
@[simp] theorem State.setGrp_round (s : State) (i : Nat) (g : Group) : (s.setGrp i g).round = s.round := rfl
@[simp] theorem State.setGrp_turn (s : State) (i : Nat) (g : Group) : (s.setGrp i g).turn = s.turn := rfl
@[simp] theorem State.setGrp_agenda (s : State) (i : Nat) (g : Group) : (s.setGrp i g).agenda = s.agenda := rfl
@[simp] theorem State.setGrp_ticket (s : State) (i : Nat) (g : Group) : (s.setGrp i g).ticket = s.ticket := rfl
@[simp] theorem State.setGrp_hosted (s : State) (i : Nat) (g : Group) : (s.setGrp i g).hosted = s.hosted := rfl
@[simp] theorem State.setGrp_cur (s : State) (i : Nat) (g : Group) : (s.setGrp i g).cur = s.cur := rfl
@[simp] theorem State.setGrp_verdict (s : State) (i : Nat) (g : Group) : (s.setGrp i g).verdict = s.verdict := rfl
@[simp] theorem State.setGrp_issue (s : State) (i : Nat) (g : Group) : (s.setGrp i g).issue = s.issue := rfl
@[simp] theorem State.setGrp_rest (s : State) (i : Nat) (g : Group) : (s.setGrp i g).rest = s.rest := rfl
@[simp] theorem State.setGrp_snaps (s : State) (i : Nat) (g : Group) : (s.setGrp i g).snaps = s.snaps := rfl
@[simp] theorem State.setGrp_teams (s : State) (i : Nat) (g : Group) : (s.setGrp i g).teams = s.teams := rfl
@[simp] theorem State.setGrp_launches (s : State) (i : Nat) (g : Group) : (s.setGrp i g).launches = s.launches := rfl
@[simp] theorem State.setGrp_emissions (s : State) (i : Nat) (g : Group) : (s.setGrp i g).emissions = s.emissions := rfl
@[simp] theorem State.setGrp_ops (s : State) (i : Nat) (g : Group) : (s.setGrp i g).ops = s.ops := rfl
@[simp] theorem State.setGrp_copies (s : State) (i : Nat) (g : Group) : (s.setGrp i g).copies = s.copies := rfl
@[simp] theorem State.setGrp_cores (s : State) (i : Nat) (g : Group) : (s.setGrp i g).cores = s.cores := rfl
@[simp] theorem State.setGrp_clusters (s : State) (i : Nat) (g : Group) : (s.setGrp i g).clusters = s.clusters := rfl
@[simp] theorem State.setGrp_segs (s : State) (i : Nat) (g : Group) : (s.setGrp i g).segs = s.segs := rfl
@[simp] theorem State.setGrp_l2 (s : State) (i : Nat) (g : Group) : (s.setGrp i g).l2 = s.l2 := rfl
@[simp] theorem State.setGrp_crypt (s : State) (i : Nat) (g : Group) : (s.setGrp i g).crypt = s.crypt := rfl
@[simp] theorem State.setGrp_dir (s : State) (i : Nat) (g : Group) : (s.setGrp i g).dir = s.dir := rfl
@[simp] theorem State.setGrp_invals (s : State) (i : Nat) (g : Group) : (s.setGrp i g).invals = s.invals := rfl
@[simp] theorem State.setGrp_mons (s : State) (i : Nat) (g : Group) : (s.setGrp i g).mons = s.mons := rfl
@[simp] theorem State.setGrp_refl (s : State) (i : Nat) (g : Group) : (s.setGrp i g).refl = s.refl := rfl
@[simp] theorem State.setGrp_merges (s : State) (i : Nat) (g : Group) : (s.setGrp i g).merges = s.merges := rfl
@[simp] theorem State.setGrp_halves (s : State) (i : Nat) (g : Group) : (s.setGrp i g).halves = s.halves := rfl
@[simp] theorem State.setGrp_deadNums (s : State) (i : Nat) (g : Group) : (s.setGrp i g).deadNums = s.deadNums := rfl
@[simp] theorem State.setGrp_locks (s : State) (i : Nat) (g : Group) : (s.setGrp i g).locks = s.locks := rfl
@[simp] theorem State.setGrp_ctxs (s : State) (i : Nat) (g : Group) : (s.setGrp i g).ctxs = s.ctxs := rfl
@[simp] theorem State.setGrp_parts (s : State) (i : Nat) (g : Group) : (s.setGrp i g).parts = s.parts := rfl
@[simp] theorem State.setGrp_queues (s : State) (i : Nat) (g : Group) : (s.setGrp i g).queues = s.queues := rfl
@[simp] theorem State.setGrp_tlb (s : State) (i : Nat) (g : Group) : (s.setGrp i g).tlb = s.tlb := rfl
@[simp] theorem State.setGrp_icache (s : State) (i : Nat) (g : Group) : (s.setGrp i g).icache = s.icache := rfl
@[simp] theorem State.setGrp_gens (s : State) (i : Nat) (g : Group) : (s.setGrp i g).gens = s.gens := rfl
@[simp] theorem State.setGrp_access (s : State) (i : Nat) (g : Group) : (s.setGrp i g).access = s.access := rfl
@[simp] theorem State.setGrp_apers (s : State) (i : Nat) (g : Group) : (s.setGrp i g).apers = s.apers := rfl
@[simp] theorem State.setGrp_exports (s : State) (i : Nat) (g : Group) : (s.setGrp i g).exports = s.exports := rfl
@[simp] theorem State.setGrp_keys (s : State) (i : Nat) (g : Group) : (s.setGrp i g).keys = s.keys := rfl
@[simp] theorem State.setGrp_boot (s : State) (i : Nat) (g : Group) : (s.setGrp i g).boot = s.boot := rfl
@[simp] theorem State.setGrp_fleet (s : State) (i : Nat) (g : Group) : (s.setGrp i g).fleet = s.fleet := rfl
@[simp] theorem State.setGrp_weights (s : State) (i : Nat) (g : Group) : (s.setGrp i g).weights = s.weights := rfl
@[simp] theorem State.setGrp_scale (s : State) (i : Nat) (g : Group) : (s.setGrp i g).scale = s.scale := rfl
@[simp] theorem State.setGrp_msix (s : State) (i : Nat) (g : Group) : (s.setGrp i g).msix = s.msix := rfl
@[simp] theorem State.setGrp_monlog (s : State) (i : Nat) (g : Group) : (s.setGrp i g).monlog = s.monlog := rfl
@[simp] theorem State.setGrp_mem (s : State) (i : Nat) (g : Group) : (s.setGrp i g).mem = s.mem := rfl

@[simp] theorem State.modGrp_now (s : State) (i : Nat) (f : Group → Group) : (s.modGrp i f).now = s.now := rfl
@[simp] theorem State.modGrp_round (s : State) (i : Nat) (f : Group → Group) : (s.modGrp i f).round = s.round := rfl
@[simp] theorem State.modGrp_turn (s : State) (i : Nat) (f : Group → Group) : (s.modGrp i f).turn = s.turn := rfl
@[simp] theorem State.modGrp_agenda (s : State) (i : Nat) (f : Group → Group) : (s.modGrp i f).agenda = s.agenda := rfl
@[simp] theorem State.modGrp_ticket (s : State) (i : Nat) (f : Group → Group) : (s.modGrp i f).ticket = s.ticket := rfl
@[simp] theorem State.modGrp_hosted (s : State) (i : Nat) (f : Group → Group) : (s.modGrp i f).hosted = s.hosted := rfl
@[simp] theorem State.modGrp_cur (s : State) (i : Nat) (f : Group → Group) : (s.modGrp i f).cur = s.cur := rfl
@[simp] theorem State.modGrp_verdict (s : State) (i : Nat) (f : Group → Group) : (s.modGrp i f).verdict = s.verdict := rfl
@[simp] theorem State.modGrp_issue (s : State) (i : Nat) (f : Group → Group) : (s.modGrp i f).issue = s.issue := rfl
@[simp] theorem State.modGrp_rest (s : State) (i : Nat) (f : Group → Group) : (s.modGrp i f).rest = s.rest := rfl
@[simp] theorem State.modGrp_snaps (s : State) (i : Nat) (f : Group → Group) : (s.modGrp i f).snaps = s.snaps := rfl
@[simp] theorem State.modGrp_teams (s : State) (i : Nat) (f : Group → Group) : (s.modGrp i f).teams = s.teams := rfl
@[simp] theorem State.modGrp_launches (s : State) (i : Nat) (f : Group → Group) : (s.modGrp i f).launches = s.launches := rfl
@[simp] theorem State.modGrp_emissions (s : State) (i : Nat) (f : Group → Group) : (s.modGrp i f).emissions = s.emissions := rfl
@[simp] theorem State.modGrp_ops (s : State) (i : Nat) (f : Group → Group) : (s.modGrp i f).ops = s.ops := rfl
@[simp] theorem State.modGrp_copies (s : State) (i : Nat) (f : Group → Group) : (s.modGrp i f).copies = s.copies := rfl
@[simp] theorem State.modGrp_cores (s : State) (i : Nat) (f : Group → Group) : (s.modGrp i f).cores = s.cores := rfl
@[simp] theorem State.modGrp_clusters (s : State) (i : Nat) (f : Group → Group) : (s.modGrp i f).clusters = s.clusters := rfl
@[simp] theorem State.modGrp_segs (s : State) (i : Nat) (f : Group → Group) : (s.modGrp i f).segs = s.segs := rfl
@[simp] theorem State.modGrp_l2 (s : State) (i : Nat) (f : Group → Group) : (s.modGrp i f).l2 = s.l2 := rfl
@[simp] theorem State.modGrp_crypt (s : State) (i : Nat) (f : Group → Group) : (s.modGrp i f).crypt = s.crypt := rfl
@[simp] theorem State.modGrp_dir (s : State) (i : Nat) (f : Group → Group) : (s.modGrp i f).dir = s.dir := rfl
@[simp] theorem State.modGrp_invals (s : State) (i : Nat) (f : Group → Group) : (s.modGrp i f).invals = s.invals := rfl
@[simp] theorem State.modGrp_mons (s : State) (i : Nat) (f : Group → Group) : (s.modGrp i f).mons = s.mons := rfl
@[simp] theorem State.modGrp_refl (s : State) (i : Nat) (f : Group → Group) : (s.modGrp i f).refl = s.refl := rfl
@[simp] theorem State.modGrp_merges (s : State) (i : Nat) (f : Group → Group) : (s.modGrp i f).merges = s.merges := rfl
@[simp] theorem State.modGrp_halves (s : State) (i : Nat) (f : Group → Group) : (s.modGrp i f).halves = s.halves := rfl
@[simp] theorem State.modGrp_deadNums (s : State) (i : Nat) (f : Group → Group) : (s.modGrp i f).deadNums = s.deadNums := rfl
@[simp] theorem State.modGrp_locks (s : State) (i : Nat) (f : Group → Group) : (s.modGrp i f).locks = s.locks := rfl
@[simp] theorem State.modGrp_ctxs (s : State) (i : Nat) (f : Group → Group) : (s.modGrp i f).ctxs = s.ctxs := rfl
@[simp] theorem State.modGrp_parts (s : State) (i : Nat) (f : Group → Group) : (s.modGrp i f).parts = s.parts := rfl
@[simp] theorem State.modGrp_queues (s : State) (i : Nat) (f : Group → Group) : (s.modGrp i f).queues = s.queues := rfl
@[simp] theorem State.modGrp_tlb (s : State) (i : Nat) (f : Group → Group) : (s.modGrp i f).tlb = s.tlb := rfl
@[simp] theorem State.modGrp_icache (s : State) (i : Nat) (f : Group → Group) : (s.modGrp i f).icache = s.icache := rfl
@[simp] theorem State.modGrp_gens (s : State) (i : Nat) (f : Group → Group) : (s.modGrp i f).gens = s.gens := rfl
@[simp] theorem State.modGrp_access (s : State) (i : Nat) (f : Group → Group) : (s.modGrp i f).access = s.access := rfl
@[simp] theorem State.modGrp_apers (s : State) (i : Nat) (f : Group → Group) : (s.modGrp i f).apers = s.apers := rfl
@[simp] theorem State.modGrp_exports (s : State) (i : Nat) (f : Group → Group) : (s.modGrp i f).exports = s.exports := rfl
@[simp] theorem State.modGrp_keys (s : State) (i : Nat) (f : Group → Group) : (s.modGrp i f).keys = s.keys := rfl
@[simp] theorem State.modGrp_boot (s : State) (i : Nat) (f : Group → Group) : (s.modGrp i f).boot = s.boot := rfl
@[simp] theorem State.modGrp_fleet (s : State) (i : Nat) (f : Group → Group) : (s.modGrp i f).fleet = s.fleet := rfl
@[simp] theorem State.modGrp_weights (s : State) (i : Nat) (f : Group → Group) : (s.modGrp i f).weights = s.weights := rfl
@[simp] theorem State.modGrp_scale (s : State) (i : Nat) (f : Group → Group) : (s.modGrp i f).scale = s.scale := rfl
@[simp] theorem State.modGrp_msix (s : State) (i : Nat) (f : Group → Group) : (s.modGrp i f).msix = s.msix := rfl
@[simp] theorem State.modGrp_monlog (s : State) (i : Nat) (f : Group → Group) : (s.modGrp i f).monlog = s.monlog := rfl
@[simp] theorem State.modGrp_mem (s : State) (i : Nat) (f : Group → Group) : (s.modGrp i f).mem = s.mem := rfl

@[simp] theorem State.setG_now (s : State) (g : Group) : (s.setG g).now = s.now := rfl
@[simp] theorem State.setG_round (s : State) (g : Group) : (s.setG g).round = s.round := rfl
@[simp] theorem State.setG_turn (s : State) (g : Group) : (s.setG g).turn = s.turn := rfl
@[simp] theorem State.setG_agenda (s : State) (g : Group) : (s.setG g).agenda = s.agenda := rfl
@[simp] theorem State.setG_ticket (s : State) (g : Group) : (s.setG g).ticket = s.ticket := rfl
@[simp] theorem State.setG_hosted (s : State) (g : Group) : (s.setG g).hosted = s.hosted := rfl
@[simp] theorem State.setG_cur (s : State) (g : Group) : (s.setG g).cur = s.cur := rfl
@[simp] theorem State.setG_verdict (s : State) (g : Group) : (s.setG g).verdict = s.verdict := rfl
@[simp] theorem State.setG_issue (s : State) (g : Group) : (s.setG g).issue = s.issue := rfl
@[simp] theorem State.setG_rest (s : State) (g : Group) : (s.setG g).rest = s.rest := rfl
@[simp] theorem State.setG_snaps (s : State) (g : Group) : (s.setG g).snaps = s.snaps := rfl
@[simp] theorem State.setG_teams (s : State) (g : Group) : (s.setG g).teams = s.teams := rfl
@[simp] theorem State.setG_launches (s : State) (g : Group) : (s.setG g).launches = s.launches := rfl
@[simp] theorem State.setG_emissions (s : State) (g : Group) : (s.setG g).emissions = s.emissions := rfl
@[simp] theorem State.setG_ops (s : State) (g : Group) : (s.setG g).ops = s.ops := rfl
@[simp] theorem State.setG_copies (s : State) (g : Group) : (s.setG g).copies = s.copies := rfl
@[simp] theorem State.setG_cores (s : State) (g : Group) : (s.setG g).cores = s.cores := rfl
@[simp] theorem State.setG_clusters (s : State) (g : Group) : (s.setG g).clusters = s.clusters := rfl
@[simp] theorem State.setG_segs (s : State) (g : Group) : (s.setG g).segs = s.segs := rfl
@[simp] theorem State.setG_l2 (s : State) (g : Group) : (s.setG g).l2 = s.l2 := rfl
@[simp] theorem State.setG_crypt (s : State) (g : Group) : (s.setG g).crypt = s.crypt := rfl
@[simp] theorem State.setG_dir (s : State) (g : Group) : (s.setG g).dir = s.dir := rfl
@[simp] theorem State.setG_invals (s : State) (g : Group) : (s.setG g).invals = s.invals := rfl
@[simp] theorem State.setG_mons (s : State) (g : Group) : (s.setG g).mons = s.mons := rfl
@[simp] theorem State.setG_refl (s : State) (g : Group) : (s.setG g).refl = s.refl := rfl
@[simp] theorem State.setG_merges (s : State) (g : Group) : (s.setG g).merges = s.merges := rfl
@[simp] theorem State.setG_halves (s : State) (g : Group) : (s.setG g).halves = s.halves := rfl
@[simp] theorem State.setG_deadNums (s : State) (g : Group) : (s.setG g).deadNums = s.deadNums := rfl
@[simp] theorem State.setG_locks (s : State) (g : Group) : (s.setG g).locks = s.locks := rfl
@[simp] theorem State.setG_ctxs (s : State) (g : Group) : (s.setG g).ctxs = s.ctxs := rfl
@[simp] theorem State.setG_parts (s : State) (g : Group) : (s.setG g).parts = s.parts := rfl
@[simp] theorem State.setG_queues (s : State) (g : Group) : (s.setG g).queues = s.queues := rfl
@[simp] theorem State.setG_tlb (s : State) (g : Group) : (s.setG g).tlb = s.tlb := rfl
@[simp] theorem State.setG_icache (s : State) (g : Group) : (s.setG g).icache = s.icache := rfl
@[simp] theorem State.setG_gens (s : State) (g : Group) : (s.setG g).gens = s.gens := rfl
@[simp] theorem State.setG_access (s : State) (g : Group) : (s.setG g).access = s.access := rfl
@[simp] theorem State.setG_apers (s : State) (g : Group) : (s.setG g).apers = s.apers := rfl
@[simp] theorem State.setG_exports (s : State) (g : Group) : (s.setG g).exports = s.exports := rfl
@[simp] theorem State.setG_keys (s : State) (g : Group) : (s.setG g).keys = s.keys := rfl
@[simp] theorem State.setG_boot (s : State) (g : Group) : (s.setG g).boot = s.boot := rfl
@[simp] theorem State.setG_fleet (s : State) (g : Group) : (s.setG g).fleet = s.fleet := rfl
@[simp] theorem State.setG_weights (s : State) (g : Group) : (s.setG g).weights = s.weights := rfl
@[simp] theorem State.setG_scale (s : State) (g : Group) : (s.setG g).scale = s.scale := rfl
@[simp] theorem State.setG_msix (s : State) (g : Group) : (s.setG g).msix = s.msix := rfl
@[simp] theorem State.setG_monlog (s : State) (g : Group) : (s.setG g).monlog = s.monlog := rfl
@[simp] theorem State.setG_mem (s : State) (g : Group) : (s.setG g).mem = s.mem := rfl

@[simp] theorem State.modG_now (s : State) (f : Group → Group) : (s.modG f).now = s.now := rfl
@[simp] theorem State.modG_round (s : State) (f : Group → Group) : (s.modG f).round = s.round := rfl
@[simp] theorem State.modG_turn (s : State) (f : Group → Group) : (s.modG f).turn = s.turn := rfl
@[simp] theorem State.modG_agenda (s : State) (f : Group → Group) : (s.modG f).agenda = s.agenda := rfl
@[simp] theorem State.modG_ticket (s : State) (f : Group → Group) : (s.modG f).ticket = s.ticket := rfl
@[simp] theorem State.modG_hosted (s : State) (f : Group → Group) : (s.modG f).hosted = s.hosted := rfl
@[simp] theorem State.modG_cur (s : State) (f : Group → Group) : (s.modG f).cur = s.cur := rfl
@[simp] theorem State.modG_verdict (s : State) (f : Group → Group) : (s.modG f).verdict = s.verdict := rfl
@[simp] theorem State.modG_issue (s : State) (f : Group → Group) : (s.modG f).issue = s.issue := rfl
@[simp] theorem State.modG_rest (s : State) (f : Group → Group) : (s.modG f).rest = s.rest := rfl
@[simp] theorem State.modG_snaps (s : State) (f : Group → Group) : (s.modG f).snaps = s.snaps := rfl
@[simp] theorem State.modG_teams (s : State) (f : Group → Group) : (s.modG f).teams = s.teams := rfl
@[simp] theorem State.modG_launches (s : State) (f : Group → Group) : (s.modG f).launches = s.launches := rfl
@[simp] theorem State.modG_emissions (s : State) (f : Group → Group) : (s.modG f).emissions = s.emissions := rfl
@[simp] theorem State.modG_ops (s : State) (f : Group → Group) : (s.modG f).ops = s.ops := rfl
@[simp] theorem State.modG_copies (s : State) (f : Group → Group) : (s.modG f).copies = s.copies := rfl
@[simp] theorem State.modG_cores (s : State) (f : Group → Group) : (s.modG f).cores = s.cores := rfl
@[simp] theorem State.modG_clusters (s : State) (f : Group → Group) : (s.modG f).clusters = s.clusters := rfl
@[simp] theorem State.modG_segs (s : State) (f : Group → Group) : (s.modG f).segs = s.segs := rfl
@[simp] theorem State.modG_l2 (s : State) (f : Group → Group) : (s.modG f).l2 = s.l2 := rfl
@[simp] theorem State.modG_crypt (s : State) (f : Group → Group) : (s.modG f).crypt = s.crypt := rfl
@[simp] theorem State.modG_dir (s : State) (f : Group → Group) : (s.modG f).dir = s.dir := rfl
@[simp] theorem State.modG_invals (s : State) (f : Group → Group) : (s.modG f).invals = s.invals := rfl
@[simp] theorem State.modG_mons (s : State) (f : Group → Group) : (s.modG f).mons = s.mons := rfl
@[simp] theorem State.modG_refl (s : State) (f : Group → Group) : (s.modG f).refl = s.refl := rfl
@[simp] theorem State.modG_merges (s : State) (f : Group → Group) : (s.modG f).merges = s.merges := rfl
@[simp] theorem State.modG_halves (s : State) (f : Group → Group) : (s.modG f).halves = s.halves := rfl
@[simp] theorem State.modG_deadNums (s : State) (f : Group → Group) : (s.modG f).deadNums = s.deadNums := rfl
@[simp] theorem State.modG_locks (s : State) (f : Group → Group) : (s.modG f).locks = s.locks := rfl
@[simp] theorem State.modG_ctxs (s : State) (f : Group → Group) : (s.modG f).ctxs = s.ctxs := rfl
@[simp] theorem State.modG_parts (s : State) (f : Group → Group) : (s.modG f).parts = s.parts := rfl
@[simp] theorem State.modG_queues (s : State) (f : Group → Group) : (s.modG f).queues = s.queues := rfl
@[simp] theorem State.modG_tlb (s : State) (f : Group → Group) : (s.modG f).tlb = s.tlb := rfl
@[simp] theorem State.modG_icache (s : State) (f : Group → Group) : (s.modG f).icache = s.icache := rfl
@[simp] theorem State.modG_gens (s : State) (f : Group → Group) : (s.modG f).gens = s.gens := rfl
@[simp] theorem State.modG_access (s : State) (f : Group → Group) : (s.modG f).access = s.access := rfl
@[simp] theorem State.modG_apers (s : State) (f : Group → Group) : (s.modG f).apers = s.apers := rfl
@[simp] theorem State.modG_exports (s : State) (f : Group → Group) : (s.modG f).exports = s.exports := rfl
@[simp] theorem State.modG_keys (s : State) (f : Group → Group) : (s.modG f).keys = s.keys := rfl
@[simp] theorem State.modG_boot (s : State) (f : Group → Group) : (s.modG f).boot = s.boot := rfl
@[simp] theorem State.modG_fleet (s : State) (f : Group → Group) : (s.modG f).fleet = s.fleet := rfl
@[simp] theorem State.modG_weights (s : State) (f : Group → Group) : (s.modG f).weights = s.weights := rfl
@[simp] theorem State.modG_scale (s : State) (f : Group → Group) : (s.modG f).scale = s.scale := rfl
@[simp] theorem State.modG_msix (s : State) (f : Group → Group) : (s.modG f).msix = s.msix := rfl
@[simp] theorem State.modG_monlog (s : State) (f : Group → Group) : (s.modG f).monlog = s.monlog := rfl
@[simp] theorem State.modG_mem (s : State) (f : Group → Group) : (s.modG f).mem = s.mem := rfl

@[simp] theorem State.setTeam_now (s : State) (t : Nat) (x : Team) : (s.setTeam t x).now = s.now := rfl
@[simp] theorem State.setTeam_round (s : State) (t : Nat) (x : Team) : (s.setTeam t x).round = s.round := rfl
@[simp] theorem State.setTeam_turn (s : State) (t : Nat) (x : Team) : (s.setTeam t x).turn = s.turn := rfl
@[simp] theorem State.setTeam_agenda (s : State) (t : Nat) (x : Team) : (s.setTeam t x).agenda = s.agenda := rfl
@[simp] theorem State.setTeam_ticket (s : State) (t : Nat) (x : Team) : (s.setTeam t x).ticket = s.ticket := rfl
@[simp] theorem State.setTeam_hosted (s : State) (t : Nat) (x : Team) : (s.setTeam t x).hosted = s.hosted := rfl
@[simp] theorem State.setTeam_cur (s : State) (t : Nat) (x : Team) : (s.setTeam t x).cur = s.cur := rfl
@[simp] theorem State.setTeam_verdict (s : State) (t : Nat) (x : Team) : (s.setTeam t x).verdict = s.verdict := rfl
@[simp] theorem State.setTeam_issue (s : State) (t : Nat) (x : Team) : (s.setTeam t x).issue = s.issue := rfl
@[simp] theorem State.setTeam_rest (s : State) (t : Nat) (x : Team) : (s.setTeam t x).rest = s.rest := rfl
@[simp] theorem State.setTeam_groups (s : State) (t : Nat) (x : Team) : (s.setTeam t x).groups = s.groups := rfl
@[simp] theorem State.setTeam_snaps (s : State) (t : Nat) (x : Team) : (s.setTeam t x).snaps = s.snaps := rfl
@[simp] theorem State.setTeam_launches (s : State) (t : Nat) (x : Team) : (s.setTeam t x).launches = s.launches := rfl
@[simp] theorem State.setTeam_emissions (s : State) (t : Nat) (x : Team) : (s.setTeam t x).emissions = s.emissions := rfl
@[simp] theorem State.setTeam_ops (s : State) (t : Nat) (x : Team) : (s.setTeam t x).ops = s.ops := rfl
@[simp] theorem State.setTeam_copies (s : State) (t : Nat) (x : Team) : (s.setTeam t x).copies = s.copies := rfl
@[simp] theorem State.setTeam_cores (s : State) (t : Nat) (x : Team) : (s.setTeam t x).cores = s.cores := rfl
@[simp] theorem State.setTeam_clusters (s : State) (t : Nat) (x : Team) : (s.setTeam t x).clusters = s.clusters := rfl
@[simp] theorem State.setTeam_segs (s : State) (t : Nat) (x : Team) : (s.setTeam t x).segs = s.segs := rfl
@[simp] theorem State.setTeam_l2 (s : State) (t : Nat) (x : Team) : (s.setTeam t x).l2 = s.l2 := rfl
@[simp] theorem State.setTeam_crypt (s : State) (t : Nat) (x : Team) : (s.setTeam t x).crypt = s.crypt := rfl
@[simp] theorem State.setTeam_dir (s : State) (t : Nat) (x : Team) : (s.setTeam t x).dir = s.dir := rfl
@[simp] theorem State.setTeam_invals (s : State) (t : Nat) (x : Team) : (s.setTeam t x).invals = s.invals := rfl
@[simp] theorem State.setTeam_mons (s : State) (t : Nat) (x : Team) : (s.setTeam t x).mons = s.mons := rfl
@[simp] theorem State.setTeam_refl (s : State) (t : Nat) (x : Team) : (s.setTeam t x).refl = s.refl := rfl
@[simp] theorem State.setTeam_merges (s : State) (t : Nat) (x : Team) : (s.setTeam t x).merges = s.merges := rfl
@[simp] theorem State.setTeam_halves (s : State) (t : Nat) (x : Team) : (s.setTeam t x).halves = s.halves := rfl
@[simp] theorem State.setTeam_deadNums (s : State) (t : Nat) (x : Team) : (s.setTeam t x).deadNums = s.deadNums := rfl
@[simp] theorem State.setTeam_locks (s : State) (t : Nat) (x : Team) : (s.setTeam t x).locks = s.locks := rfl
@[simp] theorem State.setTeam_ctxs (s : State) (t : Nat) (x : Team) : (s.setTeam t x).ctxs = s.ctxs := rfl
@[simp] theorem State.setTeam_parts (s : State) (t : Nat) (x : Team) : (s.setTeam t x).parts = s.parts := rfl
@[simp] theorem State.setTeam_queues (s : State) (t : Nat) (x : Team) : (s.setTeam t x).queues = s.queues := rfl
@[simp] theorem State.setTeam_tlb (s : State) (t : Nat) (x : Team) : (s.setTeam t x).tlb = s.tlb := rfl
@[simp] theorem State.setTeam_icache (s : State) (t : Nat) (x : Team) : (s.setTeam t x).icache = s.icache := rfl
@[simp] theorem State.setTeam_gens (s : State) (t : Nat) (x : Team) : (s.setTeam t x).gens = s.gens := rfl
@[simp] theorem State.setTeam_access (s : State) (t : Nat) (x : Team) : (s.setTeam t x).access = s.access := rfl
@[simp] theorem State.setTeam_apers (s : State) (t : Nat) (x : Team) : (s.setTeam t x).apers = s.apers := rfl
@[simp] theorem State.setTeam_exports (s : State) (t : Nat) (x : Team) : (s.setTeam t x).exports = s.exports := rfl
@[simp] theorem State.setTeam_keys (s : State) (t : Nat) (x : Team) : (s.setTeam t x).keys = s.keys := rfl
@[simp] theorem State.setTeam_boot (s : State) (t : Nat) (x : Team) : (s.setTeam t x).boot = s.boot := rfl
@[simp] theorem State.setTeam_fleet (s : State) (t : Nat) (x : Team) : (s.setTeam t x).fleet = s.fleet := rfl
@[simp] theorem State.setTeam_weights (s : State) (t : Nat) (x : Team) : (s.setTeam t x).weights = s.weights := rfl
@[simp] theorem State.setTeam_scale (s : State) (t : Nat) (x : Team) : (s.setTeam t x).scale = s.scale := rfl
@[simp] theorem State.setTeam_msix (s : State) (t : Nat) (x : Team) : (s.setTeam t x).msix = s.msix := rfl
@[simp] theorem State.setTeam_monlog (s : State) (t : Nat) (x : Team) : (s.setTeam t x).monlog = s.monlog := rfl
@[simp] theorem State.setTeam_mem (s : State) (t : Nat) (x : Team) : (s.setTeam t x).mem = s.mem := rfl

@[simp] theorem State.modTeam_now (s : State) (t : Nat) (f : Team → Team) : (s.modTeam t f).now = s.now := rfl
@[simp] theorem State.modTeam_round (s : State) (t : Nat) (f : Team → Team) : (s.modTeam t f).round = s.round := rfl
@[simp] theorem State.modTeam_turn (s : State) (t : Nat) (f : Team → Team) : (s.modTeam t f).turn = s.turn := rfl
@[simp] theorem State.modTeam_agenda (s : State) (t : Nat) (f : Team → Team) : (s.modTeam t f).agenda = s.agenda := rfl
@[simp] theorem State.modTeam_ticket (s : State) (t : Nat) (f : Team → Team) : (s.modTeam t f).ticket = s.ticket := rfl
@[simp] theorem State.modTeam_hosted (s : State) (t : Nat) (f : Team → Team) : (s.modTeam t f).hosted = s.hosted := rfl
@[simp] theorem State.modTeam_cur (s : State) (t : Nat) (f : Team → Team) : (s.modTeam t f).cur = s.cur := rfl
@[simp] theorem State.modTeam_verdict (s : State) (t : Nat) (f : Team → Team) : (s.modTeam t f).verdict = s.verdict := rfl
@[simp] theorem State.modTeam_issue (s : State) (t : Nat) (f : Team → Team) : (s.modTeam t f).issue = s.issue := rfl
@[simp] theorem State.modTeam_rest (s : State) (t : Nat) (f : Team → Team) : (s.modTeam t f).rest = s.rest := rfl
@[simp] theorem State.modTeam_groups (s : State) (t : Nat) (f : Team → Team) : (s.modTeam t f).groups = s.groups := rfl
@[simp] theorem State.modTeam_snaps (s : State) (t : Nat) (f : Team → Team) : (s.modTeam t f).snaps = s.snaps := rfl
@[simp] theorem State.modTeam_launches (s : State) (t : Nat) (f : Team → Team) : (s.modTeam t f).launches = s.launches := rfl
@[simp] theorem State.modTeam_emissions (s : State) (t : Nat) (f : Team → Team) : (s.modTeam t f).emissions = s.emissions := rfl
@[simp] theorem State.modTeam_ops (s : State) (t : Nat) (f : Team → Team) : (s.modTeam t f).ops = s.ops := rfl
@[simp] theorem State.modTeam_copies (s : State) (t : Nat) (f : Team → Team) : (s.modTeam t f).copies = s.copies := rfl
@[simp] theorem State.modTeam_cores (s : State) (t : Nat) (f : Team → Team) : (s.modTeam t f).cores = s.cores := rfl
@[simp] theorem State.modTeam_clusters (s : State) (t : Nat) (f : Team → Team) : (s.modTeam t f).clusters = s.clusters := rfl
@[simp] theorem State.modTeam_segs (s : State) (t : Nat) (f : Team → Team) : (s.modTeam t f).segs = s.segs := rfl
@[simp] theorem State.modTeam_l2 (s : State) (t : Nat) (f : Team → Team) : (s.modTeam t f).l2 = s.l2 := rfl
@[simp] theorem State.modTeam_crypt (s : State) (t : Nat) (f : Team → Team) : (s.modTeam t f).crypt = s.crypt := rfl
@[simp] theorem State.modTeam_dir (s : State) (t : Nat) (f : Team → Team) : (s.modTeam t f).dir = s.dir := rfl
@[simp] theorem State.modTeam_invals (s : State) (t : Nat) (f : Team → Team) : (s.modTeam t f).invals = s.invals := rfl
@[simp] theorem State.modTeam_mons (s : State) (t : Nat) (f : Team → Team) : (s.modTeam t f).mons = s.mons := rfl
@[simp] theorem State.modTeam_refl (s : State) (t : Nat) (f : Team → Team) : (s.modTeam t f).refl = s.refl := rfl
@[simp] theorem State.modTeam_merges (s : State) (t : Nat) (f : Team → Team) : (s.modTeam t f).merges = s.merges := rfl
@[simp] theorem State.modTeam_halves (s : State) (t : Nat) (f : Team → Team) : (s.modTeam t f).halves = s.halves := rfl
@[simp] theorem State.modTeam_deadNums (s : State) (t : Nat) (f : Team → Team) : (s.modTeam t f).deadNums = s.deadNums := rfl
@[simp] theorem State.modTeam_locks (s : State) (t : Nat) (f : Team → Team) : (s.modTeam t f).locks = s.locks := rfl
@[simp] theorem State.modTeam_ctxs (s : State) (t : Nat) (f : Team → Team) : (s.modTeam t f).ctxs = s.ctxs := rfl
@[simp] theorem State.modTeam_parts (s : State) (t : Nat) (f : Team → Team) : (s.modTeam t f).parts = s.parts := rfl
@[simp] theorem State.modTeam_queues (s : State) (t : Nat) (f : Team → Team) : (s.modTeam t f).queues = s.queues := rfl
@[simp] theorem State.modTeam_tlb (s : State) (t : Nat) (f : Team → Team) : (s.modTeam t f).tlb = s.tlb := rfl
@[simp] theorem State.modTeam_icache (s : State) (t : Nat) (f : Team → Team) : (s.modTeam t f).icache = s.icache := rfl
@[simp] theorem State.modTeam_gens (s : State) (t : Nat) (f : Team → Team) : (s.modTeam t f).gens = s.gens := rfl
@[simp] theorem State.modTeam_access (s : State) (t : Nat) (f : Team → Team) : (s.modTeam t f).access = s.access := rfl
@[simp] theorem State.modTeam_apers (s : State) (t : Nat) (f : Team → Team) : (s.modTeam t f).apers = s.apers := rfl
@[simp] theorem State.modTeam_exports (s : State) (t : Nat) (f : Team → Team) : (s.modTeam t f).exports = s.exports := rfl
@[simp] theorem State.modTeam_keys (s : State) (t : Nat) (f : Team → Team) : (s.modTeam t f).keys = s.keys := rfl
@[simp] theorem State.modTeam_boot (s : State) (t : Nat) (f : Team → Team) : (s.modTeam t f).boot = s.boot := rfl
@[simp] theorem State.modTeam_fleet (s : State) (t : Nat) (f : Team → Team) : (s.modTeam t f).fleet = s.fleet := rfl
@[simp] theorem State.modTeam_weights (s : State) (t : Nat) (f : Team → Team) : (s.modTeam t f).weights = s.weights := rfl
@[simp] theorem State.modTeam_scale (s : State) (t : Nat) (f : Team → Team) : (s.modTeam t f).scale = s.scale := rfl
@[simp] theorem State.modTeam_msix (s : State) (t : Nat) (f : Team → Team) : (s.modTeam t f).msix = s.msix := rfl
@[simp] theorem State.modTeam_monlog (s : State) (t : Nat) (f : Team → Team) : (s.modTeam t f).monlog = s.monlog := rfl
@[simp] theorem State.modTeam_mem (s : State) (t : Nat) (f : Team → Team) : (s.modTeam t f).mem = s.mem := rfl

@[simp] theorem State.modCtx_now (s : State) (c : Nat) (f : Ctx → Ctx) : (s.modCtx c f).now = s.now := rfl
@[simp] theorem State.modCtx_round (s : State) (c : Nat) (f : Ctx → Ctx) : (s.modCtx c f).round = s.round := rfl
@[simp] theorem State.modCtx_turn (s : State) (c : Nat) (f : Ctx → Ctx) : (s.modCtx c f).turn = s.turn := rfl
@[simp] theorem State.modCtx_agenda (s : State) (c : Nat) (f : Ctx → Ctx) : (s.modCtx c f).agenda = s.agenda := rfl
@[simp] theorem State.modCtx_ticket (s : State) (c : Nat) (f : Ctx → Ctx) : (s.modCtx c f).ticket = s.ticket := rfl
@[simp] theorem State.modCtx_hosted (s : State) (c : Nat) (f : Ctx → Ctx) : (s.modCtx c f).hosted = s.hosted := rfl
@[simp] theorem State.modCtx_cur (s : State) (c : Nat) (f : Ctx → Ctx) : (s.modCtx c f).cur = s.cur := rfl
@[simp] theorem State.modCtx_verdict (s : State) (c : Nat) (f : Ctx → Ctx) : (s.modCtx c f).verdict = s.verdict := rfl
@[simp] theorem State.modCtx_issue (s : State) (c : Nat) (f : Ctx → Ctx) : (s.modCtx c f).issue = s.issue := rfl
@[simp] theorem State.modCtx_rest (s : State) (c : Nat) (f : Ctx → Ctx) : (s.modCtx c f).rest = s.rest := rfl
@[simp] theorem State.modCtx_groups (s : State) (c : Nat) (f : Ctx → Ctx) : (s.modCtx c f).groups = s.groups := rfl
@[simp] theorem State.modCtx_snaps (s : State) (c : Nat) (f : Ctx → Ctx) : (s.modCtx c f).snaps = s.snaps := rfl
@[simp] theorem State.modCtx_teams (s : State) (c : Nat) (f : Ctx → Ctx) : (s.modCtx c f).teams = s.teams := rfl
@[simp] theorem State.modCtx_launches (s : State) (c : Nat) (f : Ctx → Ctx) : (s.modCtx c f).launches = s.launches := rfl
@[simp] theorem State.modCtx_emissions (s : State) (c : Nat) (f : Ctx → Ctx) : (s.modCtx c f).emissions = s.emissions := rfl
@[simp] theorem State.modCtx_ops (s : State) (c : Nat) (f : Ctx → Ctx) : (s.modCtx c f).ops = s.ops := rfl
@[simp] theorem State.modCtx_copies (s : State) (c : Nat) (f : Ctx → Ctx) : (s.modCtx c f).copies = s.copies := rfl
@[simp] theorem State.modCtx_cores (s : State) (c : Nat) (f : Ctx → Ctx) : (s.modCtx c f).cores = s.cores := rfl
@[simp] theorem State.modCtx_clusters (s : State) (c : Nat) (f : Ctx → Ctx) : (s.modCtx c f).clusters = s.clusters := rfl
@[simp] theorem State.modCtx_segs (s : State) (c : Nat) (f : Ctx → Ctx) : (s.modCtx c f).segs = s.segs := rfl
@[simp] theorem State.modCtx_l2 (s : State) (c : Nat) (f : Ctx → Ctx) : (s.modCtx c f).l2 = s.l2 := rfl
@[simp] theorem State.modCtx_crypt (s : State) (c : Nat) (f : Ctx → Ctx) : (s.modCtx c f).crypt = s.crypt := rfl
@[simp] theorem State.modCtx_dir (s : State) (c : Nat) (f : Ctx → Ctx) : (s.modCtx c f).dir = s.dir := rfl
@[simp] theorem State.modCtx_invals (s : State) (c : Nat) (f : Ctx → Ctx) : (s.modCtx c f).invals = s.invals := rfl
@[simp] theorem State.modCtx_mons (s : State) (c : Nat) (f : Ctx → Ctx) : (s.modCtx c f).mons = s.mons := rfl
@[simp] theorem State.modCtx_refl (s : State) (c : Nat) (f : Ctx → Ctx) : (s.modCtx c f).refl = s.refl := rfl
@[simp] theorem State.modCtx_merges (s : State) (c : Nat) (f : Ctx → Ctx) : (s.modCtx c f).merges = s.merges := rfl
@[simp] theorem State.modCtx_halves (s : State) (c : Nat) (f : Ctx → Ctx) : (s.modCtx c f).halves = s.halves := rfl
@[simp] theorem State.modCtx_deadNums (s : State) (c : Nat) (f : Ctx → Ctx) : (s.modCtx c f).deadNums = s.deadNums := rfl
@[simp] theorem State.modCtx_locks (s : State) (c : Nat) (f : Ctx → Ctx) : (s.modCtx c f).locks = s.locks := rfl
@[simp] theorem State.modCtx_parts (s : State) (c : Nat) (f : Ctx → Ctx) : (s.modCtx c f).parts = s.parts := rfl
@[simp] theorem State.modCtx_queues (s : State) (c : Nat) (f : Ctx → Ctx) : (s.modCtx c f).queues = s.queues := rfl
@[simp] theorem State.modCtx_tlb (s : State) (c : Nat) (f : Ctx → Ctx) : (s.modCtx c f).tlb = s.tlb := rfl
@[simp] theorem State.modCtx_icache (s : State) (c : Nat) (f : Ctx → Ctx) : (s.modCtx c f).icache = s.icache := rfl
@[simp] theorem State.modCtx_gens (s : State) (c : Nat) (f : Ctx → Ctx) : (s.modCtx c f).gens = s.gens := rfl
@[simp] theorem State.modCtx_access (s : State) (c : Nat) (f : Ctx → Ctx) : (s.modCtx c f).access = s.access := rfl
@[simp] theorem State.modCtx_apers (s : State) (c : Nat) (f : Ctx → Ctx) : (s.modCtx c f).apers = s.apers := rfl
@[simp] theorem State.modCtx_exports (s : State) (c : Nat) (f : Ctx → Ctx) : (s.modCtx c f).exports = s.exports := rfl
@[simp] theorem State.modCtx_keys (s : State) (c : Nat) (f : Ctx → Ctx) : (s.modCtx c f).keys = s.keys := rfl
@[simp] theorem State.modCtx_boot (s : State) (c : Nat) (f : Ctx → Ctx) : (s.modCtx c f).boot = s.boot := rfl
@[simp] theorem State.modCtx_fleet (s : State) (c : Nat) (f : Ctx → Ctx) : (s.modCtx c f).fleet = s.fleet := rfl
@[simp] theorem State.modCtx_weights (s : State) (c : Nat) (f : Ctx → Ctx) : (s.modCtx c f).weights = s.weights := rfl
@[simp] theorem State.modCtx_scale (s : State) (c : Nat) (f : Ctx → Ctx) : (s.modCtx c f).scale = s.scale := rfl
@[simp] theorem State.modCtx_msix (s : State) (c : Nat) (f : Ctx → Ctx) : (s.modCtx c f).msix = s.msix := rfl
@[simp] theorem State.modCtx_monlog (s : State) (c : Nat) (f : Ctx → Ctx) : (s.modCtx c f).monlog = s.monlog := rfl
@[simp] theorem State.modCtx_mem (s : State) (c : Nat) (f : Ctx → Ctx) : (s.modCtx c f).mem = s.mem := rfl

@[simp] theorem State.modPart_now (s : State) (p : Nat) (f : Part → Part) : (s.modPart p f).now = s.now := rfl
@[simp] theorem State.modPart_round (s : State) (p : Nat) (f : Part → Part) : (s.modPart p f).round = s.round := rfl
@[simp] theorem State.modPart_turn (s : State) (p : Nat) (f : Part → Part) : (s.modPart p f).turn = s.turn := rfl
@[simp] theorem State.modPart_agenda (s : State) (p : Nat) (f : Part → Part) : (s.modPart p f).agenda = s.agenda := rfl
@[simp] theorem State.modPart_ticket (s : State) (p : Nat) (f : Part → Part) : (s.modPart p f).ticket = s.ticket := rfl
@[simp] theorem State.modPart_hosted (s : State) (p : Nat) (f : Part → Part) : (s.modPart p f).hosted = s.hosted := rfl
@[simp] theorem State.modPart_cur (s : State) (p : Nat) (f : Part → Part) : (s.modPart p f).cur = s.cur := rfl
@[simp] theorem State.modPart_verdict (s : State) (p : Nat) (f : Part → Part) : (s.modPart p f).verdict = s.verdict := rfl
@[simp] theorem State.modPart_issue (s : State) (p : Nat) (f : Part → Part) : (s.modPart p f).issue = s.issue := rfl
@[simp] theorem State.modPart_rest (s : State) (p : Nat) (f : Part → Part) : (s.modPart p f).rest = s.rest := rfl
@[simp] theorem State.modPart_groups (s : State) (p : Nat) (f : Part → Part) : (s.modPart p f).groups = s.groups := rfl
@[simp] theorem State.modPart_snaps (s : State) (p : Nat) (f : Part → Part) : (s.modPart p f).snaps = s.snaps := rfl
@[simp] theorem State.modPart_teams (s : State) (p : Nat) (f : Part → Part) : (s.modPart p f).teams = s.teams := rfl
@[simp] theorem State.modPart_launches (s : State) (p : Nat) (f : Part → Part) : (s.modPart p f).launches = s.launches := rfl
@[simp] theorem State.modPart_emissions (s : State) (p : Nat) (f : Part → Part) : (s.modPart p f).emissions = s.emissions := rfl
@[simp] theorem State.modPart_ops (s : State) (p : Nat) (f : Part → Part) : (s.modPart p f).ops = s.ops := rfl
@[simp] theorem State.modPart_copies (s : State) (p : Nat) (f : Part → Part) : (s.modPart p f).copies = s.copies := rfl
@[simp] theorem State.modPart_cores (s : State) (p : Nat) (f : Part → Part) : (s.modPart p f).cores = s.cores := rfl
@[simp] theorem State.modPart_clusters (s : State) (p : Nat) (f : Part → Part) : (s.modPart p f).clusters = s.clusters := rfl
@[simp] theorem State.modPart_segs (s : State) (p : Nat) (f : Part → Part) : (s.modPart p f).segs = s.segs := rfl
@[simp] theorem State.modPart_l2 (s : State) (p : Nat) (f : Part → Part) : (s.modPart p f).l2 = s.l2 := rfl
@[simp] theorem State.modPart_crypt (s : State) (p : Nat) (f : Part → Part) : (s.modPart p f).crypt = s.crypt := rfl
@[simp] theorem State.modPart_dir (s : State) (p : Nat) (f : Part → Part) : (s.modPart p f).dir = s.dir := rfl
@[simp] theorem State.modPart_invals (s : State) (p : Nat) (f : Part → Part) : (s.modPart p f).invals = s.invals := rfl
@[simp] theorem State.modPart_mons (s : State) (p : Nat) (f : Part → Part) : (s.modPart p f).mons = s.mons := rfl
@[simp] theorem State.modPart_refl (s : State) (p : Nat) (f : Part → Part) : (s.modPart p f).refl = s.refl := rfl
@[simp] theorem State.modPart_merges (s : State) (p : Nat) (f : Part → Part) : (s.modPart p f).merges = s.merges := rfl
@[simp] theorem State.modPart_halves (s : State) (p : Nat) (f : Part → Part) : (s.modPart p f).halves = s.halves := rfl
@[simp] theorem State.modPart_deadNums (s : State) (p : Nat) (f : Part → Part) : (s.modPart p f).deadNums = s.deadNums := rfl
@[simp] theorem State.modPart_locks (s : State) (p : Nat) (f : Part → Part) : (s.modPart p f).locks = s.locks := rfl
@[simp] theorem State.modPart_ctxs (s : State) (p : Nat) (f : Part → Part) : (s.modPart p f).ctxs = s.ctxs := rfl
@[simp] theorem State.modPart_queues (s : State) (p : Nat) (f : Part → Part) : (s.modPart p f).queues = s.queues := rfl
@[simp] theorem State.modPart_tlb (s : State) (p : Nat) (f : Part → Part) : (s.modPart p f).tlb = s.tlb := rfl
@[simp] theorem State.modPart_icache (s : State) (p : Nat) (f : Part → Part) : (s.modPart p f).icache = s.icache := rfl
@[simp] theorem State.modPart_gens (s : State) (p : Nat) (f : Part → Part) : (s.modPart p f).gens = s.gens := rfl
@[simp] theorem State.modPart_access (s : State) (p : Nat) (f : Part → Part) : (s.modPart p f).access = s.access := rfl
@[simp] theorem State.modPart_apers (s : State) (p : Nat) (f : Part → Part) : (s.modPart p f).apers = s.apers := rfl
@[simp] theorem State.modPart_exports (s : State) (p : Nat) (f : Part → Part) : (s.modPart p f).exports = s.exports := rfl
@[simp] theorem State.modPart_keys (s : State) (p : Nat) (f : Part → Part) : (s.modPart p f).keys = s.keys := rfl
@[simp] theorem State.modPart_boot (s : State) (p : Nat) (f : Part → Part) : (s.modPart p f).boot = s.boot := rfl
@[simp] theorem State.modPart_fleet (s : State) (p : Nat) (f : Part → Part) : (s.modPart p f).fleet = s.fleet := rfl
@[simp] theorem State.modPart_weights (s : State) (p : Nat) (f : Part → Part) : (s.modPart p f).weights = s.weights := rfl
@[simp] theorem State.modPart_scale (s : State) (p : Nat) (f : Part → Part) : (s.modPart p f).scale = s.scale := rfl
@[simp] theorem State.modPart_msix (s : State) (p : Nat) (f : Part → Part) : (s.modPart p f).msix = s.msix := rfl
@[simp] theorem State.modPart_monlog (s : State) (p : Nat) (f : Part → Part) : (s.modPart p f).monlog = s.monlog := rfl
@[simp] theorem State.modPart_mem (s : State) (p : Nat) (f : Part → Part) : (s.modPart p f).mem = s.mem := rfl

@[simp] theorem State.modLaunch_now (s : State) (l : Nat) (f : Launch → Launch) : (s.modLaunch l f).now = s.now := rfl
@[simp] theorem State.modLaunch_round (s : State) (l : Nat) (f : Launch → Launch) : (s.modLaunch l f).round = s.round := rfl
@[simp] theorem State.modLaunch_turn (s : State) (l : Nat) (f : Launch → Launch) : (s.modLaunch l f).turn = s.turn := rfl
@[simp] theorem State.modLaunch_agenda (s : State) (l : Nat) (f : Launch → Launch) : (s.modLaunch l f).agenda = s.agenda := rfl
@[simp] theorem State.modLaunch_ticket (s : State) (l : Nat) (f : Launch → Launch) : (s.modLaunch l f).ticket = s.ticket := rfl
@[simp] theorem State.modLaunch_hosted (s : State) (l : Nat) (f : Launch → Launch) : (s.modLaunch l f).hosted = s.hosted := rfl
@[simp] theorem State.modLaunch_cur (s : State) (l : Nat) (f : Launch → Launch) : (s.modLaunch l f).cur = s.cur := rfl
@[simp] theorem State.modLaunch_verdict (s : State) (l : Nat) (f : Launch → Launch) : (s.modLaunch l f).verdict = s.verdict := rfl
@[simp] theorem State.modLaunch_issue (s : State) (l : Nat) (f : Launch → Launch) : (s.modLaunch l f).issue = s.issue := rfl
@[simp] theorem State.modLaunch_rest (s : State) (l : Nat) (f : Launch → Launch) : (s.modLaunch l f).rest = s.rest := rfl
@[simp] theorem State.modLaunch_groups (s : State) (l : Nat) (f : Launch → Launch) : (s.modLaunch l f).groups = s.groups := rfl
@[simp] theorem State.modLaunch_snaps (s : State) (l : Nat) (f : Launch → Launch) : (s.modLaunch l f).snaps = s.snaps := rfl
@[simp] theorem State.modLaunch_teams (s : State) (l : Nat) (f : Launch → Launch) : (s.modLaunch l f).teams = s.teams := rfl
@[simp] theorem State.modLaunch_emissions (s : State) (l : Nat) (f : Launch → Launch) : (s.modLaunch l f).emissions = s.emissions := rfl
@[simp] theorem State.modLaunch_ops (s : State) (l : Nat) (f : Launch → Launch) : (s.modLaunch l f).ops = s.ops := rfl
@[simp] theorem State.modLaunch_copies (s : State) (l : Nat) (f : Launch → Launch) : (s.modLaunch l f).copies = s.copies := rfl
@[simp] theorem State.modLaunch_cores (s : State) (l : Nat) (f : Launch → Launch) : (s.modLaunch l f).cores = s.cores := rfl
@[simp] theorem State.modLaunch_clusters (s : State) (l : Nat) (f : Launch → Launch) : (s.modLaunch l f).clusters = s.clusters := rfl
@[simp] theorem State.modLaunch_segs (s : State) (l : Nat) (f : Launch → Launch) : (s.modLaunch l f).segs = s.segs := rfl
@[simp] theorem State.modLaunch_l2 (s : State) (l : Nat) (f : Launch → Launch) : (s.modLaunch l f).l2 = s.l2 := rfl
@[simp] theorem State.modLaunch_crypt (s : State) (l : Nat) (f : Launch → Launch) : (s.modLaunch l f).crypt = s.crypt := rfl
@[simp] theorem State.modLaunch_dir (s : State) (l : Nat) (f : Launch → Launch) : (s.modLaunch l f).dir = s.dir := rfl
@[simp] theorem State.modLaunch_invals (s : State) (l : Nat) (f : Launch → Launch) : (s.modLaunch l f).invals = s.invals := rfl
@[simp] theorem State.modLaunch_mons (s : State) (l : Nat) (f : Launch → Launch) : (s.modLaunch l f).mons = s.mons := rfl
@[simp] theorem State.modLaunch_refl (s : State) (l : Nat) (f : Launch → Launch) : (s.modLaunch l f).refl = s.refl := rfl
@[simp] theorem State.modLaunch_merges (s : State) (l : Nat) (f : Launch → Launch) : (s.modLaunch l f).merges = s.merges := rfl
@[simp] theorem State.modLaunch_halves (s : State) (l : Nat) (f : Launch → Launch) : (s.modLaunch l f).halves = s.halves := rfl
@[simp] theorem State.modLaunch_deadNums (s : State) (l : Nat) (f : Launch → Launch) : (s.modLaunch l f).deadNums = s.deadNums := rfl
@[simp] theorem State.modLaunch_locks (s : State) (l : Nat) (f : Launch → Launch) : (s.modLaunch l f).locks = s.locks := rfl
@[simp] theorem State.modLaunch_ctxs (s : State) (l : Nat) (f : Launch → Launch) : (s.modLaunch l f).ctxs = s.ctxs := rfl
@[simp] theorem State.modLaunch_parts (s : State) (l : Nat) (f : Launch → Launch) : (s.modLaunch l f).parts = s.parts := rfl
@[simp] theorem State.modLaunch_queues (s : State) (l : Nat) (f : Launch → Launch) : (s.modLaunch l f).queues = s.queues := rfl
@[simp] theorem State.modLaunch_tlb (s : State) (l : Nat) (f : Launch → Launch) : (s.modLaunch l f).tlb = s.tlb := rfl
@[simp] theorem State.modLaunch_icache (s : State) (l : Nat) (f : Launch → Launch) : (s.modLaunch l f).icache = s.icache := rfl
@[simp] theorem State.modLaunch_gens (s : State) (l : Nat) (f : Launch → Launch) : (s.modLaunch l f).gens = s.gens := rfl
@[simp] theorem State.modLaunch_access (s : State) (l : Nat) (f : Launch → Launch) : (s.modLaunch l f).access = s.access := rfl
@[simp] theorem State.modLaunch_apers (s : State) (l : Nat) (f : Launch → Launch) : (s.modLaunch l f).apers = s.apers := rfl
@[simp] theorem State.modLaunch_exports (s : State) (l : Nat) (f : Launch → Launch) : (s.modLaunch l f).exports = s.exports := rfl
@[simp] theorem State.modLaunch_keys (s : State) (l : Nat) (f : Launch → Launch) : (s.modLaunch l f).keys = s.keys := rfl
@[simp] theorem State.modLaunch_boot (s : State) (l : Nat) (f : Launch → Launch) : (s.modLaunch l f).boot = s.boot := rfl
@[simp] theorem State.modLaunch_fleet (s : State) (l : Nat) (f : Launch → Launch) : (s.modLaunch l f).fleet = s.fleet := rfl
@[simp] theorem State.modLaunch_weights (s : State) (l : Nat) (f : Launch → Launch) : (s.modLaunch l f).weights = s.weights := rfl
@[simp] theorem State.modLaunch_scale (s : State) (l : Nat) (f : Launch → Launch) : (s.modLaunch l f).scale = s.scale := rfl
@[simp] theorem State.modLaunch_msix (s : State) (l : Nat) (f : Launch → Launch) : (s.modLaunch l f).msix = s.msix := rfl
@[simp] theorem State.modLaunch_monlog (s : State) (l : Nat) (f : Launch → Launch) : (s.modLaunch l f).monlog = s.monlog := rfl
@[simp] theorem State.modLaunch_mem (s : State) (l : Nat) (f : Launch → Launch) : (s.modLaunch l f).mem = s.mem := rfl

@[simp] theorem State.setCore_now (s : State) (k : Nat) (c : CoreSt) : (s.setCore k c).now = s.now := rfl
@[simp] theorem State.setCore_round (s : State) (k : Nat) (c : CoreSt) : (s.setCore k c).round = s.round := rfl
@[simp] theorem State.setCore_turn (s : State) (k : Nat) (c : CoreSt) : (s.setCore k c).turn = s.turn := rfl
@[simp] theorem State.setCore_agenda (s : State) (k : Nat) (c : CoreSt) : (s.setCore k c).agenda = s.agenda := rfl
@[simp] theorem State.setCore_ticket (s : State) (k : Nat) (c : CoreSt) : (s.setCore k c).ticket = s.ticket := rfl
@[simp] theorem State.setCore_hosted (s : State) (k : Nat) (c : CoreSt) : (s.setCore k c).hosted = s.hosted := rfl
@[simp] theorem State.setCore_cur (s : State) (k : Nat) (c : CoreSt) : (s.setCore k c).cur = s.cur := rfl
@[simp] theorem State.setCore_verdict (s : State) (k : Nat) (c : CoreSt) : (s.setCore k c).verdict = s.verdict := rfl
@[simp] theorem State.setCore_issue (s : State) (k : Nat) (c : CoreSt) : (s.setCore k c).issue = s.issue := rfl
@[simp] theorem State.setCore_rest (s : State) (k : Nat) (c : CoreSt) : (s.setCore k c).rest = s.rest := rfl
@[simp] theorem State.setCore_groups (s : State) (k : Nat) (c : CoreSt) : (s.setCore k c).groups = s.groups := rfl
@[simp] theorem State.setCore_snaps (s : State) (k : Nat) (c : CoreSt) : (s.setCore k c).snaps = s.snaps := rfl
@[simp] theorem State.setCore_teams (s : State) (k : Nat) (c : CoreSt) : (s.setCore k c).teams = s.teams := rfl
@[simp] theorem State.setCore_launches (s : State) (k : Nat) (c : CoreSt) : (s.setCore k c).launches = s.launches := rfl
@[simp] theorem State.setCore_emissions (s : State) (k : Nat) (c : CoreSt) : (s.setCore k c).emissions = s.emissions := rfl
@[simp] theorem State.setCore_ops (s : State) (k : Nat) (c : CoreSt) : (s.setCore k c).ops = s.ops := rfl
@[simp] theorem State.setCore_copies (s : State) (k : Nat) (c : CoreSt) : (s.setCore k c).copies = s.copies := rfl
@[simp] theorem State.setCore_clusters (s : State) (k : Nat) (c : CoreSt) : (s.setCore k c).clusters = s.clusters := rfl
@[simp] theorem State.setCore_segs (s : State) (k : Nat) (c : CoreSt) : (s.setCore k c).segs = s.segs := rfl
@[simp] theorem State.setCore_l2 (s : State) (k : Nat) (c : CoreSt) : (s.setCore k c).l2 = s.l2 := rfl
@[simp] theorem State.setCore_crypt (s : State) (k : Nat) (c : CoreSt) : (s.setCore k c).crypt = s.crypt := rfl
@[simp] theorem State.setCore_dir (s : State) (k : Nat) (c : CoreSt) : (s.setCore k c).dir = s.dir := rfl
@[simp] theorem State.setCore_invals (s : State) (k : Nat) (c : CoreSt) : (s.setCore k c).invals = s.invals := rfl
@[simp] theorem State.setCore_mons (s : State) (k : Nat) (c : CoreSt) : (s.setCore k c).mons = s.mons := rfl
@[simp] theorem State.setCore_refl (s : State) (k : Nat) (c : CoreSt) : (s.setCore k c).refl = s.refl := rfl
@[simp] theorem State.setCore_merges (s : State) (k : Nat) (c : CoreSt) : (s.setCore k c).merges = s.merges := rfl
@[simp] theorem State.setCore_halves (s : State) (k : Nat) (c : CoreSt) : (s.setCore k c).halves = s.halves := rfl
@[simp] theorem State.setCore_deadNums (s : State) (k : Nat) (c : CoreSt) : (s.setCore k c).deadNums = s.deadNums := rfl
@[simp] theorem State.setCore_locks (s : State) (k : Nat) (c : CoreSt) : (s.setCore k c).locks = s.locks := rfl
@[simp] theorem State.setCore_ctxs (s : State) (k : Nat) (c : CoreSt) : (s.setCore k c).ctxs = s.ctxs := rfl
@[simp] theorem State.setCore_parts (s : State) (k : Nat) (c : CoreSt) : (s.setCore k c).parts = s.parts := rfl
@[simp] theorem State.setCore_queues (s : State) (k : Nat) (c : CoreSt) : (s.setCore k c).queues = s.queues := rfl
@[simp] theorem State.setCore_tlb (s : State) (k : Nat) (c : CoreSt) : (s.setCore k c).tlb = s.tlb := rfl
@[simp] theorem State.setCore_icache (s : State) (k : Nat) (c : CoreSt) : (s.setCore k c).icache = s.icache := rfl
@[simp] theorem State.setCore_gens (s : State) (k : Nat) (c : CoreSt) : (s.setCore k c).gens = s.gens := rfl
@[simp] theorem State.setCore_access (s : State) (k : Nat) (c : CoreSt) : (s.setCore k c).access = s.access := rfl
@[simp] theorem State.setCore_apers (s : State) (k : Nat) (c : CoreSt) : (s.setCore k c).apers = s.apers := rfl
@[simp] theorem State.setCore_exports (s : State) (k : Nat) (c : CoreSt) : (s.setCore k c).exports = s.exports := rfl
@[simp] theorem State.setCore_keys (s : State) (k : Nat) (c : CoreSt) : (s.setCore k c).keys = s.keys := rfl
@[simp] theorem State.setCore_boot (s : State) (k : Nat) (c : CoreSt) : (s.setCore k c).boot = s.boot := rfl
@[simp] theorem State.setCore_fleet (s : State) (k : Nat) (c : CoreSt) : (s.setCore k c).fleet = s.fleet := rfl
@[simp] theorem State.setCore_weights (s : State) (k : Nat) (c : CoreSt) : (s.setCore k c).weights = s.weights := rfl
@[simp] theorem State.setCore_scale (s : State) (k : Nat) (c : CoreSt) : (s.setCore k c).scale = s.scale := rfl
@[simp] theorem State.setCore_msix (s : State) (k : Nat) (c : CoreSt) : (s.setCore k c).msix = s.msix := rfl
@[simp] theorem State.setCore_monlog (s : State) (k : Nat) (c : CoreSt) : (s.setCore k c).monlog = s.monlog := rfl
@[simp] theorem State.setCore_mem (s : State) (k : Nat) (c : CoreSt) : (s.setCore k c).mem = s.mem := rfl

@[simp] theorem State.setCluster_now (s : State) (k : Nat) (c : ClusterSt) : (s.setCluster k c).now = s.now := rfl
@[simp] theorem State.setCluster_round (s : State) (k : Nat) (c : ClusterSt) : (s.setCluster k c).round = s.round := rfl
@[simp] theorem State.setCluster_turn (s : State) (k : Nat) (c : ClusterSt) : (s.setCluster k c).turn = s.turn := rfl
@[simp] theorem State.setCluster_agenda (s : State) (k : Nat) (c : ClusterSt) : (s.setCluster k c).agenda = s.agenda := rfl
@[simp] theorem State.setCluster_ticket (s : State) (k : Nat) (c : ClusterSt) : (s.setCluster k c).ticket = s.ticket := rfl
@[simp] theorem State.setCluster_hosted (s : State) (k : Nat) (c : ClusterSt) : (s.setCluster k c).hosted = s.hosted := rfl
@[simp] theorem State.setCluster_cur (s : State) (k : Nat) (c : ClusterSt) : (s.setCluster k c).cur = s.cur := rfl
@[simp] theorem State.setCluster_verdict (s : State) (k : Nat) (c : ClusterSt) : (s.setCluster k c).verdict = s.verdict := rfl
@[simp] theorem State.setCluster_issue (s : State) (k : Nat) (c : ClusterSt) : (s.setCluster k c).issue = s.issue := rfl
@[simp] theorem State.setCluster_rest (s : State) (k : Nat) (c : ClusterSt) : (s.setCluster k c).rest = s.rest := rfl
@[simp] theorem State.setCluster_groups (s : State) (k : Nat) (c : ClusterSt) : (s.setCluster k c).groups = s.groups := rfl
@[simp] theorem State.setCluster_snaps (s : State) (k : Nat) (c : ClusterSt) : (s.setCluster k c).snaps = s.snaps := rfl
@[simp] theorem State.setCluster_teams (s : State) (k : Nat) (c : ClusterSt) : (s.setCluster k c).teams = s.teams := rfl
@[simp] theorem State.setCluster_launches (s : State) (k : Nat) (c : ClusterSt) : (s.setCluster k c).launches = s.launches := rfl
@[simp] theorem State.setCluster_emissions (s : State) (k : Nat) (c : ClusterSt) : (s.setCluster k c).emissions = s.emissions := rfl
@[simp] theorem State.setCluster_ops (s : State) (k : Nat) (c : ClusterSt) : (s.setCluster k c).ops = s.ops := rfl
@[simp] theorem State.setCluster_copies (s : State) (k : Nat) (c : ClusterSt) : (s.setCluster k c).copies = s.copies := rfl
@[simp] theorem State.setCluster_cores (s : State) (k : Nat) (c : ClusterSt) : (s.setCluster k c).cores = s.cores := rfl
@[simp] theorem State.setCluster_segs (s : State) (k : Nat) (c : ClusterSt) : (s.setCluster k c).segs = s.segs := rfl
@[simp] theorem State.setCluster_l2 (s : State) (k : Nat) (c : ClusterSt) : (s.setCluster k c).l2 = s.l2 := rfl
@[simp] theorem State.setCluster_crypt (s : State) (k : Nat) (c : ClusterSt) : (s.setCluster k c).crypt = s.crypt := rfl
@[simp] theorem State.setCluster_dir (s : State) (k : Nat) (c : ClusterSt) : (s.setCluster k c).dir = s.dir := rfl
@[simp] theorem State.setCluster_invals (s : State) (k : Nat) (c : ClusterSt) : (s.setCluster k c).invals = s.invals := rfl
@[simp] theorem State.setCluster_mons (s : State) (k : Nat) (c : ClusterSt) : (s.setCluster k c).mons = s.mons := rfl
@[simp] theorem State.setCluster_refl (s : State) (k : Nat) (c : ClusterSt) : (s.setCluster k c).refl = s.refl := rfl
@[simp] theorem State.setCluster_merges (s : State) (k : Nat) (c : ClusterSt) : (s.setCluster k c).merges = s.merges := rfl
@[simp] theorem State.setCluster_halves (s : State) (k : Nat) (c : ClusterSt) : (s.setCluster k c).halves = s.halves := rfl
@[simp] theorem State.setCluster_deadNums (s : State) (k : Nat) (c : ClusterSt) : (s.setCluster k c).deadNums = s.deadNums := rfl
@[simp] theorem State.setCluster_locks (s : State) (k : Nat) (c : ClusterSt) : (s.setCluster k c).locks = s.locks := rfl
@[simp] theorem State.setCluster_ctxs (s : State) (k : Nat) (c : ClusterSt) : (s.setCluster k c).ctxs = s.ctxs := rfl
@[simp] theorem State.setCluster_parts (s : State) (k : Nat) (c : ClusterSt) : (s.setCluster k c).parts = s.parts := rfl
@[simp] theorem State.setCluster_queues (s : State) (k : Nat) (c : ClusterSt) : (s.setCluster k c).queues = s.queues := rfl
@[simp] theorem State.setCluster_tlb (s : State) (k : Nat) (c : ClusterSt) : (s.setCluster k c).tlb = s.tlb := rfl
@[simp] theorem State.setCluster_icache (s : State) (k : Nat) (c : ClusterSt) : (s.setCluster k c).icache = s.icache := rfl
@[simp] theorem State.setCluster_gens (s : State) (k : Nat) (c : ClusterSt) : (s.setCluster k c).gens = s.gens := rfl
@[simp] theorem State.setCluster_access (s : State) (k : Nat) (c : ClusterSt) : (s.setCluster k c).access = s.access := rfl
@[simp] theorem State.setCluster_apers (s : State) (k : Nat) (c : ClusterSt) : (s.setCluster k c).apers = s.apers := rfl
@[simp] theorem State.setCluster_exports (s : State) (k : Nat) (c : ClusterSt) : (s.setCluster k c).exports = s.exports := rfl
@[simp] theorem State.setCluster_keys (s : State) (k : Nat) (c : ClusterSt) : (s.setCluster k c).keys = s.keys := rfl
@[simp] theorem State.setCluster_boot (s : State) (k : Nat) (c : ClusterSt) : (s.setCluster k c).boot = s.boot := rfl
@[simp] theorem State.setCluster_fleet (s : State) (k : Nat) (c : ClusterSt) : (s.setCluster k c).fleet = s.fleet := rfl
@[simp] theorem State.setCluster_weights (s : State) (k : Nat) (c : ClusterSt) : (s.setCluster k c).weights = s.weights := rfl
@[simp] theorem State.setCluster_scale (s : State) (k : Nat) (c : ClusterSt) : (s.setCluster k c).scale = s.scale := rfl
@[simp] theorem State.setCluster_msix (s : State) (k : Nat) (c : ClusterSt) : (s.setCluster k c).msix = s.msix := rfl
@[simp] theorem State.setCluster_monlog (s : State) (k : Nat) (c : ClusterSt) : (s.setCluster k c).monlog = s.monlog := rfl
@[simp] theorem State.setCluster_mem (s : State) (k : Nat) (c : ClusterSt) : (s.setCluster k c).mem = s.mem := rfl

@[simp] theorem State.verd_now (s : State) (v : Verdict) : (s.verd v).now = s.now := rfl
@[simp] theorem State.verd_round (s : State) (v : Verdict) : (s.verd v).round = s.round := rfl
@[simp] theorem State.verd_turn (s : State) (v : Verdict) : (s.verd v).turn = s.turn := rfl
@[simp] theorem State.verd_agenda (s : State) (v : Verdict) : (s.verd v).agenda = s.agenda := rfl
@[simp] theorem State.verd_ticket (s : State) (v : Verdict) : (s.verd v).ticket = s.ticket := rfl
@[simp] theorem State.verd_hosted (s : State) (v : Verdict) : (s.verd v).hosted = s.hosted := rfl
@[simp] theorem State.verd_cur (s : State) (v : Verdict) : (s.verd v).cur = s.cur := rfl
@[simp] theorem State.verd_issue (s : State) (v : Verdict) : (s.verd v).issue = s.issue := rfl
@[simp] theorem State.verd_rest (s : State) (v : Verdict) : (s.verd v).rest = s.rest := rfl
@[simp] theorem State.verd_groups (s : State) (v : Verdict) : (s.verd v).groups = s.groups := rfl
@[simp] theorem State.verd_snaps (s : State) (v : Verdict) : (s.verd v).snaps = s.snaps := rfl
@[simp] theorem State.verd_teams (s : State) (v : Verdict) : (s.verd v).teams = s.teams := rfl
@[simp] theorem State.verd_launches (s : State) (v : Verdict) : (s.verd v).launches = s.launches := rfl
@[simp] theorem State.verd_emissions (s : State) (v : Verdict) : (s.verd v).emissions = s.emissions := rfl
@[simp] theorem State.verd_ops (s : State) (v : Verdict) : (s.verd v).ops = s.ops := rfl
@[simp] theorem State.verd_copies (s : State) (v : Verdict) : (s.verd v).copies = s.copies := rfl
@[simp] theorem State.verd_cores (s : State) (v : Verdict) : (s.verd v).cores = s.cores := rfl
@[simp] theorem State.verd_clusters (s : State) (v : Verdict) : (s.verd v).clusters = s.clusters := rfl
@[simp] theorem State.verd_segs (s : State) (v : Verdict) : (s.verd v).segs = s.segs := rfl
@[simp] theorem State.verd_l2 (s : State) (v : Verdict) : (s.verd v).l2 = s.l2 := rfl
@[simp] theorem State.verd_crypt (s : State) (v : Verdict) : (s.verd v).crypt = s.crypt := rfl
@[simp] theorem State.verd_dir (s : State) (v : Verdict) : (s.verd v).dir = s.dir := rfl
@[simp] theorem State.verd_invals (s : State) (v : Verdict) : (s.verd v).invals = s.invals := rfl
@[simp] theorem State.verd_mons (s : State) (v : Verdict) : (s.verd v).mons = s.mons := rfl
@[simp] theorem State.verd_refl (s : State) (v : Verdict) : (s.verd v).refl = s.refl := rfl
@[simp] theorem State.verd_merges (s : State) (v : Verdict) : (s.verd v).merges = s.merges := rfl
@[simp] theorem State.verd_halves (s : State) (v : Verdict) : (s.verd v).halves = s.halves := rfl
@[simp] theorem State.verd_deadNums (s : State) (v : Verdict) : (s.verd v).deadNums = s.deadNums := rfl
@[simp] theorem State.verd_locks (s : State) (v : Verdict) : (s.verd v).locks = s.locks := rfl
@[simp] theorem State.verd_ctxs (s : State) (v : Verdict) : (s.verd v).ctxs = s.ctxs := rfl
@[simp] theorem State.verd_parts (s : State) (v : Verdict) : (s.verd v).parts = s.parts := rfl
@[simp] theorem State.verd_queues (s : State) (v : Verdict) : (s.verd v).queues = s.queues := rfl
@[simp] theorem State.verd_tlb (s : State) (v : Verdict) : (s.verd v).tlb = s.tlb := rfl
@[simp] theorem State.verd_icache (s : State) (v : Verdict) : (s.verd v).icache = s.icache := rfl
@[simp] theorem State.verd_gens (s : State) (v : Verdict) : (s.verd v).gens = s.gens := rfl
@[simp] theorem State.verd_access (s : State) (v : Verdict) : (s.verd v).access = s.access := rfl
@[simp] theorem State.verd_apers (s : State) (v : Verdict) : (s.verd v).apers = s.apers := rfl
@[simp] theorem State.verd_exports (s : State) (v : Verdict) : (s.verd v).exports = s.exports := rfl
@[simp] theorem State.verd_keys (s : State) (v : Verdict) : (s.verd v).keys = s.keys := rfl
@[simp] theorem State.verd_boot (s : State) (v : Verdict) : (s.verd v).boot = s.boot := rfl
@[simp] theorem State.verd_fleet (s : State) (v : Verdict) : (s.verd v).fleet = s.fleet := rfl
@[simp] theorem State.verd_weights (s : State) (v : Verdict) : (s.verd v).weights = s.weights := rfl
@[simp] theorem State.verd_scale (s : State) (v : Verdict) : (s.verd v).scale = s.scale := rfl
@[simp] theorem State.verd_msix (s : State) (v : Verdict) : (s.verd v).msix = s.msix := rfl
@[simp] theorem State.verd_monlog (s : State) (v : Verdict) : (s.verd v).monlog = s.monlog := rfl
@[simp] theorem State.verd_mem (s : State) (v : Verdict) : (s.verd v).mem = s.mem := rfl

@[simp] theorem State.post_now (s : State) (dt : Nat) (e : Ev) : (s.post dt e).now = s.now := rfl
@[simp] theorem State.post_round (s : State) (dt : Nat) (e : Ev) : (s.post dt e).round = s.round := rfl
@[simp] theorem State.post_turn (s : State) (dt : Nat) (e : Ev) : (s.post dt e).turn = s.turn := rfl
@[simp] theorem State.post_ticket (s : State) (dt : Nat) (e : Ev) : (s.post dt e).ticket = s.ticket := rfl
@[simp] theorem State.post_hosted (s : State) (dt : Nat) (e : Ev) : (s.post dt e).hosted = s.hosted := rfl
@[simp] theorem State.post_cur (s : State) (dt : Nat) (e : Ev) : (s.post dt e).cur = s.cur := rfl
@[simp] theorem State.post_verdict (s : State) (dt : Nat) (e : Ev) : (s.post dt e).verdict = s.verdict := rfl
@[simp] theorem State.post_issue (s : State) (dt : Nat) (e : Ev) : (s.post dt e).issue = s.issue := rfl
@[simp] theorem State.post_rest (s : State) (dt : Nat) (e : Ev) : (s.post dt e).rest = s.rest := rfl
@[simp] theorem State.post_groups (s : State) (dt : Nat) (e : Ev) : (s.post dt e).groups = s.groups := rfl
@[simp] theorem State.post_snaps (s : State) (dt : Nat) (e : Ev) : (s.post dt e).snaps = s.snaps := rfl
@[simp] theorem State.post_teams (s : State) (dt : Nat) (e : Ev) : (s.post dt e).teams = s.teams := rfl
@[simp] theorem State.post_launches (s : State) (dt : Nat) (e : Ev) : (s.post dt e).launches = s.launches := rfl
@[simp] theorem State.post_emissions (s : State) (dt : Nat) (e : Ev) : (s.post dt e).emissions = s.emissions := rfl
@[simp] theorem State.post_ops (s : State) (dt : Nat) (e : Ev) : (s.post dt e).ops = s.ops := rfl
@[simp] theorem State.post_copies (s : State) (dt : Nat) (e : Ev) : (s.post dt e).copies = s.copies := rfl
@[simp] theorem State.post_cores (s : State) (dt : Nat) (e : Ev) : (s.post dt e).cores = s.cores := rfl
@[simp] theorem State.post_clusters (s : State) (dt : Nat) (e : Ev) : (s.post dt e).clusters = s.clusters := rfl
@[simp] theorem State.post_segs (s : State) (dt : Nat) (e : Ev) : (s.post dt e).segs = s.segs := rfl
@[simp] theorem State.post_l2 (s : State) (dt : Nat) (e : Ev) : (s.post dt e).l2 = s.l2 := rfl
@[simp] theorem State.post_crypt (s : State) (dt : Nat) (e : Ev) : (s.post dt e).crypt = s.crypt := rfl
@[simp] theorem State.post_dir (s : State) (dt : Nat) (e : Ev) : (s.post dt e).dir = s.dir := rfl
@[simp] theorem State.post_invals (s : State) (dt : Nat) (e : Ev) : (s.post dt e).invals = s.invals := rfl
@[simp] theorem State.post_mons (s : State) (dt : Nat) (e : Ev) : (s.post dt e).mons = s.mons := rfl
@[simp] theorem State.post_refl (s : State) (dt : Nat) (e : Ev) : (s.post dt e).refl = s.refl := rfl
@[simp] theorem State.post_merges (s : State) (dt : Nat) (e : Ev) : (s.post dt e).merges = s.merges := rfl
@[simp] theorem State.post_halves (s : State) (dt : Nat) (e : Ev) : (s.post dt e).halves = s.halves := rfl
@[simp] theorem State.post_deadNums (s : State) (dt : Nat) (e : Ev) : (s.post dt e).deadNums = s.deadNums := rfl
@[simp] theorem State.post_locks (s : State) (dt : Nat) (e : Ev) : (s.post dt e).locks = s.locks := rfl
@[simp] theorem State.post_ctxs (s : State) (dt : Nat) (e : Ev) : (s.post dt e).ctxs = s.ctxs := rfl
@[simp] theorem State.post_parts (s : State) (dt : Nat) (e : Ev) : (s.post dt e).parts = s.parts := rfl
@[simp] theorem State.post_queues (s : State) (dt : Nat) (e : Ev) : (s.post dt e).queues = s.queues := rfl
@[simp] theorem State.post_tlb (s : State) (dt : Nat) (e : Ev) : (s.post dt e).tlb = s.tlb := rfl
@[simp] theorem State.post_icache (s : State) (dt : Nat) (e : Ev) : (s.post dt e).icache = s.icache := rfl
@[simp] theorem State.post_gens (s : State) (dt : Nat) (e : Ev) : (s.post dt e).gens = s.gens := rfl
@[simp] theorem State.post_access (s : State) (dt : Nat) (e : Ev) : (s.post dt e).access = s.access := rfl
@[simp] theorem State.post_apers (s : State) (dt : Nat) (e : Ev) : (s.post dt e).apers = s.apers := rfl
@[simp] theorem State.post_exports (s : State) (dt : Nat) (e : Ev) : (s.post dt e).exports = s.exports := rfl
@[simp] theorem State.post_keys (s : State) (dt : Nat) (e : Ev) : (s.post dt e).keys = s.keys := rfl
@[simp] theorem State.post_boot (s : State) (dt : Nat) (e : Ev) : (s.post dt e).boot = s.boot := rfl
@[simp] theorem State.post_fleet (s : State) (dt : Nat) (e : Ev) : (s.post dt e).fleet = s.fleet := rfl
@[simp] theorem State.post_weights (s : State) (dt : Nat) (e : Ev) : (s.post dt e).weights = s.weights := rfl
@[simp] theorem State.post_scale (s : State) (dt : Nat) (e : Ev) : (s.post dt e).scale = s.scale := rfl
@[simp] theorem State.post_msix (s : State) (dt : Nat) (e : Ev) : (s.post dt e).msix = s.msix := rfl
@[simp] theorem State.post_monlog (s : State) (dt : Nat) (e : Ev) : (s.post dt e).monlog = s.monlog := rfl
@[simp] theorem State.post_mem (s : State) (dt : Nat) (e : Ev) : (s.post dt e).mem = s.mem := rfl

@[simp] theorem State.postAt_now (s : State) (k : Clock) (n : Nat) (e : Ev) : (s.postAt k n e).now = s.now := rfl
@[simp] theorem State.postAt_round (s : State) (k : Clock) (n : Nat) (e : Ev) : (s.postAt k n e).round = s.round := rfl
@[simp] theorem State.postAt_turn (s : State) (k : Clock) (n : Nat) (e : Ev) : (s.postAt k n e).turn = s.turn := rfl
@[simp] theorem State.postAt_ticket (s : State) (k : Clock) (n : Nat) (e : Ev) : (s.postAt k n e).ticket = s.ticket := rfl
@[simp] theorem State.postAt_hosted (s : State) (k : Clock) (n : Nat) (e : Ev) : (s.postAt k n e).hosted = s.hosted := rfl
@[simp] theorem State.postAt_cur (s : State) (k : Clock) (n : Nat) (e : Ev) : (s.postAt k n e).cur = s.cur := rfl
@[simp] theorem State.postAt_verdict (s : State) (k : Clock) (n : Nat) (e : Ev) : (s.postAt k n e).verdict = s.verdict := rfl
@[simp] theorem State.postAt_issue (s : State) (k : Clock) (n : Nat) (e : Ev) : (s.postAt k n e).issue = s.issue := rfl
@[simp] theorem State.postAt_rest (s : State) (k : Clock) (n : Nat) (e : Ev) : (s.postAt k n e).rest = s.rest := rfl
@[simp] theorem State.postAt_groups (s : State) (k : Clock) (n : Nat) (e : Ev) : (s.postAt k n e).groups = s.groups := rfl
@[simp] theorem State.postAt_snaps (s : State) (k : Clock) (n : Nat) (e : Ev) : (s.postAt k n e).snaps = s.snaps := rfl
@[simp] theorem State.postAt_teams (s : State) (k : Clock) (n : Nat) (e : Ev) : (s.postAt k n e).teams = s.teams := rfl
@[simp] theorem State.postAt_launches (s : State) (k : Clock) (n : Nat) (e : Ev) : (s.postAt k n e).launches = s.launches := rfl
@[simp] theorem State.postAt_emissions (s : State) (k : Clock) (n : Nat) (e : Ev) : (s.postAt k n e).emissions = s.emissions := rfl
@[simp] theorem State.postAt_ops (s : State) (k : Clock) (n : Nat) (e : Ev) : (s.postAt k n e).ops = s.ops := rfl
@[simp] theorem State.postAt_copies (s : State) (k : Clock) (n : Nat) (e : Ev) : (s.postAt k n e).copies = s.copies := rfl
@[simp] theorem State.postAt_cores (s : State) (k : Clock) (n : Nat) (e : Ev) : (s.postAt k n e).cores = s.cores := rfl
@[simp] theorem State.postAt_clusters (s : State) (k : Clock) (n : Nat) (e : Ev) : (s.postAt k n e).clusters = s.clusters := rfl
@[simp] theorem State.postAt_segs (s : State) (k : Clock) (n : Nat) (e : Ev) : (s.postAt k n e).segs = s.segs := rfl
@[simp] theorem State.postAt_l2 (s : State) (k : Clock) (n : Nat) (e : Ev) : (s.postAt k n e).l2 = s.l2 := rfl
@[simp] theorem State.postAt_crypt (s : State) (k : Clock) (n : Nat) (e : Ev) : (s.postAt k n e).crypt = s.crypt := rfl
@[simp] theorem State.postAt_dir (s : State) (k : Clock) (n : Nat) (e : Ev) : (s.postAt k n e).dir = s.dir := rfl
@[simp] theorem State.postAt_invals (s : State) (k : Clock) (n : Nat) (e : Ev) : (s.postAt k n e).invals = s.invals := rfl
@[simp] theorem State.postAt_mons (s : State) (k : Clock) (n : Nat) (e : Ev) : (s.postAt k n e).mons = s.mons := rfl
@[simp] theorem State.postAt_refl (s : State) (k : Clock) (n : Nat) (e : Ev) : (s.postAt k n e).refl = s.refl := rfl
@[simp] theorem State.postAt_merges (s : State) (k : Clock) (n : Nat) (e : Ev) : (s.postAt k n e).merges = s.merges := rfl
@[simp] theorem State.postAt_halves (s : State) (k : Clock) (n : Nat) (e : Ev) : (s.postAt k n e).halves = s.halves := rfl
@[simp] theorem State.postAt_deadNums (s : State) (k : Clock) (n : Nat) (e : Ev) : (s.postAt k n e).deadNums = s.deadNums := rfl
@[simp] theorem State.postAt_locks (s : State) (k : Clock) (n : Nat) (e : Ev) : (s.postAt k n e).locks = s.locks := rfl
@[simp] theorem State.postAt_ctxs (s : State) (k : Clock) (n : Nat) (e : Ev) : (s.postAt k n e).ctxs = s.ctxs := rfl
@[simp] theorem State.postAt_parts (s : State) (k : Clock) (n : Nat) (e : Ev) : (s.postAt k n e).parts = s.parts := rfl
@[simp] theorem State.postAt_queues (s : State) (k : Clock) (n : Nat) (e : Ev) : (s.postAt k n e).queues = s.queues := rfl
@[simp] theorem State.postAt_tlb (s : State) (k : Clock) (n : Nat) (e : Ev) : (s.postAt k n e).tlb = s.tlb := rfl
@[simp] theorem State.postAt_icache (s : State) (k : Clock) (n : Nat) (e : Ev) : (s.postAt k n e).icache = s.icache := rfl
@[simp] theorem State.postAt_gens (s : State) (k : Clock) (n : Nat) (e : Ev) : (s.postAt k n e).gens = s.gens := rfl
@[simp] theorem State.postAt_access (s : State) (k : Clock) (n : Nat) (e : Ev) : (s.postAt k n e).access = s.access := rfl
@[simp] theorem State.postAt_apers (s : State) (k : Clock) (n : Nat) (e : Ev) : (s.postAt k n e).apers = s.apers := rfl
@[simp] theorem State.postAt_exports (s : State) (k : Clock) (n : Nat) (e : Ev) : (s.postAt k n e).exports = s.exports := rfl
@[simp] theorem State.postAt_keys (s : State) (k : Clock) (n : Nat) (e : Ev) : (s.postAt k n e).keys = s.keys := rfl
@[simp] theorem State.postAt_boot (s : State) (k : Clock) (n : Nat) (e : Ev) : (s.postAt k n e).boot = s.boot := rfl
@[simp] theorem State.postAt_fleet (s : State) (k : Clock) (n : Nat) (e : Ev) : (s.postAt k n e).fleet = s.fleet := rfl
@[simp] theorem State.postAt_weights (s : State) (k : Clock) (n : Nat) (e : Ev) : (s.postAt k n e).weights = s.weights := rfl
@[simp] theorem State.postAt_scale (s : State) (k : Clock) (n : Nat) (e : Ev) : (s.postAt k n e).scale = s.scale := rfl
@[simp] theorem State.postAt_msix (s : State) (k : Clock) (n : Nat) (e : Ev) : (s.postAt k n e).msix = s.msix := rfl
@[simp] theorem State.postAt_monlog (s : State) (k : Clock) (n : Nat) (e : Ev) : (s.postAt k n e).monlog = s.monlog := rfl
@[simp] theorem State.postAt_mem (s : State) (k : Clock) (n : Nat) (e : Ev) : (s.postAt k n e).mem = s.mem := rfl

@[simp] theorem State.tick_now (s : State) : (s.tick).now = s.now := rfl
@[simp] theorem State.tick_round (s : State) : (s.tick).round = s.round := rfl
@[simp] theorem State.tick_turn (s : State) : (s.tick).turn = s.turn := rfl
@[simp] theorem State.tick_agenda (s : State) : (s.tick).agenda = s.agenda := rfl
@[simp] theorem State.tick_hosted (s : State) : (s.tick).hosted = s.hosted := rfl
@[simp] theorem State.tick_cur (s : State) : (s.tick).cur = s.cur := rfl
@[simp] theorem State.tick_verdict (s : State) : (s.tick).verdict = s.verdict := rfl
@[simp] theorem State.tick_issue (s : State) : (s.tick).issue = s.issue := rfl
@[simp] theorem State.tick_rest (s : State) : (s.tick).rest = s.rest := rfl
@[simp] theorem State.tick_groups (s : State) : (s.tick).groups = s.groups := rfl
@[simp] theorem State.tick_snaps (s : State) : (s.tick).snaps = s.snaps := rfl
@[simp] theorem State.tick_teams (s : State) : (s.tick).teams = s.teams := rfl
@[simp] theorem State.tick_launches (s : State) : (s.tick).launches = s.launches := rfl
@[simp] theorem State.tick_emissions (s : State) : (s.tick).emissions = s.emissions := rfl
@[simp] theorem State.tick_ops (s : State) : (s.tick).ops = s.ops := rfl
@[simp] theorem State.tick_copies (s : State) : (s.tick).copies = s.copies := rfl
@[simp] theorem State.tick_cores (s : State) : (s.tick).cores = s.cores := rfl
@[simp] theorem State.tick_clusters (s : State) : (s.tick).clusters = s.clusters := rfl
@[simp] theorem State.tick_segs (s : State) : (s.tick).segs = s.segs := rfl
@[simp] theorem State.tick_l2 (s : State) : (s.tick).l2 = s.l2 := rfl
@[simp] theorem State.tick_crypt (s : State) : (s.tick).crypt = s.crypt := rfl
@[simp] theorem State.tick_dir (s : State) : (s.tick).dir = s.dir := rfl
@[simp] theorem State.tick_invals (s : State) : (s.tick).invals = s.invals := rfl
@[simp] theorem State.tick_mons (s : State) : (s.tick).mons = s.mons := rfl
@[simp] theorem State.tick_refl (s : State) : (s.tick).refl = s.refl := rfl
@[simp] theorem State.tick_merges (s : State) : (s.tick).merges = s.merges := rfl
@[simp] theorem State.tick_halves (s : State) : (s.tick).halves = s.halves := rfl
@[simp] theorem State.tick_deadNums (s : State) : (s.tick).deadNums = s.deadNums := rfl
@[simp] theorem State.tick_locks (s : State) : (s.tick).locks = s.locks := rfl
@[simp] theorem State.tick_ctxs (s : State) : (s.tick).ctxs = s.ctxs := rfl
@[simp] theorem State.tick_parts (s : State) : (s.tick).parts = s.parts := rfl
@[simp] theorem State.tick_queues (s : State) : (s.tick).queues = s.queues := rfl
@[simp] theorem State.tick_tlb (s : State) : (s.tick).tlb = s.tlb := rfl
@[simp] theorem State.tick_icache (s : State) : (s.tick).icache = s.icache := rfl
@[simp] theorem State.tick_gens (s : State) : (s.tick).gens = s.gens := rfl
@[simp] theorem State.tick_access (s : State) : (s.tick).access = s.access := rfl
@[simp] theorem State.tick_apers (s : State) : (s.tick).apers = s.apers := rfl
@[simp] theorem State.tick_exports (s : State) : (s.tick).exports = s.exports := rfl
@[simp] theorem State.tick_keys (s : State) : (s.tick).keys = s.keys := rfl
@[simp] theorem State.tick_boot (s : State) : (s.tick).boot = s.boot := rfl
@[simp] theorem State.tick_fleet (s : State) : (s.tick).fleet = s.fleet := rfl
@[simp] theorem State.tick_weights (s : State) : (s.tick).weights = s.weights := rfl
@[simp] theorem State.tick_scale (s : State) : (s.tick).scale = s.scale := rfl
@[simp] theorem State.tick_msix (s : State) : (s.tick).msix = s.msix := rfl
@[simp] theorem State.tick_monlog (s : State) : (s.tick).monlog = s.monlog := rfl
@[simp] theorem State.tick_mem (s : State) : (s.tick).mem = s.mem := rfl

/-! ### What an update leaves where it writes -/

@[simp] theorem State.verd_verdict (s : State) (v : Verdict) : (s.verd v).verdict = v := rfl
@[simp] theorem State.post_agenda (s : State) (dt : Nat) (e : Ev) : (s.post dt e).agenda = s.agenda ++ [({ tick := s.now + dt, cyc := none }, e)] := rfl
@[simp] theorem State.postAt_agenda (s : State) (k : Clock) (n : Nat) (e : Ev) :
    (s.postAt k n e).agenda = s.agenda ++ [({ tick := s.tickOf k n, cyc := some (k, n) }, e)] := rfl
@[simp] theorem State.tick_ticket (s : State) : (s.tick).ticket = s.ticket + 1 := rfl
@[simp] theorem State.setGrp_grp (s : State) (i : Nat) (g : Group) : (s.setGrp i g).grp i = g := by simp [State.grp, State.setGrp]
theorem State.setGrp_grp_ne (s : State) {i j : Nat} (g : Group) (h : j ≠ i) : (s.setGrp i g).grp j = s.grp j := by
  simp [State.grp, State.setGrp, SMap.getD_set_ne _ _ _ h]
@[simp] theorem State.setG_g (s : State) (g : Group) : (s.setG g).g = g := s.setGrp_grp s.cur g
@[simp] theorem State.modG_g (s : State) (f : Group → Group) : (s.modG f).g = f s.g := s.setG_g _
@[simp] theorem State.setTeam_team (s : State) (t : Nat) (x : Team) : (s.setTeam t x).team t = x := by simp [State.team, State.setTeam]
@[simp] theorem State.setCore_core (s : State) (k : Nat) (c : CoreSt) : (s.setCore k c).core k = c := by simp [State.core, State.setCore]
@[simp] theorem State.setCluster_cluster (s : State) (k : Nat) (c : ClusterSt) : (s.setCluster k c).cluster k = c := by
  simp [State.cluster, State.setCluster]

/-! ### Groups -/

@[simp] theorem Group.setVReg_team (g : Group) (n : Nat) (r : VReg) : (g.setVReg n r).team = g.team := rfl
@[simp] theorem Group.setVReg_gnum (g : Group) (n : Nat) (r : VReg) : (g.setVReg n r).gnum = g.gnum := rfl
@[simp] theorem Group.setVReg_facet (g : Group) (n : Nat) (r : VReg) : (g.setVReg n r).facet = g.facet := rfl
@[simp] theorem Group.setVReg_cluster (g : Group) (n : Nat) (r : VReg) : (g.setVReg n r).cluster = g.cluster := rfl
@[simp] theorem Group.setVReg_core (g : Group) (n : Nat) (r : VReg) : (g.setVReg n r).core = g.core := rfl
@[simp] theorem Group.setVReg_subc (g : Group) (n : Nat) (r : VReg) : (g.setVReg n r).subc = g.subc := rfl
@[simp] theorem Group.setVReg_role (g : Group) (n : Nat) (r : VReg) : (g.setVReg n r).role = g.role := rfl
@[simp] theorem Group.setVReg_slot (g : Group) (n : Nat) (r : VReg) : (g.setVReg n r).slot = g.slot := rfl
@[simp] theorem Group.setVReg_dispTick (g : Group) (n : Nat) (r : VReg) : (g.setVReg n r).dispTick = g.dispTick := rfl
@[simp] theorem Group.setVReg_base (g : Group) (n : Nat) (r : VReg) : (g.setVReg n r).base = g.base := rfl
@[simp] theorem Group.setVReg_s (g : Group) (n : Nat) (r : VReg) : (g.setVReg n r).s = g.s := rfl
@[simp] theorem Group.setVReg_em (g : Group) (n : Nat) (r : VReg) : (g.setVReg n r).em = g.em := rfl
@[simp] theorem Group.setVReg_x (g : Group) (n : Nat) (r : VReg) : (g.setVReg n r).x = g.x := rfl
@[simp] theorem Group.setVReg_pos (g : Group) (n : Nat) (r : VReg) : (g.setVReg n r).pos = g.pos := rfl
@[simp] theorem Group.setVReg_stack (g : Group) (n : Nat) (r : VReg) : (g.setVReg n r).stack = g.stack := rfl
@[simp] theorem Group.setVReg_icount (g : Group) (n : Nat) (r : VReg) : (g.setVReg n r).icount = g.icount := rfl
@[simp] theorem Group.setVReg_held (g : Group) (n : Nat) (r : VReg) : (g.setVReg n r).held = g.held := rfl
@[simp] theorem Group.setVReg_xnum (g : Group) (n : Nat) (r : VReg) : (g.setVReg n r).xnum = g.xnum := rfl
@[simp] theorem Group.setVReg_xchg (g : Group) (n : Nat) (r : VReg) : (g.setVReg n r).xchg = g.xchg := rfl
@[simp] theorem Group.setVReg_csr (g : Group) (n : Nat) (r : VReg) : (g.setVReg n r).csr = g.csr := rfl
@[simp] theorem Group.setVReg_deferred (g : Group) (n : Nat) (r : VReg) : (g.setVReg n r).deferred = g.deferred := rfl
@[simp] theorem Group.setVReg_loopBuf (g : Group) (n : Nat) (r : VReg) : (g.setVReg n r).loopBuf = g.loopBuf := rfl
@[simp] theorem Group.setVReg_block (g : Group) (n : Nat) (r : VReg) : (g.setVReg n r).block = g.block := rfl
@[simp] theorem Group.setVReg_clear (g : Group) (n : Nat) (r : VReg) : (g.setVReg n r).clear = g.clear := rfl
@[simp] theorem Group.setVReg_drain (g : Group) (n : Nat) (r : VReg) : (g.setVReg n r).drain = g.drain := rfl
@[simp] theorem Group.setVReg_retired (g : Group) (n : Nat) (r : VReg) : (g.setVReg n r).retired = g.retired := rfl
@[simp] theorem Group.setVReg_stopped (g : Group) (n : Nat) (r : VReg) : (g.setVReg n r).stopped = g.stopped := rfl
@[simp] theorem Group.setVReg_yielded (g : Group) (n : Nat) (r : VReg) : (g.setVReg n r).yielded = g.yielded := rfl
@[simp] theorem Group.setVReg_wake (g : Group) (n : Nat) (r : VReg) : (g.setVReg n r).wake = g.wake := rfl
@[simp] theorem Group.setVReg_path (g : Group) (n : Nat) (r : VReg) : (g.setVReg n r).path = g.path := rfl
@[simp] theorem Group.setVReg_sig (g : Group) (n : Nat) (r : VReg) : (g.setVReg n r).sig = g.sig := rfl
@[simp] theorem Group.setVReg_pend (g : Group) (n : Nat) (r : VReg) : (g.setVReg n r).pend = g.pend := rfl

@[simp] theorem Group.setSReg_team (g : Group) (n : Nat) (r : SReg) : (g.setSReg n r).team = g.team := rfl
@[simp] theorem Group.setSReg_gnum (g : Group) (n : Nat) (r : SReg) : (g.setSReg n r).gnum = g.gnum := rfl
@[simp] theorem Group.setSReg_facet (g : Group) (n : Nat) (r : SReg) : (g.setSReg n r).facet = g.facet := rfl
@[simp] theorem Group.setSReg_cluster (g : Group) (n : Nat) (r : SReg) : (g.setSReg n r).cluster = g.cluster := rfl
@[simp] theorem Group.setSReg_core (g : Group) (n : Nat) (r : SReg) : (g.setSReg n r).core = g.core := rfl
@[simp] theorem Group.setSReg_subc (g : Group) (n : Nat) (r : SReg) : (g.setSReg n r).subc = g.subc := rfl
@[simp] theorem Group.setSReg_role (g : Group) (n : Nat) (r : SReg) : (g.setSReg n r).role = g.role := rfl
@[simp] theorem Group.setSReg_slot (g : Group) (n : Nat) (r : SReg) : (g.setSReg n r).slot = g.slot := rfl
@[simp] theorem Group.setSReg_dispTick (g : Group) (n : Nat) (r : SReg) : (g.setSReg n r).dispTick = g.dispTick := rfl
@[simp] theorem Group.setSReg_base (g : Group) (n : Nat) (r : SReg) : (g.setSReg n r).base = g.base := rfl
@[simp] theorem Group.setSReg_v (g : Group) (n : Nat) (r : SReg) : (g.setSReg n r).v = g.v := rfl
@[simp] theorem Group.setSReg_em (g : Group) (n : Nat) (r : SReg) : (g.setSReg n r).em = g.em := rfl
@[simp] theorem Group.setSReg_x (g : Group) (n : Nat) (r : SReg) : (g.setSReg n r).x = g.x := rfl
@[simp] theorem Group.setSReg_pos (g : Group) (n : Nat) (r : SReg) : (g.setSReg n r).pos = g.pos := rfl
@[simp] theorem Group.setSReg_stack (g : Group) (n : Nat) (r : SReg) : (g.setSReg n r).stack = g.stack := rfl
@[simp] theorem Group.setSReg_icount (g : Group) (n : Nat) (r : SReg) : (g.setSReg n r).icount = g.icount := rfl
@[simp] theorem Group.setSReg_held (g : Group) (n : Nat) (r : SReg) : (g.setSReg n r).held = g.held := rfl
@[simp] theorem Group.setSReg_xnum (g : Group) (n : Nat) (r : SReg) : (g.setSReg n r).xnum = g.xnum := rfl
@[simp] theorem Group.setSReg_xchg (g : Group) (n : Nat) (r : SReg) : (g.setSReg n r).xchg = g.xchg := rfl
@[simp] theorem Group.setSReg_csr (g : Group) (n : Nat) (r : SReg) : (g.setSReg n r).csr = g.csr := rfl
@[simp] theorem Group.setSReg_deferred (g : Group) (n : Nat) (r : SReg) : (g.setSReg n r).deferred = g.deferred := rfl
@[simp] theorem Group.setSReg_loopBuf (g : Group) (n : Nat) (r : SReg) : (g.setSReg n r).loopBuf = g.loopBuf := rfl
@[simp] theorem Group.setSReg_block (g : Group) (n : Nat) (r : SReg) : (g.setSReg n r).block = g.block := rfl
@[simp] theorem Group.setSReg_clear (g : Group) (n : Nat) (r : SReg) : (g.setSReg n r).clear = g.clear := rfl
@[simp] theorem Group.setSReg_drain (g : Group) (n : Nat) (r : SReg) : (g.setSReg n r).drain = g.drain := rfl
@[simp] theorem Group.setSReg_retired (g : Group) (n : Nat) (r : SReg) : (g.setSReg n r).retired = g.retired := rfl
@[simp] theorem Group.setSReg_stopped (g : Group) (n : Nat) (r : SReg) : (g.setSReg n r).stopped = g.stopped := rfl
@[simp] theorem Group.setSReg_yielded (g : Group) (n : Nat) (r : SReg) : (g.setSReg n r).yielded = g.yielded := rfl
@[simp] theorem Group.setSReg_wake (g : Group) (n : Nat) (r : SReg) : (g.setSReg n r).wake = g.wake := rfl
@[simp] theorem Group.setSReg_path (g : Group) (n : Nat) (r : SReg) : (g.setSReg n r).path = g.path := rfl
@[simp] theorem Group.setSReg_sig (g : Group) (n : Nat) (r : SReg) : (g.setSReg n r).sig = g.sig := rfl
@[simp] theorem Group.setSReg_pend (g : Group) (n : Nat) (r : SReg) : (g.setSReg n r).pend = g.pend := rfl

@[simp] theorem Group.wrS_team (g : Group) (d : Nat) (x : Word) : (g.wrS d x).team = g.team := rfl
@[simp] theorem Group.wrS_gnum (g : Group) (d : Nat) (x : Word) : (g.wrS d x).gnum = g.gnum := rfl
@[simp] theorem Group.wrS_facet (g : Group) (d : Nat) (x : Word) : (g.wrS d x).facet = g.facet := rfl
@[simp] theorem Group.wrS_cluster (g : Group) (d : Nat) (x : Word) : (g.wrS d x).cluster = g.cluster := rfl
@[simp] theorem Group.wrS_core (g : Group) (d : Nat) (x : Word) : (g.wrS d x).core = g.core := rfl
@[simp] theorem Group.wrS_subc (g : Group) (d : Nat) (x : Word) : (g.wrS d x).subc = g.subc := rfl
@[simp] theorem Group.wrS_role (g : Group) (d : Nat) (x : Word) : (g.wrS d x).role = g.role := rfl
@[simp] theorem Group.wrS_slot (g : Group) (d : Nat) (x : Word) : (g.wrS d x).slot = g.slot := rfl
@[simp] theorem Group.wrS_dispTick (g : Group) (d : Nat) (x : Word) : (g.wrS d x).dispTick = g.dispTick := rfl
@[simp] theorem Group.wrS_base (g : Group) (d : Nat) (x : Word) : (g.wrS d x).base = g.base := rfl
@[simp] theorem Group.wrS_v (g : Group) (d : Nat) (x : Word) : (g.wrS d x).v = g.v := rfl
@[simp] theorem Group.wrS_em (g : Group) (d : Nat) (x : Word) : (g.wrS d x).em = g.em := rfl
@[simp] theorem Group.wrS_x (g : Group) (d : Nat) (x : Word) : (g.wrS d x).x = g.x := rfl
@[simp] theorem Group.wrS_pos (g : Group) (d : Nat) (x : Word) : (g.wrS d x).pos = g.pos := rfl
@[simp] theorem Group.wrS_stack (g : Group) (d : Nat) (x : Word) : (g.wrS d x).stack = g.stack := rfl
@[simp] theorem Group.wrS_icount (g : Group) (d : Nat) (x : Word) : (g.wrS d x).icount = g.icount := rfl
@[simp] theorem Group.wrS_held (g : Group) (d : Nat) (x : Word) : (g.wrS d x).held = g.held := rfl
@[simp] theorem Group.wrS_xnum (g : Group) (d : Nat) (x : Word) : (g.wrS d x).xnum = g.xnum := rfl
@[simp] theorem Group.wrS_xchg (g : Group) (d : Nat) (x : Word) : (g.wrS d x).xchg = g.xchg := rfl
@[simp] theorem Group.wrS_csr (g : Group) (d : Nat) (x : Word) : (g.wrS d x).csr = g.csr := rfl
@[simp] theorem Group.wrS_deferred (g : Group) (d : Nat) (x : Word) : (g.wrS d x).deferred = g.deferred := rfl
@[simp] theorem Group.wrS_loopBuf (g : Group) (d : Nat) (x : Word) : (g.wrS d x).loopBuf = g.loopBuf := rfl
@[simp] theorem Group.wrS_block (g : Group) (d : Nat) (x : Word) : (g.wrS d x).block = g.block := rfl
@[simp] theorem Group.wrS_clear (g : Group) (d : Nat) (x : Word) : (g.wrS d x).clear = g.clear := rfl
@[simp] theorem Group.wrS_drain (g : Group) (d : Nat) (x : Word) : (g.wrS d x).drain = g.drain := rfl
@[simp] theorem Group.wrS_retired (g : Group) (d : Nat) (x : Word) : (g.wrS d x).retired = g.retired := rfl
@[simp] theorem Group.wrS_stopped (g : Group) (d : Nat) (x : Word) : (g.wrS d x).stopped = g.stopped := rfl
@[simp] theorem Group.wrS_yielded (g : Group) (d : Nat) (x : Word) : (g.wrS d x).yielded = g.yielded := rfl
@[simp] theorem Group.wrS_wake (g : Group) (d : Nat) (x : Word) : (g.wrS d x).wake = g.wake := rfl
@[simp] theorem Group.wrS_path (g : Group) (d : Nat) (x : Word) : (g.wrS d x).path = g.path := rfl
@[simp] theorem Group.wrS_sig (g : Group) (d : Nat) (x : Word) : (g.wrS d x).sig = g.sig := rfl
@[simp] theorem Group.wrS_pend (g : Group) (d : Nat) (x : Word) : (g.wrS d x).pend = g.pend := rfl

@[simp] theorem Group.wrV_team (g : Group) (d : Nat) (t : Tag) (m : Word) (f : Nat → Word) : (g.wrV d t m f).team = g.team := rfl
@[simp] theorem Group.wrV_gnum (g : Group) (d : Nat) (t : Tag) (m : Word) (f : Nat → Word) : (g.wrV d t m f).gnum = g.gnum := rfl
@[simp] theorem Group.wrV_facet (g : Group) (d : Nat) (t : Tag) (m : Word) (f : Nat → Word) : (g.wrV d t m f).facet = g.facet := rfl
@[simp] theorem Group.wrV_cluster (g : Group) (d : Nat) (t : Tag) (m : Word) (f : Nat → Word) : (g.wrV d t m f).cluster = g.cluster := rfl
@[simp] theorem Group.wrV_core (g : Group) (d : Nat) (t : Tag) (m : Word) (f : Nat → Word) : (g.wrV d t m f).core = g.core := rfl
@[simp] theorem Group.wrV_subc (g : Group) (d : Nat) (t : Tag) (m : Word) (f : Nat → Word) : (g.wrV d t m f).subc = g.subc := rfl
@[simp] theorem Group.wrV_role (g : Group) (d : Nat) (t : Tag) (m : Word) (f : Nat → Word) : (g.wrV d t m f).role = g.role := rfl
@[simp] theorem Group.wrV_slot (g : Group) (d : Nat) (t : Tag) (m : Word) (f : Nat → Word) : (g.wrV d t m f).slot = g.slot := rfl
@[simp] theorem Group.wrV_dispTick (g : Group) (d : Nat) (t : Tag) (m : Word) (f : Nat → Word) : (g.wrV d t m f).dispTick = g.dispTick := rfl
@[simp] theorem Group.wrV_base (g : Group) (d : Nat) (t : Tag) (m : Word) (f : Nat → Word) : (g.wrV d t m f).base = g.base := rfl
@[simp] theorem Group.wrV_s (g : Group) (d : Nat) (t : Tag) (m : Word) (f : Nat → Word) : (g.wrV d t m f).s = g.s := rfl
@[simp] theorem Group.wrV_em (g : Group) (d : Nat) (t : Tag) (m : Word) (f : Nat → Word) : (g.wrV d t m f).em = g.em := rfl
@[simp] theorem Group.wrV_x (g : Group) (d : Nat) (t : Tag) (m : Word) (f : Nat → Word) : (g.wrV d t m f).x = g.x := rfl
@[simp] theorem Group.wrV_pos (g : Group) (d : Nat) (t : Tag) (m : Word) (f : Nat → Word) : (g.wrV d t m f).pos = g.pos := rfl
@[simp] theorem Group.wrV_stack (g : Group) (d : Nat) (t : Tag) (m : Word) (f : Nat → Word) : (g.wrV d t m f).stack = g.stack := rfl
@[simp] theorem Group.wrV_icount (g : Group) (d : Nat) (t : Tag) (m : Word) (f : Nat → Word) : (g.wrV d t m f).icount = g.icount := rfl
@[simp] theorem Group.wrV_held (g : Group) (d : Nat) (t : Tag) (m : Word) (f : Nat → Word) : (g.wrV d t m f).held = g.held := rfl
@[simp] theorem Group.wrV_xnum (g : Group) (d : Nat) (t : Tag) (m : Word) (f : Nat → Word) : (g.wrV d t m f).xnum = g.xnum := rfl
@[simp] theorem Group.wrV_xchg (g : Group) (d : Nat) (t : Tag) (m : Word) (f : Nat → Word) : (g.wrV d t m f).xchg = g.xchg := rfl
@[simp] theorem Group.wrV_csr (g : Group) (d : Nat) (t : Tag) (m : Word) (f : Nat → Word) : (g.wrV d t m f).csr = g.csr := rfl
@[simp] theorem Group.wrV_deferred (g : Group) (d : Nat) (t : Tag) (m : Word) (f : Nat → Word) : (g.wrV d t m f).deferred = g.deferred := rfl
@[simp] theorem Group.wrV_loopBuf (g : Group) (d : Nat) (t : Tag) (m : Word) (f : Nat → Word) : (g.wrV d t m f).loopBuf = g.loopBuf := rfl
@[simp] theorem Group.wrV_block (g : Group) (d : Nat) (t : Tag) (m : Word) (f : Nat → Word) : (g.wrV d t m f).block = g.block := rfl
@[simp] theorem Group.wrV_clear (g : Group) (d : Nat) (t : Tag) (m : Word) (f : Nat → Word) : (g.wrV d t m f).clear = g.clear := rfl
@[simp] theorem Group.wrV_drain (g : Group) (d : Nat) (t : Tag) (m : Word) (f : Nat → Word) : (g.wrV d t m f).drain = g.drain := rfl
@[simp] theorem Group.wrV_retired (g : Group) (d : Nat) (t : Tag) (m : Word) (f : Nat → Word) : (g.wrV d t m f).retired = g.retired := rfl
@[simp] theorem Group.wrV_stopped (g : Group) (d : Nat) (t : Tag) (m : Word) (f : Nat → Word) : (g.wrV d t m f).stopped = g.stopped := rfl
@[simp] theorem Group.wrV_yielded (g : Group) (d : Nat) (t : Tag) (m : Word) (f : Nat → Word) : (g.wrV d t m f).yielded = g.yielded := rfl
@[simp] theorem Group.wrV_wake (g : Group) (d : Nat) (t : Tag) (m : Word) (f : Nat → Word) : (g.wrV d t m f).wake = g.wake := rfl
@[simp] theorem Group.wrV_path (g : Group) (d : Nat) (t : Tag) (m : Word) (f : Nat → Word) : (g.wrV d t m f).path = g.path := rfl
@[simp] theorem Group.wrV_sig (g : Group) (d : Nat) (t : Tag) (m : Word) (f : Nat → Word) : (g.wrV d t m f).sig = g.sig := rfl
@[simp] theorem Group.wrV_pend (g : Group) (d : Nat) (t : Tag) (m : Word) (f : Nat → Word) : (g.wrV d t m f).pend = g.pend := rfl

@[simp] theorem Group.emptyV_team (g : Group) (d : Nat) (t : Tag) : (g.emptyV d t).team = g.team := rfl
@[simp] theorem Group.emptyV_gnum (g : Group) (d : Nat) (t : Tag) : (g.emptyV d t).gnum = g.gnum := rfl
@[simp] theorem Group.emptyV_facet (g : Group) (d : Nat) (t : Tag) : (g.emptyV d t).facet = g.facet := rfl
@[simp] theorem Group.emptyV_cluster (g : Group) (d : Nat) (t : Tag) : (g.emptyV d t).cluster = g.cluster := rfl
@[simp] theorem Group.emptyV_core (g : Group) (d : Nat) (t : Tag) : (g.emptyV d t).core = g.core := rfl
@[simp] theorem Group.emptyV_subc (g : Group) (d : Nat) (t : Tag) : (g.emptyV d t).subc = g.subc := rfl
@[simp] theorem Group.emptyV_role (g : Group) (d : Nat) (t : Tag) : (g.emptyV d t).role = g.role := rfl
@[simp] theorem Group.emptyV_slot (g : Group) (d : Nat) (t : Tag) : (g.emptyV d t).slot = g.slot := rfl
@[simp] theorem Group.emptyV_dispTick (g : Group) (d : Nat) (t : Tag) : (g.emptyV d t).dispTick = g.dispTick := rfl
@[simp] theorem Group.emptyV_base (g : Group) (d : Nat) (t : Tag) : (g.emptyV d t).base = g.base := rfl
@[simp] theorem Group.emptyV_s (g : Group) (d : Nat) (t : Tag) : (g.emptyV d t).s = g.s := rfl
@[simp] theorem Group.emptyV_em (g : Group) (d : Nat) (t : Tag) : (g.emptyV d t).em = g.em := rfl
@[simp] theorem Group.emptyV_x (g : Group) (d : Nat) (t : Tag) : (g.emptyV d t).x = g.x := rfl
@[simp] theorem Group.emptyV_pos (g : Group) (d : Nat) (t : Tag) : (g.emptyV d t).pos = g.pos := rfl
@[simp] theorem Group.emptyV_stack (g : Group) (d : Nat) (t : Tag) : (g.emptyV d t).stack = g.stack := rfl
@[simp] theorem Group.emptyV_icount (g : Group) (d : Nat) (t : Tag) : (g.emptyV d t).icount = g.icount := rfl
@[simp] theorem Group.emptyV_held (g : Group) (d : Nat) (t : Tag) : (g.emptyV d t).held = g.held := rfl
@[simp] theorem Group.emptyV_xnum (g : Group) (d : Nat) (t : Tag) : (g.emptyV d t).xnum = g.xnum := rfl
@[simp] theorem Group.emptyV_xchg (g : Group) (d : Nat) (t : Tag) : (g.emptyV d t).xchg = g.xchg := rfl
@[simp] theorem Group.emptyV_csr (g : Group) (d : Nat) (t : Tag) : (g.emptyV d t).csr = g.csr := rfl
@[simp] theorem Group.emptyV_deferred (g : Group) (d : Nat) (t : Tag) : (g.emptyV d t).deferred = g.deferred := rfl
@[simp] theorem Group.emptyV_loopBuf (g : Group) (d : Nat) (t : Tag) : (g.emptyV d t).loopBuf = g.loopBuf := rfl
@[simp] theorem Group.emptyV_block (g : Group) (d : Nat) (t : Tag) : (g.emptyV d t).block = g.block := rfl
@[simp] theorem Group.emptyV_clear (g : Group) (d : Nat) (t : Tag) : (g.emptyV d t).clear = g.clear := rfl
@[simp] theorem Group.emptyV_drain (g : Group) (d : Nat) (t : Tag) : (g.emptyV d t).drain = g.drain := rfl
@[simp] theorem Group.emptyV_retired (g : Group) (d : Nat) (t : Tag) : (g.emptyV d t).retired = g.retired := rfl
@[simp] theorem Group.emptyV_stopped (g : Group) (d : Nat) (t : Tag) : (g.emptyV d t).stopped = g.stopped := rfl
@[simp] theorem Group.emptyV_yielded (g : Group) (d : Nat) (t : Tag) : (g.emptyV d t).yielded = g.yielded := rfl
@[simp] theorem Group.emptyV_wake (g : Group) (d : Nat) (t : Tag) : (g.emptyV d t).wake = g.wake := rfl
@[simp] theorem Group.emptyV_path (g : Group) (d : Nat) (t : Tag) : (g.emptyV d t).path = g.path := rfl
@[simp] theorem Group.emptyV_sig (g : Group) (d : Nat) (t : Tag) : (g.emptyV d t).sig = g.sig := rfl
@[simp] theorem Group.emptyV_pend (g : Group) (d : Nat) (t : Tag) : (g.emptyV d t).pend = g.pend := rfl

@[simp] theorem Group.emptyS_team (g : Group) (d : Nat) : (g.emptyS d).team = g.team := rfl
@[simp] theorem Group.emptyS_gnum (g : Group) (d : Nat) : (g.emptyS d).gnum = g.gnum := rfl
@[simp] theorem Group.emptyS_facet (g : Group) (d : Nat) : (g.emptyS d).facet = g.facet := rfl
@[simp] theorem Group.emptyS_cluster (g : Group) (d : Nat) : (g.emptyS d).cluster = g.cluster := rfl
@[simp] theorem Group.emptyS_core (g : Group) (d : Nat) : (g.emptyS d).core = g.core := rfl
@[simp] theorem Group.emptyS_subc (g : Group) (d : Nat) : (g.emptyS d).subc = g.subc := rfl
@[simp] theorem Group.emptyS_role (g : Group) (d : Nat) : (g.emptyS d).role = g.role := rfl
@[simp] theorem Group.emptyS_slot (g : Group) (d : Nat) : (g.emptyS d).slot = g.slot := rfl
@[simp] theorem Group.emptyS_dispTick (g : Group) (d : Nat) : (g.emptyS d).dispTick = g.dispTick := rfl
@[simp] theorem Group.emptyS_base (g : Group) (d : Nat) : (g.emptyS d).base = g.base := rfl
@[simp] theorem Group.emptyS_v (g : Group) (d : Nat) : (g.emptyS d).v = g.v := rfl
@[simp] theorem Group.emptyS_em (g : Group) (d : Nat) : (g.emptyS d).em = g.em := rfl
@[simp] theorem Group.emptyS_x (g : Group) (d : Nat) : (g.emptyS d).x = g.x := rfl
@[simp] theorem Group.emptyS_pos (g : Group) (d : Nat) : (g.emptyS d).pos = g.pos := rfl
@[simp] theorem Group.emptyS_stack (g : Group) (d : Nat) : (g.emptyS d).stack = g.stack := rfl
@[simp] theorem Group.emptyS_icount (g : Group) (d : Nat) : (g.emptyS d).icount = g.icount := rfl
@[simp] theorem Group.emptyS_held (g : Group) (d : Nat) : (g.emptyS d).held = g.held := rfl
@[simp] theorem Group.emptyS_xnum (g : Group) (d : Nat) : (g.emptyS d).xnum = g.xnum := rfl
@[simp] theorem Group.emptyS_xchg (g : Group) (d : Nat) : (g.emptyS d).xchg = g.xchg := rfl
@[simp] theorem Group.emptyS_csr (g : Group) (d : Nat) : (g.emptyS d).csr = g.csr := rfl
@[simp] theorem Group.emptyS_deferred (g : Group) (d : Nat) : (g.emptyS d).deferred = g.deferred := rfl
@[simp] theorem Group.emptyS_loopBuf (g : Group) (d : Nat) : (g.emptyS d).loopBuf = g.loopBuf := rfl
@[simp] theorem Group.emptyS_block (g : Group) (d : Nat) : (g.emptyS d).block = g.block := rfl
@[simp] theorem Group.emptyS_clear (g : Group) (d : Nat) : (g.emptyS d).clear = g.clear := rfl
@[simp] theorem Group.emptyS_drain (g : Group) (d : Nat) : (g.emptyS d).drain = g.drain := rfl
@[simp] theorem Group.emptyS_retired (g : Group) (d : Nat) : (g.emptyS d).retired = g.retired := rfl
@[simp] theorem Group.emptyS_stopped (g : Group) (d : Nat) : (g.emptyS d).stopped = g.stopped := rfl
@[simp] theorem Group.emptyS_yielded (g : Group) (d : Nat) : (g.emptyS d).yielded = g.yielded := rfl
@[simp] theorem Group.emptyS_wake (g : Group) (d : Nat) : (g.emptyS d).wake = g.wake := rfl
@[simp] theorem Group.emptyS_path (g : Group) (d : Nat) : (g.emptyS d).path = g.path := rfl
@[simp] theorem Group.emptyS_sig (g : Group) (d : Nat) : (g.emptyS d).sig = g.sig := rfl
@[simp] theorem Group.emptyS_pend (g : Group) (d : Nat) : (g.emptyS d).pend = g.pend := rfl

end Sys2Proof.Machine
end

