-- ==== Sys2Proof/Laws/Steps.lean ====
section
/-! SUPPORT. What a step of the device can do, said once, and the canonical form of memory under the operations that copy, scrub and write
lists of numbers. -/

namespace Sys2Proof.Machine

/-! ### Steps of the device -/

/-- A step of the device always answers a next state: nothing of it where its subject is gone, nothing yet where its time has not
come, its effect otherwise. -/
theorem evStep_cases (live ready : Bool) (eff : State → State) (s : State) :
    (live = false ∧ evStep live ready eff s = .next (s.verd .issued)) ∨
    (live = true ∧ ready = false ∧ evStep live ready eff s = .next (s.verd .held)) ∨
    (live = true ∧ ready = true ∧ evStep live ready eff s = .next (eff (s.verd .issued))) := by
  cases live <;> cases ready <;> simp [evStep]

@[simp] theorem evStep_go (eff : State → State) (s : State) : evStep true true eff s = .next (eff (s.verd .issued)) := rfl
@[simp] theorem evStep_held (eff : State → State) (s : State) : evStep true false eff s = .next (s.verd .held) := rfl
@[simp] theorem evStep_gone (ready : Bool) (eff : State → State) (s : State) : evStep false ready eff s = .next (s.verd .issued) := rfl

/-! ### The canonical form of memory -/

/-- Any run of updates that each keep the canonical form keeps it. -/
theorem Memory.wf_foldl {β : Type} (f : Memory → β → Memory) (hf : ∀ m x, Memory.wf m = true → Memory.wf (f m x) = true) (l : List β)
    (m : Memory) (h : Memory.wf m = true) : Memory.wf (l.foldl f m) = true := by
  induction l generalizing m with
  | nil => exact h
  | cons x r ih => exact ih _ (hf _ _ h)

/-- A copy of a range keeps the canonical form. -/
theorem Memory.wf_copy (m : Memory) (src dst n : Nat) (h : Memory.wf m = true) : Memory.wf (Memory.copy m src dst n) = true :=
  Memory.wf_foldl _ (fun m c h => Memory.wf_write m _ c.2 h) _ _ (Memory.wf_clear m dst n h)

/-- So do numbers written one after another. -/
theorem wf_putAll (m : Memory) (l : List (Nat × Nat × Nat)) (h : Memory.wf m = true) : Memory.wf (putAll m l) = true :=
  Memory.wf_foldl _ (fun m x h => Memory.wf_writeN m x.1 x.2.1 x.2.2 h) l m h

/-- Clearing a list of ranges keeps it. -/
theorem Memory.wf_clears {β : Type} (m : Memory) (l : List β) (at' : β → Nat) (n : Nat) (h : Memory.wf m = true) :
    Memory.wf (l.foldl (fun m k => Memory.clear m (at' k) n) m) = true :=
  Memory.wf_foldl _ (fun m k h => Memory.wf_clear m (at' k) n h) l m h

/-- The zeroing of a segment, its mirroring and its restore keep it. -/
theorem State.zeroSeg_wf (g : Seg) (s : State) (h : Memory.wf s.mem = true) : Memory.wf (s.zeroSeg g).mem = true :=
  Memory.wf_clears s.mem _ _ _ h
theorem State.toMirror_wf (g : Seg) (s : State) (h : Memory.wf s.mem = true) : Memory.wf (s.toMirror g).mem = true :=
  Memory.wf_foldl _ (fun m _ h => Memory.wf_copy m _ _ _ h) _ _ h
theorem State.fromMirror_wf (g : Seg) (s : State) (h : Memory.wf s.mem = true) : Memory.wf (s.fromMirror g).mem = true :=
  Memory.wf_foldl _ (fun m _ h => Memory.wf_copy m _ _ _ h) _ _ h

end Sys2Proof.Machine
end

