-- ==== Sys2Proof/Tests/Slice0.lean ====
section
/-! SUPPORT. Tests: ill-formed terms that the check refuses, words of the spec's examples and tables that the decoder reads, single words on
small states with results that the spec works out, and a witness of the hypotheses of each statement. -/

namespace Sys2Proof.Tests

open Sys2Proof.Machine Sys2Proof.Claims

set_option Elab.async false

/-! ### Helpers -/

/-- The state that a placed word of zeros leaves, with its group changed. -/
def st (f : Group → Group) : State := (State.reset.placeWord 0).modG f

/-- The same with the scalars of a list set. -/
def sc (l : List (Nat × Word)) : State := st (fun g => l.foldl (fun g x => g.wrS x.1 x.2) g)

/-- The same with lane 0 of the vectors of a list set, each with its tag. -/
def ve (l : List (Nat × Tag × Word)) (s : State) : State :=
  s.modG (fun g => l.foldl (fun g x => g.wrV x.1 x.2.1 1 (fun _ => x.2.2)) g)

/-- The state after a word, and what its group's scalar or lane 0 of its vector then holds. -/
def after (i : Instr) (s : State) : State := match exec i s with | .next t => t | _ => State.reset
def scal (i : Instr) (d : Nat) (s : State) : Word := (after i s).g.sVal d
def lane (i : Instr) (d : Nat) (s : State) : Word := (after i s).g.vLane d 0

/-- No term of a list is well formed. -/
def noneFormed (l : List Instr) : Bool := l.all (fun i => !i.wellFormed)

/-! ### Ill-formed terms, one for each check of a field -/

theorem test_ill_formed_registers : noneFormed
 [.saddS 64 0 0 false false, .saddS 0 64 0 false false, .saddS 0 0 64 false false, .smov 64 0 false, .smov 0 64 false, .callr 64 0 false,
   .callr 0 64 false, .emrd 64, .emwr 64 false, .brz 64 0, .sli 64 0, .jmpr 64 false, .itemput 64 false] = true := by decide +kernel

theorem test_ill_formed_vector_registers : noneFormed
 [.vadd 64 0 0 false false, .vadd 0 64 0 false false, .vadd 0 0 64 false false, .vbcast 64 0 false, .vbcast 0 64 false,
   .vmad 64 0 0 false false, .vlane 0 0 64 false false, .vtag 0 64 0 false, .vtag 0 0 64 false, .vclmulLo 64 0 0 false false] = true := by decide +kernel

theorem test_ill_formed_memory_registers : noneFormed
 [.ldB32 64 0 0 0 false, .ldB32 0 64 0 0 false, .ldB32 0 0 64 0 false, .ldB32 0 0 0 64 false, .stB64 64 0 0 0 false, .pref 64 0 0 false,
   .pref 0 64 0 false, .pref 0 0 64 false, .atomAdd 0 0 0 0 false 64 false false, .cadd 0 0 0 false 64 false false,
   .qpop 0 0 0 0 false 64 false, .lkl 64 0 0 0 false, .winchk 0 0 0 64 false, .crd 64 0 0 0 false false] = true := by decide +kernel

theorem test_ill_formed_member_registers : noneFormed
 [.voteAll 64 0 0 false, .voteAll 0 64 0 false, .voteAll 0 0 64 false, .shflIdx 0 0 0 false 64 false, .gredAdd 64 0 0 false,
   .xchg 0 64 0 false] = true := by decide +kernel

theorem test_ill_formed_engine_registers : noneFormed
 [.mzero 0 64 0, .mzero 0 0 64, .mld 64 0 0 false false 0 0 false, .mld 0 64 0 false false 0 0 false, .mld 0 0 64 false false 0 0 false,
   .mld 0 0 0 false false 64 0 false, .mld 0 0 0 false false 0 64 false, .mma 64 0 0 0 0 false, .mfence 64, .mwait 64 false 0,
   .segatt 64 0 false, .segdet 64 false, .emit16 64 0 false false, .clk 64, .opreq 64 false] = true := by decide +kernel

theorem test_ill_formed_condition_codes : noneFormed
 [.scmp 10 0 0 0 false false, .vcmp 10 0 0 0 false false, .vfcmp 8 0 0 0 false false, .waitc 10 0 0 0 0 false 0 false false, .jmp 32 0] = true := by decide +kernel

theorem test_ill_formed_immediates : noneFormed
 [.saddSImm 0 0 false 4096, .vaddImm 0 0 false 4096, .sshlImm 0 0 false 32, .vshrImm 0 0 false 32, .sbfeS 0 0 false 32 0,
   .sbfeS 0 0 false 0 32, .vbfi 0 0 false 32 0, .vbfi 0 0 false 0 32, .sli 0 524288, .slit 0 4294967296, .itemhead 0 0 false 4096,
   .csrr 0 4096, .csrw 0 4096, .trap 4096, .shflUp 0 0 0 false 32] = true := by decide +kernel

theorem test_ill_formed_offsets : noneFormed
 [.jmp 0 2097152, .brz 0 524288, .call 0 524288, .div 0 524288 0, .div 0 0 4294967296, .loopb 0 64] = true := by decide +kernel

theorem test_ill_formed_modes_and_parts : noneFormed
 [.vfadd 4 0 0 0 false false, .vfrcp 4 0 0 false, .vfcvt 0 0 false 4 false 0 0, .vfcvt 0 0 false 0 false 4 0,
   .vfcvt 0 0 false 0 false 0 16, .vtag 16 0 0 false, .mzero 16 0 0] = true := by decide +kernel

theorem test_ill_formed_barriers_and_copies : noneFormed
 [.binit 32 0 false, .bqry 32 0, .bqry 0 64, .acp 0 0 0 0 false 0 0 false 7 0 0 0, .acp 0 0 0 0 false 0 0 false 0 3 0 0,
   .acp 0 0 0 0 false 0 0 false 0 1 32 0, .acp 0 0 0 0 false 0 0 false 0 0 0 4, .acp 1 0 0 0 false 0 0 false 0 1 0 0,
   .acp 0 0 0 0 false 0 0 false 0 0 1 0] = true := by decide +kernel

theorem test_ill_formed_step_arguments : noneFormed
 [.dispatch 16, .doorbellWrite 16 0 0, .doorbellWrite 0 4096 0, .queueMapWrite 0 32 0, .tilePortService 128, .clusterGate 128 false,
   .correctionInterval 19, .keyLoad 256, .apertureWrite 0 64 0, .tlbInvalidateVf 0 64, .pmcWrite 0 4 0, .fabricPortFailure 32,
   .attestationRequest 256 0, .homeAtomicService 0 32, .barrierPhaseComplete 0 32, .segmentRestoreStart 0 128] = true := by decide +kernel

/-! ### Words of the spec's examples and tables, and what they decode to

Each numeral is the sum of the places that the encoding table of the word's family gives its fields. -/

theorem test_decode_uniform :
    decodeWord 0x02182100 none = .ok (false, .saddS 3 1 2 false false) ∧
    decodeWord 0x0228A3B2 none = .ok (false, .ssra 5 5 7 false true) ∧
    decodeWord 0x0A2120E8 none = .ok (false, .sbfeZ 4 9 false 7 8) ∧
    decodeWord 0x0C1FFFFF none = .ok (false, .sli 3 524287) ∧
    decodeWord 0x0E400000 (some 0x3FC00000) = .ok (false, .slit 8 0x3FC00000) ∧
    decodeWord 0x0230A01E none = .ok (false, .smov 6 5 false) :=
  ⟨rfl, rfl, rfl, rfl, rfl, rfl⟩

theorem test_decode_transfer :
    decodeWord 0x105FFFFE none = .ok (false, .jmp 2 2097150) ∧
    decodeWord 0x14480003 none = .ok (false, .brnz 9 3) ∧
    decodeWord 0x1A080002 (some 3) = .ok (false, .div 1 2 3) ∧
    decodeWord 0x1E100004 none = .ok (false, .loopb 2 4) ∧
    decodeWord 0x18000005 none = .ok (false, .nop) ∧
    decodeWord 0x18000006 none = .ok (false, .exit) ∧
    decodeWord 0x18000007 none = .ok (false, .join) :=
  ⟨rfl, rfl, rfl, rfl, rfl, rfl, rfl⟩

theorem test_decode_vector :
    decodeWord 0x22282102 none = .ok (false, .vcmp 2 5 1 2 false false) ∧
    decodeWord 0x2A18210A none = .ok (false, .vpermb 3 1 2 false false) ∧
    decodeWord 0x20B28E19 none = .ok (false, .vlane 22 20 28 false false) ∧
    decodeWord 0x30202101 none = .ok (false, .vfadd 1 4 1 2 false false) ∧
    decodeWord 0x3028818C none = .ok (false, .vfma 0 5 4 3 false false) ∧
    decodeWord 0x3E186012 none = .ok (false, .vtag 2 3 3 false) ∧
    decodeWord 0x3E404201 none = .ok (false, .vclmulHi 8 2 4 false false) :=
  ⟨rfl, rfl, rfl, rfl, rfl, rfl, rfl⟩

theorem test_decode_memory :
    decodeWord 0x4048400C none = .ok (false, .ldB32 9 2 0 6 false) ∧
    decodeWord 0x5220438D none = .ok (false, .stB64 4 2 7 6 true) ∧
    decodeWord 0x5688478C (some 0x08000000) = .ok (false, .stsB32 17 2 15 6 false) ∧
    decodeWord 0x58480390 (some 0x00640000) = .ok (false, .atomAdd 9 0 7 8 false 6 false true) ∧
    decodeWord 0x5E610094 (some 0x00E00000) = .ok (false, .qpush 12 8 1 10 false 14 false false) ∧
    decodeWord 0x5E810094 (some 0x04D00000) = .ok (false, .qpop 16 8 1 10 false 13 false) ∧
    decodeWord 0x6080478A (some 0x00E40000) = .ok (false, .waitc 0 16 2 15 5 false 14 false true) ∧
    decodeWord 0x66A0C188 none = .ok (false, .winchk 20 6 3 4 false) :=
  ⟨rfl, rfl, rfl, rfl, rfl, rfl, rfl, rfl⟩

theorem test_decode_member :
    decodeWord 0x68488182 none = .ok (false, .voteBallot 9 4 3 false) ∧
    decodeWord 0x6A30A100 (some 0xE0000000) = .ok (false, .shflXor 6 5 2 false 16) ∧
    decodeWord 0x6C382110 none = .ok (false, .gscanAdd 7 1 2 false) ∧
    decodeWord 0x6C402108 none = .ok (false, .gredFadd 8 1 2 false) ∧
    decodeWord 0x6E516100 none = .ok (false, .xchg 10 11 2 false) :=
  ⟨rfl, rfl, rfl, rfl, rfl⟩

theorem test_decode_barrier :
    decodeWord 0x70008023 none = .ok (false, .barr 3 4 false) ∧
    decodeWord 0x703800A3 none = .ok (false, .bqry 3 7) ∧
    decodeWord 0x70008063 none = .ok (false, .barrw 3 4 false) :=
  ⟨rfl, rfl, rfl⟩

theorem test_decode_engine :
    decodeWord 0x74A0C190 (some 0x10240000) = .ok (false, .acp 20 6 3 8 false 4 2 false 4 0 0 0) ∧
    decodeWord 0x76200100 (some 0x30000000) = .ok (false, .mzero 2 4 12) ∧
    decodeWord 0x76200105 (some 0x30F00000) = .ok (false, .mloop 4 0 2 12 15 false) ∧
    decodeWord 0x76024007 (some 0x30000000) = .ok (false, .mwait 18 false 12) ∧
    decodeWord 0x78508002 none = .ok (false, .segatt 10 4 false) ∧
    decodeWord 0x78010187 none = .ok (false, .emit32 8 3 false false) :=
  ⟨rfl, rfl, rfl, rfl, rfl, rfl⟩

theorem test_decode_system :
    decodeWord 0x7A280580 none = .ok (false, .csrr 5 11) ∧
    decodeWord 0x7A300501 none = .ok (false, .csrw 6 10) ∧
    decodeWord 0x7A006007 none = .ok (false, .opreq 3 false) ∧
    decodeWord 0x7A009189 none = .ok (false, .trap 0x123) ∧
    decodeWord 0x7A00000A none = .ok (false, .trapret) :=
  ⟨rfl, rfl, rfl, rfl, rfl⟩

theorem test_decode_chained : decodeWord 0xA0190018 none = .ok (true, .vbcast 3 8 false) := rfl

theorem test_decode_refusals :
    decodeWord 0x0E400000 none = .error .literal ∧ decodeWord 0 none = .error .major ∧
    decodeWord 0x18000105 none = .error .reserved ∧ decodeWord 0x7A00000B none = .error .minor := ⟨rfl, rfl, rfl, rfl⟩

theorem test_decode_conversions :
    decodeWord 0x38488045 none = .ok (false, .vfcvt 9 4 false 0 true 0 5) ∧
    decodeWord 0x3848A0C5 none = .ok (false, .vfcvt 9 5 false 1 true 0 5) ∧
    decodeWord 0x3848E1C5 none = .ok (false, .vfcvt 9 7 false 3 true 0 5) := ⟨rfl, rfl, rfl⟩

/-- The table's numbering of a word of 32 bits, and of a word with its literal in bits 63 to 32. -/
theorem test_decode_table_word :
    decodeTableWord 32 0x02182100 = some (.saddS 3 1 2 false false) ∧
    decodeTableWord 64 0x3FC000000E400000 = some (.slit 8 0x3FC00000) := ⟨rfl, rfl⟩

theorem test_encode :
    encode false (.saddS 3 1 2 false false) = [0x02182100] ∧ encode false (.div 1 2 3) = [0x1A080002, 3] ∧
    encode true (.vbcast 3 8 false) = [0xA0190018] := by decide +kernel

/-! ### Single words with results that the spec works out -/

theorem test_sadd_wraps :
    scal (.saddS 3 1 2 false false) 3 (sc [(1, 0xFFFFFFFF), (2, 2)]) = 1 := by decide +kernel

theorem test_smulh_signed :
    scal (.smulhS 3 1 2 false false) 3 (sc [(1, 0xFFFFFFFF), (2, 2)]) = 0xFFFFFFFF ∧ scal (.smulhZ 3 1 2 false false) 3 (sc [(1, 0xFFFFFFFF), (2, 2)]) = 1 := by decide +kernel

/-- R197, the example under R198: -7 by 2. -/
theorem test_sdiv_signed :
    scal (.sdivS 3 1 2 false false) 3 (sc [(1, 0xFFFFFFF9), (2, 2)]) = 0xFFFFFFFD ∧ scal (.sremS 3 1 2 false false) 3 (sc [(1, 0xFFFFFFF9), (2, 2)]) = 0xFFFFFFFF := by decide +kernel

theorem test_sdiv_by_zero :
    scal (.sdivZ 3 1 2 false false) 3 (sc [(1, 0x80000000)]) = 0xFFFFFFFF ∧ scal (.sremZ 3 1 2 false false) 3 (sc [(1, 0x80000000)]) = 0x80000000 := by decide +kernel

theorem test_ssra_40 :
    scal (.ssra 3 1 2 false false) 3 (sc [(1, 0x80000000), (2, 40)]) = 0xFFFFFFFF := by decide +kernel

theorem test_srot_33 :
    scal (.srot 3 1 2 false false) 3 (sc [(1, 0x80000001), (2, 33)]) = 3 := by decide +kernel

theorem test_sadd64_carries :
    (after (.sadd64 4 0 2 false false) (sc [(0, 0xFFFFFFFF), (2, 1)])).g.sPair 4 = 0x100000000 := by decide +kernel

theorem test_ssel_keeps :
    scal (.ssel 3 1 2 false false) 3 (sc [(1, 7), (3, 9)]) = 9 := by decide +kernel

/-- lt compares signed and lo unsigned values (R199). -/
theorem test_scmp_signed :
    scal (.scmp 2 3 1 2 false false) 3 (sc [(1, 0x80000000), (2, 1)]) = 1 ∧ scal (.scmp 6 3 1 2 false false) 3 (sc [(1, 0x80000000), (2, 1)]) = 0 := by decide +kernel

/-- The example of R202. -/
theorem test_sbfe_z :
    scal (.sbfeZ 4 9 false 7 8) 4 (sc [(9, 0x12345678)]) = 0x56 := by decide +kernel

/-- The example of R202. -/
theorem test_sbfi :
    scal (.sbfi 4 9 false 3 28) 4 (sc [(9, 0x12345678), (4, 0x56)]) = 0x80000056 := by decide +kernel

theorem test_sli_negative :
    scal (.sli 3 0x7FFFF) 3 (sc []) = 0xFFFFFFFF := by decide +kernel

theorem test_jmp_back :
    (after (.jmp 2 0x1FFFFE) (st id)).g.pos.pa = 131072 - 24 := by decide +kernel

theorem test_brnz_falls_through :
    (after (.brnz 9 3) (st id)).g.pos.pa = 131072 ∧ (after (.brnz 9 3) (sc [(9, 1)])).g.pos.pa = 131072 + 36 := by decide +kernel

theorem test_call_links :
    (after (.call 2 1) (st id)).g.sPair 2 = 131084 ∧ (after (.call 2 1) (st id)).g.pos.pa = 131084 := by decide +kernel

theorem test_emwr_keeps_exited :
    (after (.emwr 1 false) ((sc [(1, 0xFF)]).modG (fun g => { g with x := 0xF }))).g.em = 0xF0 := by decide +kernel

/-- R39: the subset whose bit is 1 runs first. -/
theorem test_div_taken_first :
    (after (.div 1 2 3) (sc [(1, 0x55555555)])).g.em = 0x55555555 ∧ (after (.div 1 2 3) (sc [(1, 0x55555555)])).g.stack.length = 2 := by decide +kernel

theorem test_join_path :
    (after .join (st (fun g => { g with stack := [{ kind := .path, mask := 6, pos := { pa := 131096, w := 1 }, block := none, path := [] }] }))).g.pos = { pa := 131096, w := 1 } := by decide +kernel

theorem test_exit_retires :
    (after .exit (st id)).g.retired = true ∧ (after .exit (st (fun g => { g with em := 1 }))).g.retired = false := by decide +kernel

/-- The lanes left go on after the JOIN that the join point names (R40, R41; log entry 45). -/
theorem test_exit_pops_join :
    (after .exit (st (fun g => { g with em := 15, stack := [{ kind := .join, mask := 0xFF, pos := { pa := 131096, w := 0 }, block := none, path := [] }] }))).g.pos =
      { pa := 131108, w := 0 } := by decide +kernel

theorem test_loopb_last :
    scal (.loopb 2 4) 2 (sc [(2, 1)]) = 0 ∧ (after (.loopb 2 1) (sc [(2, 3)])).g.pos.pa = 131072 - 12 := by decide +kernel

theorem test_vsra_signed :
    lane (.vsraImm 3 1 false 4) 3 (ve [(1, .i32, 0x80000000)] (sc [])) = 0xF8000000 := by decide +kernel

theorem test_vadd_inactive_keeps :
    ((after (.vadd 3 0 0 false false) (st (fun g => { g with em := 2 }))).g.vLane 3 0 = 0) ∧ ((after (.vadd 3 0 0 false false) (st (fun g => { g with em := 2 }))).g.vLane 3 1 = 2) := by decide +kernel

theorem test_vsat :
    lane (.vsatS8 3 1 false) 3 (ve [(1, .i32, 300)] (sc [])) = 127 ∧ lane (.vsatZ8 3 1 false) 3 (ve [(1, .i32, 0xFFFFFFFF)] (sc [])) = 0 := by decide +kernel

/-- The example of R237. -/
theorem test_vpermb :
    lane (.vpermb 3 1 2 false false) 3 (ve [(1, .i32, 0x44332211), (2, .i32, 0x80000102)] (sc [])) = 0x00112233 := by decide +kernel

theorem test_vaddc_carry :
    lane (.vaddc 4 1 2 false false) 4 (ve [(1, .i32, 0xFFFFFFFF), (2, .i32, 0), (5, .i32, 1)] (sc [])) = 0 ∧ lane (.vaddc 4 1 2 false false) 5 (ve [(1, .i32, 0xFFFFFFFF), (2, .i32, 0), (5, .i32, 1)] (sc [])) = 1 := by decide +kernel

/-- The example of R250. -/
theorem test_vclmul :
    lane (.vclmulLo 8 2 4 false false) 8 (ve [(2, .i32, 3), (4, .i32, 3)] (sc [])) = 5 ∧ lane (.vclmulHi 8 2 4 false false) 8 (ve [(3, .i32, 0x80000000), (4, .i32, 4)] (sc [])) = 2 := by decide +kernel

theorem test_vtag_retags :
    (after (.vtag 2 5 1 false) (st id)).g.tag 5 = .fp32 ∧ lane (.vtag 2 5 1 false) 5 (ve [(1, .raw, 7)] (sc [])) = 7 := by decide +kernel

/-- 1 + 2^-25 is 1 in FP32, as the example of R101 uses. -/
theorem test_vfadd_rounds :
    lane (.vfadd 0 4 1 2 false false) 4 (ve [(1, .fp32, 0x3F800000), (2, .fp32, 0x33000000)] (sc [])) = 0x3F800000 := by decide +kernel

/-- The second row of the example of R249. -/
theorem test_vfcvt_saturates :
    lane (.vfcvt 9 5 false 1 true 0 5) 9 (ve [(5, .fp32, 0x43EB0000), (9, .e4m3x4, 0x44)] (sc [])) = 0x7E44 := by decide +kernel

/-- The third row of the example of R249. -/
theorem test_vfcvt_tie :
    lane (.vfcvt 9 6 false 2 true 0 5) 9 (ve [(6, .fp32, 0xBA800000), (9, .e4m3x4, 0x7E44)] (sc [])) = 0x807E44 := by decide +kernel

/-- The first row of the example of R101. -/
theorem test_cadd_pair :
    caddPair 0x3F800000 0x34C00000 0x33000000 = (0x3F800000, 0x34E00000) ∨ (caddPair 0x3F800000 0 0x33000000).2 = 0x33000000 := by decide +kernel

/-- The example of R102. -/
theorem test_crd_value :
    crdValue 0x3F800000 0x34000000 = 0x3F800001 := by decide +kernel

theorem test_vote_ballot :
    scal (.voteBallot 9 4 3 false) 9 (ve [(4, .i32, 5)] (sc [(3, 0xFFFFFFFF)])) = 1 := by decide +kernel

/-- Lane i of v0 holds i at dispatch (R57), so the sum is 31 x 32 / 2. -/
theorem test_gred_add :
    lane (.gredAdd 7 0 2 false) 7 (sc [(2, 0xFFFFFFFF)]) = 496 ∧ (after (.gscanAdd 7 0 2 false) (sc [(2, 0xFFFFFFFF)])).g.vLane 7 3 = 6 := by decide +kernel

theorem test_shfl_xor :
    (after (.shflXor 6 0 2 false 16) (sc [(2, 0xFFFFFFFF)])).g.vLane 6 3 = 19 := by decide +kernel

theorem test_csrr_exited :
    scal (.csrr 5 4) 5 (st (fun g => { g with x := 0xF0 })) = 0xF0 := by decide +kernel

theorem test_csrw_hnden :
    (after (.csrw 6 10) (sc [(6, 0xFF)])).g.csr.hnden = 7 := by decide +kernel

theorem test_trapret :
    (after .trapret (st (fun g => { g with csr := { g.csr with hact := true, epcLo := 131084, eword := 2 } }))).g.pos = { pa := 131084, w := 2 } := by decide +kernel

theorem test_trap_stops :
    ((after (.trap 0x123) (st id)).team 0).st = .faulted ∧ (after (.trap 0x123) (st id)).verdict = .trapped := by decide +kernel

theorem test_ld_awaits :
    ((after (.ldB32 9 2 0 6 false) (st (fun g => { g with em := 1 }))).g.clear = some 0) ∧ ((after (.ldB32 9 2 0 6 false) (st (fun g => { g with em := 1 }))).g.isFull .v 9 = false) := by decide +kernel

/-- The word of SLI s3, -1 runs as the next step. -/
theorem test_step_runs :
    (match step (State.reset.withFetchWord 32 0x0C1FFFFF) with | .next t => (t.grp 0).sVal 3 | _ => 0) = 0xFFFFFFFF := by decide +kernel

/-! ### Witnesses: states and operands that meet the hypotheses of each statement -/

/-- Scalars 1 = 0, 2 = 1, 4 and 5 a packet of the code, 6 and 7 a place between packets, 8 and 9 a place below it, 10 all ones, 11 odd lanes. -/
def wS : State := sc [(2, 1), (4, 131084), (6, 131085), (8, 131060), (10, 0xFFFFFFFF), (11, 0xAAAAAAAA), (12, 2)]

/-- The same with no lane active, with lanes 0 to 3 exited, and with one lane active. -/
def wZ : State := wS.modG (fun g => { g with em := 0 })
def wX : State := wS.modG (fun g => { g with x := 15, em := 0xFFFFFFF0 })
def w1 : State := wS.modG (fun g => { g with em := 1 })

theorem witness_UniformResults :
    (∃ f, (Instr.saddS 63 63 0 true false, f) ∈ uniTable 63 63 0 true false) ∧ (∃ f, (Instr.spopc 63 0 true, f) ∈ uniUnTable 63 0 true 0) ∧
    Live wS ∧ SOk wS 0 ∧ SOk wS 63 ∧ SPairOk wS 0 ∧ SPairOk wS 62 := by
  refine ⟨⟨_, .head _⟩, ⟨_, .head _⟩, ?_⟩
  simp only [Live, SOk, SPairOk, RegOk]; decide +kernel

theorem witness_UniformSelectCompareField :
    Live wS ∧ SOk wS 63 ∧ SOk wS 0 ∧ 9 < 10 ∧ 0 + 31 < 32 ∧ 31 + 0 < 32 ∧ 32 ≤ 1 + 31 ∧ holdsCc 9 (wS.src.sVal 2) (wS.src.sVal 1) ∧
    ¬ holdsCc 6 (wS.src.sVal 2) (wS.src.sVal 1) ∧ wS.src.sVal 1 = 0 ∧ wS.src.sVal 2 ≠ 0 := by
  simp only [Live, SOk, RegOk, holdsCc]; decide +kernel

theorem witness_ConditionalTransfers :
    Live wS ∧ Live wZ ∧ 4 < 5 ∧ wZ.src.em = 0 ∧ wS.src.em ≠ 0 ∧ wS.src.em = ~~~wS.src.x ∧ wZ.src.em ≠ ~~~wZ.src.x ∧ SOk wS 1 ∧ SOk wS 2 ∧
    wS.src.sVal 1 = 0 ∧ wS.src.sVal 2 ≠ 0 := by
  simp only [Live, SOk, RegOk]; decide +kernel

theorem witness_CallsAndIndirectTransfers :
    Live wS ∧ SPairOk wS 62 ∧ SPairOk wS 4 ∧ SPairOk wS 6 ∧ SPairOk wS 8 ∧
    (wS.src.base.toNat ≤ (wS.src.sPair 4).toNat ∧ ((wS.src.sPair 4).toNat - wS.src.base.toNat) % 12 = 0) ∧
    ¬ (wS.src.base.toNat ≤ (wS.src.sPair 6).toNat ∧ ((wS.src.sPair 6).toNat - wS.src.base.toNat) % 12 = 0) ∧
    ¬ (wS.src.base.toNat ≤ (wS.src.sPair 8).toNat ∧ ((wS.src.sPair 8).toNat - wS.src.base.toNat) % 12 = 0) := by
  simp only [Live, SPairOk, RegOk]; decide +kernel

/-- A group that holds a loop buffer, and one whose sub-core has none free. -/
def aLoop : LoopBuf := { first := 131072, len := 1, kept := [], flush := false }
def wB : State := wS.modG (fun g => { g with loopBuf := some aLoop })
def wN : State := { wS with groups := wS.groups ++ [(1, { placeGroup with loopBuf := some aLoop }), (2, { placeGroup with loopBuf := some aLoop })] }

theorem witness_MaskAndLoopWords :
    Live wS ∧ Alone wS ∧ SOk wS 63 ∧ SOk wS 1 ∧ SOk wS 2 ∧ SOk wS 12 ∧ (wS.g.sVal 1).toNat ≤ 1 ∧ (wS.g.sVal 2).toNat ≤ 1 ∧
    1 < (wS.g.sVal 12).toNat ∧ wS.g.loopBuf = none ∧ wS.loopFree wS.g = true ∧
    (Live wB ∧ Alone wB ∧ SOk wB 12 ∧ 1 < (wB.g.sVal 12).toNat ∧ wB.g.loopBuf ≠ none) ∧
    (Live wN ∧ Alone wN ∧ SOk wN 12 ∧ 1 < (wN.g.sVal 12).toNat ∧ wN.loopFree wN.g = false) := by
  simp only [Live, Alone, SOk, RegOk]; decide +kernel

/-- A group with `n` join points on its stack, at its own packet or another, or a path. -/
def jp (pa : DWord) : StackEntry := { kind := .join, mask := 0xFF, pos := { pa := pa, w := 0 }, block := none, path := [2] }
def pathAt (pa : DWord) : StackEntry := { kind := .path, mask := 0xF0, pos := { pa := pa, w := 1 }, block := none, path := [2, 5] }
def deep (n : Nat) (s : State) : State := s.modG (fun g => { g with stack := List.replicate n (jp 131072) })

theorem witness_DivergenceSplits :
    (Live wS ∧ Alone wS ∧ SOk wS 11 ∧ SOk wS 10 ∧ SOk wS 1) ∧
    (Live (deep 30 wS) ∧ Alone (deep 30 wS) ∧ SOk (deep 30 wS) 11 ∧ (deep 30 wS).g.em &&& (deep 30 wS).g.sVal 11 ≠ 0 ∧
      (deep 30 wS).g.em &&& ~~~(deep 30 wS).g.sVal 11 ≠ 0 ∧ (deep 30 wS).g.stack.length ≤ 30) ∧
    (Live (deep 31 wS) ∧ SOk (deep 31 wS) 10 ∧ (deep 31 wS).g.em &&& (deep 31 wS).g.sVal 10 ≠ 0 ∧
      (deep 31 wS).g.em &&& ~~~(deep 31 wS).g.sVal 10 = 0 ∧ (deep 31 wS).g.stack.length ≤ 31) ∧
    ((deep 31 wS).g.em &&& (deep 31 wS).g.sVal 1 = 0 ∧ (deep 31 wS).g.em ≠ 0) ∧ ((deep 31 wZ).g.em = 0 ∧ (deep 31 wZ).g.stack.length ≤ 31) ∧
    (32 < (deep 31 wS).g.stack.length + 2 ∧ 32 < (deep 32 wZ).g.stack.length + 1 ∧ Live (deep 32 wZ) ∧ Alone (deep 32 wZ) ∧
      SOk (deep 32 wZ) 11) := by
  simp only [Live, Alone, SOk, RegOk]; decide +kernel

/-- A group with one entry on its stack. -/
def top (e : StackEntry) : State := wX.modG (fun g => { g with stack := [e] })

theorem witness_JoinAndReconvergence :
    (Live (top (pathAt 131096)) ∧ Alone (top (pathAt 131096)) ∧ (top (pathAt 131096)).g.stack = pathAt 131096 :: []) ∧
    (Live (top (jp 131072)) ∧ Alone (top (jp 131072)) ∧ (top (jp 131072)).g.stack = jp 131072 :: [] ∧
      (jp 131072).pos.pa = (top (jp 131072)).g.pos.pa) ∧
    (Live wS ∧ wS.src.stack = []) ∧
    (Live (top (jp 131096)) ∧ (top (jp 131096)).src.stack = jp 131096 :: [] ∧ (jp 131096).kind = .join ∧
      (jp 131096).pos.pa ≠ (top (jp 131096)).src.pos.pa) := by
  simp only [Live, Alone]; decide +kernel

theorem witness_ExitRetiresLanes :
    (Live w1 ∧ Alone w1 ∧ w1.inReplay w1.g.team = false ∧ w1.g.held = [] ∧ w1.g.x ||| w1.g.em ≠ BitVec.allOnes 32 ∧ w1.g.stack = []) ∧
    (let s := w1.modG (fun g => { g with stack := [pathAt 131096] }); Live s ∧ Alone s ∧ s.g.x ||| s.g.em ≠ BitVec.allOnes 32 ∧
      s.g.stack = [pathAt 131096]) ∧
    (let s := w1.modG (fun g => { g with stack := [jp 131096] }); Live s ∧ Alone s ∧ s.g.x ||| s.g.em ≠ BitVec.allOnes 32 ∧ s.g.stack = [jp 131096]) ∧
    (Live wX ∧ Alone wX ∧ wX.inReplay wX.g.team = false ∧ wX.g.x ||| wX.g.em = BitVec.allOnes 32 ∧
      (∀ n, n < wX.g.v.length → wX.g.regErr .v n = none) ∧ (∀ n, n < wX.g.s.length → wX.g.regErr .s n = none) ∧
      (∀ j, j ∈ (wX.team wX.g.team).groups → j ≠ wX.cur → (wX.grp j).retired = true)) ∧
    (let s := { wX with groups := wX.groups ++ [(1, placeGroup)], teams := SMap.modify wX.teams 0 (fun t => { t with groups := [0, 1] }) };
      Live s ∧ Alone s ∧ ¬ ∀ j, j ∈ (s.team s.g.team).groups → j ≠ s.cur → (s.grp j).retired = true) := by
  simp only [Live, Alone]; decide +kernel

/-- A core whose queue holds two items of the team and one of another. -/
def wQ : State := wS.setCore wS.g.coreId { CoreSt.zero with items := [(0, 7), (3, 5), (0, 8)] }

/-- A core whose queue has room for one lane's item and no more. -/
def wF : State := w1.setCore w1.g.coreId { CoreSt.zero with items := List.replicate 255 (0, 7) }

theorem witness_RefillWords :
    (Live wF ∧ VOk wF 63 ∧ IntTagged wF 63 ∧ wF.kept30 = false ∧ (wF.core wF.g.coreId).items.length + countOf wF.src.em ≤ 256) ∧
    (Live wQ ∧ Alone wQ ∧ SOk wQ 11 ∧ VOk wQ 63 ∧ wQ.g.stack = [] ∧ wQ.g.em = ~~~wQ.g.x) := by
  simp only [Live, Alone, SOk, VOk, IntTagged, RegOk]; decide +kernel

theorem witness_VectorIntegerResults :
    (∃ f, (Instr.vadd 63 0 1 true false, f) ∈ vecTable 63 0 1 true false) ∧ (∃ f, (Instr.vabs 63 0 true, f) ∈ vecUnTable 63 0 true 0) ∧
    Live wS ∧ VOk wS 0 ∧ VOk wS 1 ∧ VOk wS 63 ∧ IntTagged wS 0 ∧ IntTagged wS 1 ∧ Live wZ ∧ wZ.src.em = 0 := by
  refine ⟨⟨_, .head _⟩, ⟨_, .head _⟩, ?_⟩
  simp only [Live, VOk, IntTagged, RegOk]; decide +kernel

theorem witness_VectorSelectCompareMove :
    Live wS ∧ SOk wS 0 ∧ SOk wS 63 ∧ VOk wS 0 ∧ VOk wS 63 ∧ IntTagged wS 0 ∧ IntTagged wS 63 ∧ tagOf? 10 ≠ none ∧ tagOf? 0 ≠ none ∧ 9 < 10 := by
  simp only [Live, SOk, VOk, IntTagged, RegOk]; decide +kernel

theorem witness_VectorFieldsBytesPairs :
    Live wS ∧ VOk wS 0 ∧ VOk wS 63 ∧ IntTagged wS 0 ∧ IntTagged wS 63 ∧ 0 + 31 < 32 ∧ 31 + 0 < 32 ∧ SOk wS 63 ∧ VPairOk wS 62 ∧ VPairOk wS 0 ∧
    VPairOk wS 2 ∧ ∀ n, n ∈ [0, 0 + 1, 2, 2 + 1] → IntTagged wS n := by
  simp only [Live, SOk, VOk, VPairOk, IntTagged, RegOk]; decide +kernel

/-- Vectors 1 and 2 in FP32, 3 to 5 in BF16x2 or FP16x2, 6 in I16x2, 7 in E2M1x8, 8 FP32. -/
def wV : State := ve [(1, .fp32, 0x3F800000), (2, .fp32, 0x40000000), (3, .bf16x2, 0x3F803F80), (4, .bf16x2, 0x40004000), (5, .fp16x2, 0x3C003C00),
  (6, .i16x2, 1), (7, .e2m1x8, 0x11111111), (8, .fp32, 0), (9, .i32, 3), (10, .i8x4, 5), (11, .e4m3x4, 0)] wS

theorem witness_FloatArithmeticResults :
    Live wV ∧ (∀ n, n ∈ [1, 2, 3, 4, 5, 6, 8, 9, 63] → VOk wV n) ∧ SOk wV 63 ∧ (∀ n, n ∈ [1, 3, 5] → FloatTagged wV n) ∧ wV.src.tag 2 = wV.src.tag 1 ∧ wV.src.tag 8 = wV.src.tag 1 ∧ wV.src.tag 4 = wV.src.tag 3 ∧
    (wV.src.tag 1 = .fp32 ∧ wV.src.tag 9 = .i32) ∧ (wV.src.tag 3 = .bf16x2 ∧ wV.src.tag 6 = .i16x2) ∧ wV.src.tag 8 = .fp32 := by
  simp only [Live, SOk, VOk, FloatTagged, RegOk]; decide +kernel

theorem witness_UnaryAndConversionResults :
    Live wV ∧ (∀ n, n ∈ [1, 3, 7, 9, 10, 11, 63] → VOk wV n) ∧ (∀ n, n ∈ [1, 3] → FloatTagged wV n) ∧
    wV.src.tag 7 = .e2m1x8 ∧ wV.src.tag 11 = .e4m3x4 ∧ wV.src.tag 3 = .bf16x2 ∧
    (tagOf? 5 = some .e4m3x4 ∧ wV.src.tag 1 = .fp32 ∧ Tag.e4m3x4 ∈ cvtTags ∧ Tag.fp32 ∈ cvtTags ∧ cvtRatio .fp32 .e4m3x4 ≠ 8 ∧
      3 < cvtRatio .fp32 .e4m3x4) ∧
    (tagOf? 1 = some .i32 ∧ cvtRatio .fp32 .i32 ≠ 8 ∧ 0 < cvtRatio .fp32 .i32) ∧
    (tagOf? 2 = some .fp32 ∧ wV.src.tag 10 = .i8x4 ∧ Tag.fp32 ∈ signTags ∧ cvtRatio .i8x4 .fp32 ≠ 8 ∧ 3 < cvtRatio .i8x4 .fp32) := by
  simp only [Live, VOk, FloatTagged, RegOk]; decide +kernel

/-! Memory words. Scalars 16 and 17 hold an address of line 2,064 in slice 8, 18 to 25 policies. -/

/-- A team of a paired launch, with barriers, tiles and a node. -/
def kernelOf' (k : Kernel) : Kernel := { k with barriers := 4, tiles := 4, nodes := 1, cgrp := 1, priv := 16, pair := true }
def wTeam (f : Team → Team) (s : State) : State := { s with teams := SMap.modify s.teams 0 f }
def wK : State := wTeam (fun t => { t with kernel := kernelOf' t.kernel, tiles := List.replicate 4 (Tile.zero .raw) })
  (ve [(30, .fp32, 0)] (sc [(2, 1), (10, 0xFFFFFFFF), (11, 0xAAAAAAAA), (12, 2), (16, 132096), (19, 0x100), (20, 0x200), (21, 0x40), (22, 0xB000), (23, 0x300),
    (24, 0x80), (25, 0x400), (26, 65), (27, 64), (28, 3), (29, 8388607), (32, 133120), (40, 1), (42, 96), (43, 97)]))
def wKZ : State := wK.modG (fun g => { g with em := 0 })

/-- Rows of the tables of memory words, with their operands as wK has them. -/
def rL : List MemRow := loadRows 40 16 0 19 false false
def rS : List MemRow := storeRows 40 16 0 20 false
def rA : List MemRow := atomicRows 40 16 1 1 13 false false true
def rV : List MemRow := atomicRows 40 16 0 23 14 false false false
def rY : List MemRow := syncRows 40 16 0 23 14 9 false false false

theorem witness_memory_load : MemReady rL[0] wK 16 0 19 ∧ MemReady rL[5] wK 16 0 19 ∧ wK.src.em ≠ 0 ∧ rL[0].unif = false := by
  refine ⟨?_, ?_, ?_⟩
  · constructor <;> (try simp only [Live, SPairOk, SOk, UOk, RegOk, IntTagged]) <;> decide +kernel
  · constructor <;> (try simp only [Live, SPairOk, SOk, UOk, RegOk, IntTagged]) <;> decide +kernel
  · decide +kernel

theorem witness_memory_store : MemReady rS[2] wK 16 0 20 ∧ MemReady rS[3] wK 16 0 20 ∧ rS[3].unif = false := by
  refine ⟨?_, ?_, rfl⟩ <;> constructor <;> (try simp only [Live, SPairOk, SOk, UOk, RegOk, IntTagged]) <;> decide +kernel

theorem witness_memory_atomic : MemReady rA[0] wK 16 1 1 ∧ rA[0].unif = true ∧ MemReady rV[10] wK 16 0 23 := by
  refine ⟨?_, rfl, ?_⟩ <;> constructor <;> (try simp only [Live, SPairOk, SOk, UOk, RegOk, IntTagged]) <;> decide +kernel

theorem witness_memory_sync : MemReady rY[0] wK 16 0 23 ∧ MemReady rY[1] wK 16 0 23 := by
  refine ⟨?_, ?_⟩ <;> constructor <;> (try simp only [Live, SPairOk, SOk, UOk, RegOk, IntTagged]) <;> decide +kernel

theorem witness_MemoryWordsIssue_no_lane : MemReady rL[0] wKZ 16 0 19 ∧ wKZ.src.em = 0 ∧ MemReady rV[10] wKZ 16 0 23 := by
  refine ⟨?_, by decide +kernel, ?_⟩ <;> constructor <;> (try simp only [Live, SPairOk, SOk, UOk, RegOk, IntTagged]) <;> decide +kernel

/-- A group whose earlier memory word awaits its clearance; a team with a window table of one entry, and addresses in handle 0, in handle 1
and in no window. -/
def wC : State := wK.modG (fun g => { g with clear := some 3 })
def wW : State :=
  let s := wTeam (fun t => { t with crec := { t.crec with winbase := 196608, winlen := 2 } }) (wK.modG (fun g => (g.wrSPair 48 0x8000000000000000).wrSPair 50
    0x8000800000000000))
  { s with mem := Memory.writeN s.mem 196608 (2 ^ 96 + 2 ^ 97 + 31 * 2 ^ 144) 32 }

theorem witness_PolicyFaultsAndWindowCheck :
    (Live wK ∧ SPairOk wK 16 ∧ VOk wK 0 ∧ IntTagged wK 0 ∧ SOk wK 21 ∧ VOk wK 63) ∧
    ((wK.src.sVal 21).getLsbD 6 = true ∧ 11 ≤ fmtField (wK.src.sVal 22) ∧ 2 ≤ ordField (wK.src.sVal 20) ∧ (wK.src.sVal 24).getLsbD 7 = true) ∧
    (Live wC ∧ SPairOk wC 16 ∧ VOk wC 0 ∧ SOk wC 19 ∧ (wC.src.sVal 19).getLsbD 6 = false ∧ fmtField (wC.src.sVal 19) < 11 ∧
      ordField (wC.src.sVal 19) < 2 ∧ (wC.src.sVal 19).getLsbD 7 = false ∧ wC.src.clear ≠ none) := by
  simp only [Live, SPairOk, SOk, VOk, RegOk, IntTagged]; decide +kernel

theorem witness_WindowCheck :
    (Live wW ∧ SPairOk wW 48 ∧ SPairOk wW 50 ∧ VOk wW 0 ∧ IntTagged wW 0 ∧ SOk wW 1 ∧ VOk wW 63 ∧ (wW.src.sVal 1).getLsbD 6 = false ∧
      fmtField (wW.src.sVal 1) < 11 ∧ ordField (wW.src.sVal 1) = 0 ∧ (wW.src.sVal 1).getLsbD 7 = false ∧ wW.memWait = false) ∧
    (let a := wW.src.sPair 16 + (wW.src.vLane 0 31).setWidth 64; a.getLsbD 63 = false) ∧
    (let a := wW.src.sPair 50 + (wW.src.vLane 0 31).setWidth 64
     a.getLsbD 63 = true ∧ (wW.winEntry wW.myTeam.crec (a.toNat / 2 ^ 47 % 65536)).isNone = true) ∧
    (let a := wW.src.sPair 48 + (wW.src.vLane 0 31).setWidth 64
     a.getLsbD 63 = true ∧ ∃ w, wW.winEntry wW.myTeam.crec (a.toNat / 2 ^ 47 % 65536) = some w) := by
  refine ⟨?_, ?_, ?_, by decide +kernel, ⟨?_, ?_⟩⟩
  · simp only [Live, SPairOk, SOk, VOk, RegOk, IntTagged]; decide +kernel
  · decide +kernel
  · decide +kernel
  · exact (wW.winEntry wW.myTeam.crec 0).get (by decide +kernel)
  · exact (Option.some_get _).symm

/-! Member-masked words and barriers. -/

/-- One of two paths: the even lanes wait at no word, the odd ones run, under a join point that holds all. -/
theorem witness_MemberWords :
    (Live wK ∧ VOk wK 0 ∧ SOk wK 10 ∧ SOk wK 63 ∧ VOk wK 63 ∧ wK.src.em ≠ 0 ∧ (match arrives wK 0 10 none with | .done _ => true | _ => false) = true) ∧
    (∃ r, r ∈ voteRows 63 0 10 false ∧ MemberReady r wK 63 0 10) ∧ (∃ r, r ∈ shflRows 63 0 10 0 31 false false ∧ MemberReady r wK 63 0 10) ∧
    (∃ r, r ∈ reduceRows 63 0 10 false ∧ MemberReady r wK 63 0 10) ∧
    (let s := wK.modG (fun g => { g with em := 1 }); (match arrives s 0 10 none with | .wait _ => true | _ => false) = true) ∧
    (wKZ.src.em = 0 ∧ ∃ r, r ∈ voteRows 63 0 10 false ∧ MemberReady r wKZ 63 0 10) := by
  refine ⟨?_, ⟨_, .head _, ?_⟩, ⟨_, .head _, ?_⟩, ⟨_, .head _, ?_⟩, by decide +kernel, by decide +kernel, ⟨_, .head _, ?_⟩⟩
  · simp only [Live, SOk, VOk, RegOk]; decide +kernel
  · constructor <;> simp only [Live, SOk, VOk, RegOk, IntTagged, reduceCtorEq, false_implies, implies_true] <;> decide +kernel
  · refine ⟨?_, ?_, ?_, ?_, ?_, ?_⟩
    · simp only [Live]; decide +kernel
    · simp only [VOk, RegOk]; decide +kernel
    · simp only [SOk, RegOk]; decide +kernel
    · simp only [VOk, RegOk, Bool.false_eq_true, if_false]; decide +kernel
    · rintro n h; cases h; simp only [VOk, RegOk, IntTagged]; decide +kernel
    · rintro l h; cases h
  · refine ⟨?_, ?_, ?_, ?_, ?_, ?_⟩
    · simp only [Live]; decide +kernel
    · simp only [VOk, RegOk]; decide +kernel
    · simp only [SOk, RegOk]; decide +kernel
    · simp only [VOk, RegOk, Bool.false_eq_true, if_false]; decide +kernel
    · rintro n h; cases h
    · rintro l h; cases h; decide +kernel
  · constructor <;> simp only [Live, SOk, VOk, RegOk, IntTagged, reduceCtorEq, false_implies, implies_true] <;> decide +kernel

/-- A group that meets the conditions of an arrival with all its lanes, and with one of them. -/
theorem witness_MembersArrive :
    (wK.g.em ≠ 0 ∧ wK.g.em &&& wK.g.x = 0 ∧ wK.g.em &&& ~~~wK.g.em = 0 ∧ wK.g.em &&& ~~~wK.g.within = 0 ∧ wK.g.held = [] ∧
      (∀ l, l < 32 → wK.g.icnt l = 0)) ∧
    (w1.g.em ≠ 0 ∧ 3 &&& w1.g.x = 0 ∧ w1.g.em &&& ~~~3 = 0 ∧ 3 &&& ~~~w1.g.within = 0 ∧ w1.g.held = [] ∧ w1.g.em ≠ 3 ∧
      (∀ l, l < 32 → w1.g.icnt l = 0)) := by decide +kernel

theorem witness_MemberArrivalFaults :
    (Live wX ∧ VOk wX 0 ∧ SOk wX 10 ∧ SOk wX 63 ∧ wX.src.em ≠ 0 ∧ wX.src.sVal 10 &&& wX.src.x ≠ 0) ∧
    (Live wS ∧ VOk wS 0 ∧ SOk wS 11 ∧ wS.src.sVal 11 &&& wS.src.x = 0 ∧ wS.src.em &&& ~~~(wS.src.sVal 11) ≠ 0) ∧
    (let s := w1.modG (fun g => { g with stack := [jp 131072] })
     Live s ∧ VOk s 0 ∧ SOk s 10 ∧ s.src.sVal 10 &&& s.src.x = 0 ∧ s.src.em &&& ~~~(s.src.sVal 10) = 0 ∧
      s.src.sVal 10 &&& ~~~s.src.within ≠ 0) := by
  simp only [Live, SOk, VOk, RegOk]; decide +kernel

/-- The halves, operations and teams of two groups whose exchange numbers agree. -/
def lanes32 : List LaneReq := (List.range 32).map (fun l => halfLane l (BitVec.ofNat 32 l))
def anOp : MemOp :=
  { gid := 0, path := [], origin := none, team := 0, ctx := 0, kind := .xchg, unif := false, dst := [(.v, 3)], stat := none, mask := BitVec.allOnes 32, pol := 0,
    pos := { pa := 131072, w := 0 }, start := { pa := 131072, w := 0 }, next := { pa := 131084, w := 0 }, lanes := lanes32, cleared := true, undo := [],
    fail := none }
def aHalf (g : Nat) : Half := { gid := g, seat := 32 * g, num := 0, mask := BitVec.allOnes 32, vals := List.replicate 32 7, tick := 0, since := some 0 }
def wP : State :=
  { wK with
    now := 2000000
    groups := wK.groups ++ [(1, { placeGroup with team := 1, cluster := 1 })]
    teams := wK.teams ++ [(1, { wK.myTeam with groups := [1], teamid := 1, cluster := 1 })]
    ops := [(5, anOp), (6, { anOp with gid := 1, team := 1 })], halves := [aHalf 0, aHalf 1], deadNums := [] }

theorem witness_ExchangeWord :
    (Live wK ∧ VOk wK 0 ∧ SOk wK 10 ∧ VOk wK 63 ∧ wK.partnered = true ∧ wK.src.em ≠ 0 ∧ wK.src.xchg = false ∧
      (match arrives wK 0 10 none with | .done _ => true | _ => false) = true) ∧ wKZ.src.em = 0 ∧ wKZ.partnered = true ∧
    (let s := wK.modG (fun g => { g with em := 1 }); (match arrives s 0 10 none with | .wait _ => true | _ => false) = true ∧ s.src.em ≠ 0) ∧
    (let s := wK.modG (fun g => { g with xchg := true }); s.src.xchg = true ∧ s.partnered = true ∧ Live s ∧ VOk s 0 ∧ SOk s 10 ∧ VOk s 63) := by
  simp only [Live, SOk, VOk, RegOk]; decide +kernel

theorem witness_ExchangeUnit :
    (∃ x, SMap.find wP.groups 0 = some x ∧ x.xnum = 0) ∧ wP.exchangeOf 0 = some (5, anOp) ∧ SMap.find wP.ops 5 = some anOp ∧
    wP.seat 0 = 0 ∧ wP.mateSeat 0 = 32 ∧ wP.seat 1 = 32 ∧ wP.mateSeat 1 = 0 ∧
    (let s := { wP with halves := [aHalf 1] }; (∀ y, y ∈ s.halves → y.gid ≠ 0) ∧ (0, 0) ∉ s.deadNums ∧ s.halfFor 0 0 = some (aHalf 1)) ∧
    (let s := { wP with halves := [], deadNums := [(0, 0)] }; (∀ y, y ∈ s.halves → y.gid ≠ 0) ∧ (0, 0) ∈ s.deadNums) ∧
    (wP.halves.find? (fun x => x.gid == 0) = some (aHalf 0) ∧ wP.halves.find? (fun x => x.gid == 1) = some (aHalf 1) ∧
      (aHalf 0).seat = wP.mateSeat 1 ∧ (aHalf 1).seat = wP.mateSeat 0 ∧ anOp.kind = .xchg ∧
      (SMap.find wP.groups 1).isSome = true ∧ wP.exchangeOf 1 = some (6, { anOp with gid := 1, team := 1 }) ∧
      (∀ l, l < 32 → (anOp.lane l).isSome = true) ∧ anOp.lanes.map (fun r => r.lane) = List.range 32 ∧ (5 : Nat) ≠ 6) ∧
    (let s := { wP with halves := [aHalf 0] }; s.halves.find? (fun x => x.gid == 0) = some (aHalf 0) ∧ s.counting 0 = true ∧ s.halfFor 0 0 = none ∧
      (s.part (s.team 0).part).xto < 0 + (s.now - 0)) := by
  refine ⟨⟨_, rfl, by decide +kernel⟩, ?_⟩; decide +kernel

/-- A team whose barrier 0 has count 2 and one arrival, barrier 1 both, and barrier 2 stands in phase 5; scalars 26 = 65, 27 = 64, 28 = 3. -/
def wR : State :=
  let at' := scratchKey 0
  { wK with mem := Memory.writeN (Memory.writeN (Memory.writeN wK.mem at' (2 + 65536) 8) (at' + 8) (2 + 2 * 65536) 8) (at' + 16) (5 * 16777216) 8 }

theorem witness_BarrierWords :
    (Live wR ∧ Alone wR ∧ 3 < wR.myTeam.kernel.barriers ∧ SOk wR 63 ∧ SOk wR 26 ∧ SOk wR 27 ∧ SOk wR 29 ∧ (wR.src.sVal 27).toNat ≤ 64 ∧
      (wR.bar wR.src.team 3).arr = 0 ∧ (wR.bar wR.src.team 3).pend = 0 ∧ (wR.src.sVal 29).toNat ≤ 8388607) ∧
    (1 ≤ (((wR.bar wR.src.team 2).phase : Int) - (wR.src.sVal 28).toNat % 256) % 256 ∧
      (((wR.bar wR.src.team 2).phase : Int) - (wR.src.sVal 28).toNat % 256) % 256 ≤ 127 ∧
      ¬ (((wR.bar wR.src.team 2).phase : Int) - (wR.src.sVal 26).toNat % 256) % 256 ≤ 127 ∧ wR.partnered = true ∧
      (wR.src.sVal 28).toNat ≤ 64 ∧ 64 < (wR.src.sVal 26).toNat) ∧
    (let s := wTeam (fun t => { t with kernel := { t.kernel with pair := false } }) wR; Live s ∧ 3 < s.myTeam.kernel.barriers ∧ SOk s 26 ∧
      s.partnered = false) ∧
    ((wR.bar 0 0).cnt = 2 ∧ (wR.bar 0 0).arr = 1 ∧ (wR.src.sVal 12).toNat = 2 ∧ (wR.bar 0 3).cnt = 0 ∧ (wR.bar 0 1).arr = (wR.bar 0 1).cnt ∧
      64 < (wR.src.sVal 26).toNat ∧ (wR.src.sVal 1).toNat = 0 ∧ (wR.bar 0 0).cnt ≠ (wR.src.sVal 28).toNat) ∧
    ((SMap.find wR.teams 0).isSome = true ∧ (wR.team 0).st ≠ .saved ∧ 3 < (wR.team 0).kernel.barriers) := by
  simp only [Live, Alone, SOk, RegOk]; decide +kernel


/-! Engine words. -/

/-- Two lanes active. -/
def wK2 : State := wK.modG (fun g => { g with em := 3 })

theorem witness_CopyStarts_checks : ∀ c, c ∈ [0, 1, 2] → CopyOk wK2 1 4 c 0 44 (acpEnds wK2.src 16 31 32 31) := by
  simp only [CopyOk, PlainPolicy]; decide +kernel

theorem witness_CopyStarts_no_lane : ∀ c, c ∈ [0, 1, 2] → CopyOk wKZ 1 4 c 0 44 (acpEnds wKZ.src 16 31 32 31) := by
  simp only [CopyOk, PlainPolicy]; decide +kernel

theorem witness_CopyStarts :
    (Live wK2 ∧ SPairOk wK2 16 ∧ VOk wK2 31 ∧ IntTagged wK2 31 ∧ SOk wK2 1 ∧ SPairOk wK2 32 ∧ VOk wK2 63 ∧ SPairOk wK2 44 ∧
      3 < wK2.myTeam.kernel.barriers) ∧
    wK2.src.em ≠ 0 ∧ wK2.kept30 = false ∧
    (let l := lockSide 0 wK2.src.team false ((acpEnds wK2.src 16 31 32 31).map (fun e => (e.2.1, 4))) ++
       lockSide 0 wK2.src.team true ((acpEnds wK2.src 16 31 32 31).map (fun e => (e.2.2, 4)))
     wK2.mayTake wK2.src.coreId l.length true = true ∧ ∀ r, r ∈ l → wK2.lockBlocked wK2.src.coreId r = false) ∧
    (wKZ.src.em = 0 ∧ Live wKZ ∧ SPairOk wKZ 16 ∧ VOk wKZ 31 ∧ IntTagged wKZ 31 ∧ SOk wKZ 1 ∧ SPairOk wKZ 32) := by
  refine ⟨?_, ?_, ?_, ?_, ?_⟩ <;> (try simp only [Live, SPairOk, SOk, VOk, RegOk, IntTagged]) <;> decide +kernel

/-- The team's four tiles with formats that the step words accept; descriptors in scalars 44 and 45, and a batch that has not completed. -/
def wM : State := wTeam (fun t => { t with track := [.i32, .i8x4, .i8x4, .raw] }) (wK.modG (fun g => (g.wrS 45 8).wrS 46 7))
def wMZ : State := wM.modG (fun g => { g with em := 0 })
def wM1 : State := wM.modG (fun g => { g with em := 1 })

theorem witness_MatrixWords :
    (Live wM ∧ SOk wM 10 ∧ SOk wM 63 ∧ wM.src.em ≠ 0 ∧ wM.mxRoom = true ∧ wMZ.src.em = 0 ∧ wM1.src.em ≠ 0 ∧ tagOf? 10 ≠ none) ∧
    (∀ u, u ∈ [(2, 16), (1, 1), (1, 45)] → RegOk wM.src .s u.1 u.2) ∧ (∀ k, k ∈ [0, 1, 2, 3] → k < wM.myTeam.kernel.tiles) ∧
    (match mxArrive { pa := wM.src.pos.pa, w := wM.issue.w } 10 wM.src with | .done _ => true | _ => false) = true ∧
    (match mxArrive { pa := wM1.src.pos.pa, w := wM1.issue.w } 10 wM1.src with | .wait _ => true | _ => false) = true := by
  simp only [Live, SOk, RegOk]; decide +kernel

/-- Addresses that are checked one by one. -/
theorem rowsOk (p : Word) (a : DWord) (l : List DWord) (h1 : PlainPolicy p) (h2 : a.toNat % 64 = 0) (h3 : l.all (fun x => !mxAddrBad p x) = true) :
    RowsOk p a l :=
  ⟨h1, fun _ => h2, fun x hx => by simpa using List.all_eq_true.mp h3 x hx⟩

theorem witness_MatrixWords_rows :
    (∀ l, l ∈ [rowAddrs (wM.src.sPair 16) 8, [], [wM.src.sPair 16]] → RowsOk (wM.src.sVal 1) (wM.src.sPair 16) l) ∧
    (8 ≤ (wM.src.sVal 45).toNat ∧ (wM.src.sVal 45).toNat = 8 ∧ fmtField (wM.src.sVal 1) = 0) ∧
    (∀ r, r ∈ lockSide 0 wM.src.team false (tileRows (wM.src.sPair 16) 8) ++ lockSide 0 wM.src.team true (tileRows (wM.src.sPair 16) 8) →
      wM.lockBlocked wM.src.coreId r = false) ∧
    wM.mayTake wM.src.coreId (lockSide 0 wM.src.team false (tileRows (wM.src.sPair 16) 8)).length false = true ∧
    lockSide 0 wM.src.team false (tileRows (wM.src.sPair 16) 8) ≠ [] := by
  refine ⟨fun l hl => rowsOk _ _ _ (by simp only [PlainPolicy]; decide +kernel) (by decide +kernel) ?_, by decide +kernel, by decide +kernel, by decide +kernel,
    by decide +kernel⟩
  simp only [List.mem_cons, List.not_mem_nil, or_false] at hl
  rcases hl with rfl | rfl | rfl <;> decide +kernel

theorem witness_MatrixWords_steps : StepsOk wM false 0 1 2 0 ∧ StepsOk wM true 0 1 2 0 ∧ (wM.src.sVal 1).toNat = 0 := by
  refine ⟨?_, ?_, by decide +kernel⟩ <;>
    exact ⟨by decide +kernel, by decide +kernel, by decide +kernel, by decide +kernel, by decide +kernel, by decide +kernel,
      ⟨_, fun i hi k hk => by have : i = 0 := by simpa using hi
                              have : k = 0 := by simpa using hk
                              subst i k; rfl⟩, by decide +kernel⟩

/-- All the lanes together are the whole of the mask in scalar 10, and lane 0 alone that in scalar 40. -/
theorem witness_together :
    Together wM.src (wM.src.sVal 10) ∧ Together wK.src (wK.src.sVal 10) ∧ Together wM1.src (wM1.src.sVal 40) := by
  have same : ∀ s, s ∈ [wM, wK, wM1] → ∀ l, l < 32 → s.src.icnt l = 0 := by decide +kernel
  have all := fun s hs l c hl hc (_ : s.src.em.getLsbD l = true) (_ : s.src.em.getLsbD c = true) => (same s hs l hl).trans (same s hs c hc).symm
  refine ⟨⟨?_, ?_, ?_, ?_, ?_, all wM (by simp)⟩, ⟨?_, ?_, ?_, ?_, ?_, all wK (by simp)⟩, ⟨?_, ?_, ?_, ?_, ?_, all wM1 (by simp)⟩⟩ <;> decide +kernel

theorem witness_MatrixWords_waits :
    (SOk wM 1 ∧ ((wM.myTeam.batch : Int) - (wM.src.sVal 1).toNat) % 65536 ≤ 32767) ∧
    (SOk wM 46 ∧ 32767 < ((wM.myTeam.batch : Int) - (wM.src.sVal 46).toNat) % 65536) := by
  simp only [SOk, RegOk]; decide +kernel

/-- A segment of the name 132096 in a state, where the team runs or elsewhere, with a list of attached teams. -/
def aSeg (st : SegState) (cluster : Nat) (att : List Nat) : Seg :=
  { part := 0, vf := 0, ctx := 0, name := some 132096, launch := none, chip := false, units := 2, st := st, cluster := cluster, off := 0,
    mirror := 0, attached := att, reserved := false, detach := 0, waiters := [], zeroing := none, cause := 0 }
def wG (g : Seg) : State := { wK with segs := [(7, g)], ticket := 8 }

/-- A store of the current group that has not been cleared. -/
def aStore : MemOp :=
  { gid := 0, path := [], origin := none, team := 0, ctx := 0, kind := .st 4, unif := false, dst := [], stat := none, mask := 1, pol := 0x200, pos := { pa := 131072, w := 0 },
    start := { pa := 131072, w := 0 }, next := { pa := 131084, w := 0 }, cleared := true, undo := [], fail := none,
    lanes := [{ lane := 0, addr := 132096, data := 0, cmp := 0, st := .cleared, key := 132096, home := .slice 8, slot := none, res := 0, stat := 0,
                place := 0, since := 0, cost := [], paid := false }] }
def wO (g : Seg) : State := { wG g with ops := [(3, aStore)] }

theorem witness_SegmentWords :
    (Live wK ∧ SPairOk wK 16 ∧ SPairOk wK 62 ∧ SOk wK 2 ∧ SOk wK 1 ∧ SOk wK 63) ∧
    ((wK.src.sPair 16).toNat ≠ 0 ∧ 1 ≤ (wK.src.sVal 2).toNat ∧ (wK.src.sVal 2).toNat ≤ 96 ∧ (wK.src.sVal 1).toNat = 0 ∧
      wK.segNamed 0 0 132096 = none ∧ (wK.placeSeg 0 0 false 1).isSome = true ∧ wK.segCount 0 0 < 1024) ∧
    (∀ c, c ∈ [0, 1] → let s := wG (aSeg .resident c [0]); Live s ∧ SPairOk s 16 ∧ (s.segNamed 0 0 132096).isSome = true ∧ s.releaseWaits = false ∧
      s.src.team ∈ (aSeg .resident c [0]).attached) ∧
    (let s := wG (aSeg .mirrored 0 []); Live s ∧ (s.segNamed 0 0 132096).map Prod.fst = some 7 ∧ s.src.team ∉ (aSeg .mirrored 0 []).attached) ∧
    (let s := wO (aSeg .resident 0 [0]); Live s ∧ SPairOk s 16 ∧ s.releaseWaits = true) := by
  refine ⟨?_, ?_, ?_, ?_, ?_⟩ <;> (try simp only [Live, SPairOk, SOk, RegOk]) <;> decide +kernel

/-- A request of the team that the segment unit has before it, and its attach. -/
def wSq (segs : List (Nat × Seg)) (op : SegOp) (name units : Nat) : State :=
  { wK with segs := segs, ticket := 8, segReqs := [(5, { gid := 0, team := 0, op := op, name := name, units := units, dst := 40, pos := { pa := 131072, w := 0 }, at' := 0 })] }
def wSa (segs : List (Nat × Seg)) : State :=
  let r : LaneReq :=
    { lane := 0, addr := 0, data := 132096, cmp := 0, st := .formed, key := 0, home := .slice 0, slot := none, res := 0, stat := 0, place := 0, since := 0, cost := [], paid := false }
  { wK with segs := segs, ticket := 8, ops := [(5, { aStore with kind := .segatt, dst := [(.s, 40), (.s, 41)], lanes := [r] })] }

theorem witness_SegmentWords_turns :
    (∀ op, op ∈ [SegOp.crt false, .crt true, .det, .del, .qry] →
      ∀ segs, segs ∈ [[], [(7, aSeg .resident 0 [0])], [(7, aSeg .resident 0 [])], [(7, aSeg .mirrored 0 [])], [(7, aSeg .evicting 0 [])], [(7, aSeg .restoring 0 [])]] →
      let s := wSq segs op 132096 2
      (SMap.find s.segReqs 5).isSome = true ∧ SMap.find s.ops 5 = none ∧ s.segTurn 5 = true ∧ (SMap.find s.groups 0).isSome = true ∧
        (s.segNamed 0 0 132096).map Prod.fst = (if segs = [] then none else some 7)) ∧
    (let s := wSq [] (.crt false) 132096 2; s.segNamed 0 0 132096 = none ∧ (s.placeSeg 0 0 false 2).isSome = true ∧ s.segCount 0 0 < 1024) ∧
    (let s := wSq [(7, { aSeg .resident 0 [] with name := some 5, units := 96 })] (.crt false) 132096 2; s.segNamed 0 0 132096 = none ∧ s.placeSeg 0 0 false 2 = none) ∧
    (∀ segs, segs ∈ [[], [(7, aSeg .resident 0 [])], [(7, aSeg .resident 4 [])], [(7, aSeg .mirrored 0 [])], [(7, aSeg .evicting 0 [])]] →
      let s := wSa segs
      (SMap.find s.ops 5).map (fun o => (o.kind, o.lanes.map (fun r => r.st), o.fail, s.mayAnswer o)) = some (.segatt, [.formed], none, true) ∧ s.segTurn 5 = true ∧
        (s.segNamed 0 0 132096).map Prod.fst = (if segs = [] then none else some 7)) := by
  refine ⟨?_, ?_, ?_, ?_⟩ <;> decide +kernel

/-- A cluster whose memory another segment fills. -/
theorem witness_SegmentWords_full :
    let s := wG { aSeg .resident 0 [] with name := some 5, units := 96 }
    Live s ∧ SPairOk s 16 ∧ SOk s 2 ∧ SOk s 63 ∧ s.segNamed 0 0 132096 = none ∧ s.placeSeg 0 0 false 1 = none := by
  simp only [Live, SPairOk, SOk, RegOk]; decide +kernel

/-- A launch of a graph whose node 0 takes records of 16 bytes. -/
def aNode (n : Nat) : Node :=
  { kernel := { Kernel.zero with record := n }, args := [], ring := 0, ringCap := 0, gcap := 0, timer := 0, active := true, buf := [], spill := [],
    head := 0, since := none, formed := [] }
def aLaunch (n : Nat) : Launch :=
  { part := 0, queue := 0, ctx := 0, prio := 0, order := 0, graph := true, kernel := { Kernel.zero with cgrp := 1 }, args := [], teams := 1, next := 0, again := [],
    itemBase := 0, itemCnt := 0, itemPer := 0, compl := 0, irq := false, nodes := [aNode n], line := [], chipSeg := none, cmSegs := [],
    replay := false, ended := 0 }
def wE (n : Nat) : State := { wK with launches := [(0, aLaunch n)] }

theorem witness_EmitSendsRecords :
    (∀ n, n ∈ [4, 8, 16] → let s := wE (4 * n); Live s ∧ RegOk s.src .v n 0 ∧ RegOk s.src .v n 48 ∧ SOk s 1 ∧ s.src.em ≠ 0 ∧
      (s.src.sVal 1).toNat < s.myTeam.kernel.nodes ∧ s.nodeRecord 0 = 4 * n) ∧
    (Live (wE 20) ∧ (wE 20).nodeRecord 0 ≠ 16 ∧ (wE 20).myTeam.kernel.nodes ≤ ((wE 20).src.sVal 2).toNat ∧ SOk (wE 20) 2) ∧
    (Live wKZ ∧ RegOk wKZ.src .v 16 0 ∧ SOk wKZ 1 ∧ wKZ.src.em = 0) := by
  simp only [Live, SOk, RegOk]; decide +kernel

theorem witness_SystemWords :
    (Live wK ∧ Alone wK ∧ SOk wK 1 ∧ SOk wK 63 ∧ SPairOk wK 62 ∧ (wK.ctx wK.myTeam.ctx).oprt = false ∧ wK.storesOut = false) ∧
    (let s := wK.modCtx 0 (fun k => { k with oprt := true, opmin := 3 }); Live s ∧ SOk s 1 ∧ SOk s 10 ∧ (s.ctx s.myTeam.ctx).oprt = true ∧
      (s.src.sVal 1).toNat / 2 ^ 31 ≠ 1 ∧ (s.src.sVal 10).toNat / 2 ^ 31 = 1) ∧
    (let s := wO (aSeg .resident 0 []); Live s ∧ s.storesOut = true) ∧ 0x011 ≤ 4095 := by
  simp only [Live, Alone, SPairOk, SOk, RegOk]; decide +kernel

/-- A group with a handler at the third packet of its code, for every class that HNDEN names. -/
def wH : State := wK.modG (fun g => { g with csr := { g.csr with hndLo := 131096, hnden := 7, epcLo := 131084, eword := 2 } })
def fOf (c : FaultClass) : FaultInfo := { cls := c, lane := 0, cause := 0, addr := none, src := { pa := 131072, w := 0 }, cons := false, defer := false, tcode := 0 }

theorem witness_TrapsAndHandlers :
    (Live wK ∧ (SMap.find wK.teams wK.g.team).isSome = true) ∧
    (FaultClass.fullEmpty.hndBit = some 0 ∧ FaultClass.format.hndBit = some 1 ∧ FaultClass.rangeLock.hndBit = some 2 ∧ ∀ b, b ∈ [0, 1, 2] →
      let g := wH.grp 0; g.csr.hnden.getLsbD b = true ∧ g.csr.hact = false ∧ g.base.toNat ≤ (pair64 g.csr.hndLo g.csr.hndHi).toNat ∧
        ((pair64 g.csr.hndLo g.csr.hndHi).toNat - g.base.toNat) % 12 = 0) := by
  simp only [Live]; decide +kernel

theorem witness_TrapReturn :
    (Live wH ∧ Alone wH ∧ wH.g.csr.eword ≠ 3 ∧ let dest := pair64 wH.g.csr.epcLo wH.g.csr.epcHi; wH.g.base.toNat ≤ dest.toNat ∧ (dest.toNat - wH.g.base.toNat) % 12 = 0) ∧
    (∀ n, n ∈ [131085, 131060] → let s := wH.modG (fun g => { g with csr := { g.csr with epcLo := BitVec.ofNat 32 n } })
      Live s ∧ Alone s ∧ s.g.csr.eword ≠ 3 ∧
      ¬ (s.g.base.toNat ≤ (pair64 s.g.csr.epcLo s.g.csr.epcHi).toNat ∧ ((pair64 s.g.csr.epcLo s.g.csr.epcHi).toNat - s.g.base.toNat) % 12 = 0)) ∧
    (let s := wH.modG (fun g => { g with csr := { g.csr with eword := 3 } }); Live s ∧ Alone s ∧ s.g.csr.eword = 3) := by
  simp only [Live, Alone]; decide +kernel

/-! Operands and operations. -/

/-- A group with an errored scalar 40 and an empty scalar 41. -/
def wX40 : State := wK.modG (fun g => (g.setSReg 40 { val := 0, full := false, pend := false, err := some (fOf .access) }).emptyS 41)

theorem witness_OperandFaults :
    (∃ f, (Instr.saddS 63 40 1 true false, f) ∈ uniTable 63 40 1 true false) ∧ Live wX40 ∧ wX40.src.s.length ≤ 64 ∧ 63 < wX40.src.s.length ∧
    (wX40.src.sReg 40).err = some (fOf .access) ∧ SOk wX40 1 ∧ SOk wX40 63 ∧
    ((wX40.src.sReg 41).err = none ∧ (wX40.src.sReg 41).full = false ∧ (wX40.src.sReg 41).pend = false) := by
  refine ⟨⟨_, .head _⟩, ?_⟩
  simp only [Live, SOk, RegOk]; decide +kernel

/-- A group that waits for an ended WAITC on its running path and for members on an entry of its stack; one the other way round. -/
def blk (on : BlockOn) : Option Block := some { on := on, after := { pa := 131084, w := 1 } }
def wPB (a b : BlockOn) : State := wK.modG (fun g => { g with block := blk a, stack := [{ pathAt 131096 with block := blk b }] })

theorem witness_PathsAndFaultsComeBack :
    (∀ s, s ∈ [wPB (.waitc 9) (.member { pa := 131072, w := 0 }), wPB (.member { pa := 131072, w := 0 }) (.waitc 9)] →
      (SMap.find s.groups 0).isSome = true ∧ s.anyMet (s.grp 0) = true) ∧
    ((SMap.find wK.groups 0).isSome = true ∧ (wK.grp 0).deferred = []) ∧
    (let s := wK.modG (fun g => { g with deferred := [{ info := fOf .access, ovf := false }] })
     (SMap.find s.groups 0).isSome = true ∧ (s.grp 0).deferred = [] ++ { info := fOf .access, ovf := false } :: []) := by decide +kernel

/-- A stopped team with one report to send, and its partition with room in its fault ring. -/
def aRep : Report := { info := fOf .access, bound := { pa := 131072, w := 0 }, tick := 0, hact := false, ovf := false, gnum := 0, sent := false }
def aPart : Part := { Part.zero with ring := { base := 262144, log2 := 0, wptr := 5, rptr := 5 } }
def wFR : State := { wTeam (fun t => { t with st := .faulted, stopAt := some 0, reports := [{ aRep with sent := true }] ++ aRep :: [] }) wK with parts := [(0, aPart)] }

theorem witness_PathsAndFaultsComeBack_report :
    (SMap.find wFR.teams 0).isSome = true ∧ SMap.find wFR.parts (wFR.team 0).part = some aPart ∧ (wFR.team 0).reports = [{ aRep with sent := true }] ++ aRep :: [] ∧
    aRep.sent = false ∧ wFR.busy 0 = false ∧ (wFR.team 0).stopAt = some 0 ∧ 0 ≤ wFR.cycle (.facets (wFR.team 0).part) ∧
    (aPart.ring.wptr + 4294967296 - aPart.ring.rptr) % 4294967296 < 2 ^ aPart.ring.log2 := by decide +kernel

/-- A lane of an operation at slice 8, and a state that holds an operation with apertures open at that slice. -/
def aLane (key : Nat) (st : LaneState) : LaneReq :=
  { lane := 0, addr := BitVec.ofNat 64 key, data := 7, cmp := 0, st := st, key := key, home := .slice 8, slot := none, res := 0, stat := 0,
    place := 0, since := 0, cost := [], paid := false }
def opOf (k : MemKind) (dst : List (RegFile × Nat)) (l : List LaneReq) : MemOp := { aStore with kind := k, dst := dst, pol := 0, lanes := l }
def aAper : Aperture := { lkq := 1, aper := 4, next := none, left := 4, deferred := [] }
def wD (o : MemOp) : State :=
  { wK with ops := [(3, o)], apers := [(4 * 64, aAper), (5 * 64, aAper), (8 * 64, aAper), (772 * 64, aAper), (773 * 64, aAper), (776 * 64, aAper)], parts := [(0, Part.zero)], mem := Memory.writeN wK.mem 132096 0x80 4, ticket := 4 }

theorem witness_OperationsComplete (d : List (RegFile × Nat))
    (h : d ∈ [[(RegFile.v, 40)], [(.v, 40), (.v, 41)], [(.s, 40)], [(.s, 40), (.s, 41)], []]) :
    let o := opOf (.ld 1 true) d [aLane 132096 .done]
    SMap.find (wD o).ops 3 = some o ∧ (SMap.find (wD o).groups o.gid).isSome = true ∧ o.unserved = none ∧ o.reattach = false ∧ o.fail = none ∧ o.dst = d ∧
      o.stat = none ∧ (wD o).mayAnswer o = true ∧ (∀ r, r ∈ o.lanes → r.over = true) ∧ o.unpaid.length ≤ 1 := by
  revert d; decide +kernel

/-- A load of which one unit answers while the other has still to serve its lane, and one that follows a store that is owed an acknowledgement. -/
def oTwo (st : LaneState) (dst : List (RegFile × Nat)) : MemOp :=
  opOf (if dst = [] then .st 4 else .ld 4 false) dst [aLane 132096 .done, { aLane 131328 st with lane := 1, home := .slice 5 }]

theorem witness_OperationsComplete_stays :
    (∀ st, st ∈ [LaneState.cleared, .done] → ∀ d, d ∈ [[], [(RegFile.v, 40)]] → let o := oTwo st d
      SMap.find (wD o).ops 3 = some o ∧ o.unserved = none ∧ o.reattach = false ∧ (wD o).mayAnswer o = true ∧ o.unpaid ≠ [] ∧
        ((∀ r, r ∈ o.lanes → r.over = true) → 2 ≤ o.unpaid.length)) ∧
    (let o := opOf (.st 4) [] [{ aLane 132096 .done with paid := true }]; o.unpaid = [] ∧ ∀ r, r ∈ o.lanes → r.over = true) ∧
    (let o := opOf (.st 4) [] [{ aLane 132096 .done with paid := true }, { aLane 131328 .cleared with lane := 1, paid := true }]
     o.unpaid = [] ∧ ∃ r, r ∈ o.lanes ∧ r.over = false) ∧
    (let o := { opOf (.ld 2 true) [(.v, 40)] [aLane 132096 .cleared] with behind := [2] }; let s := { wD o with invals := [(2, 0)] }; SMap.find s.ops 3 = some o ∧ (SMap.find s.groups o.gid).isSome = true ∧ s.mayAnswer o = false) := by
  decide +kernel

theorem witness_OperationsComplete_failed :
    let o := { opOf (.ld 1 true) [(.v, 40)] [aLane 132096 .failed] with fail := some (fOf .access) }
    SMap.find (wD o).ops 3 = some o ∧ (SMap.find (wD o).groups o.gid).isSome = true ∧ o.unserved = none ∧ o.reattach = false ∧ o.fail = some (fOf .access) :=
  ⟨rfl, rfl, rfl, rfl, rfl⟩

theorem witness_OperationsComplete_acknowledged (p : Word) (h : p ∈ [(0 : Word), 0xC00]) :
    let o := { opOf (.st 4) [] [aLane 132096 .done] with pol := p }
    let s := { wD o with invals := [(3, 9)] }
    SMap.find s.ops 3 = some o ∧ s.invals.any (fun y => y.1 == 3) = true ∧ (wD o).invals.any (fun y => y.1 == 3) = false ∧
      s.mayAnswer o = true ∧ (∀ r, r ∈ o.lanes → r.over = true) ∧ o.unpaid.length = 1 ∧ (polScope o.pol = 3 ↔ p ≠ 0) := by
  simp only [List.mem_cons, List.not_mem_nil, or_false] at h
  rcases h with rfl | rfl <;> decide +kernel

/-- A load that is to be cleared: of a line whose slice the partition owns, and of a page that no entry maps. -/
def oClr : MemOp := opOf (.ld 4 false) [(.v, 40)] [aLane 132096 .formed]
def oBad : MemOp := opOf (.ld 4 false) [(.v, 40)] ([aLane 132096 .formed] ++ { aLane 0x4000000000 .formed with lane := 1 } :: [])

/-- Every aperture that a list asks has what it asks. -/
theorem admitted (s : State) (vf : Nat) (l : List (Nat × Nat)) (h : ∀ x, x ∈ l → Open s x.1 vf (unitsOn l x.1)) : Admitted s vf l := by
  intro k
  by_cases hk : ∃ x, x ∈ l ∧ x.1 = k
  · obtain ⟨x, hx, rfl⟩ := hk
    exact h x hx
  · refine .inl ?_
    have : l.filter (fun x => x.1 == k) = [] := by
      refine List.filter_eq_nil_iff.mpr (fun x hx e => hk ⟨x, hx, ?_⟩)
      simpa using e
    simp [unitsOn, this]

theorem witness_ClearanceOfMemoryWords :
    SMap.find (wD oClr).ops 3 = some oClr ∧ oClr.kind ≠ .pref ∧ oClr.kind ≠ .lflush ∧ oClr.lanes ≠ [] ∧
    (match (wD oClr).clearLane 3 oClr (aLane 132096 .formed) with
      | .ok _ _ _ p => decide (p = some (31, 30, false) ∧ (wD oClr).lanePage oClr (aLane 132096 .formed) = 132096)
      | _ => false) = true ∧
    (wD oClr).walkUnits ((wD oClr).team oClr.team) [(132096, (31, 30, false))] = [(4, 1), (772, 1), (5, 1), (773, 1)] ∧ (wD oClr).opVf oClr = 0 := by
  decide +kernel

theorem witness_ClearanceOfMemoryWords_admitted : Admitted (wD oClr) 0 [(4, 1), (772, 1), (5, 1), (773, 1)] :=
  admitted _ _ _ (by simp only [Open]; decide +kernel)

theorem witness_ClearanceOfMemoryWords_fault :
    (SMap.find (wD oBad).ops 3 = some oBad ∧ oBad.lanes = [aLane 132096 .formed] ++ { aLane 0x4000000000 .formed with lane := 1 } :: [] ∧
      (match (wD oBad).clearLane 3 oBad (aLane 132096 .formed) with | .ok _ _ _ _ => true | _ => false) = true ∧
      (match (wD oBad).clearLane 3 oBad { aLane 0x4000000000 .formed with lane := 1 } with | .fault _ _ => true | _ => false) = true) ∧
    ((SMap.find wK.ctxs 0).isSome = true ∧ 5 ∉ (wK.ctx 0).verified) := by decide +kernel

/-- What the hypotheses of a service ask of an operation with one lane. -/
theorem servable (o : MemOp) (r : LaneReq) (n : Nat) (s : State) (h1 : SMap.find s.ops 3 = some o) (h2 : o.lanes = [r])
    (h3 : r.home = .slice 8 ∨ r.home = .host) (h4 : s.orderWaits 3 o r = false) (h5 : (s.aper 8 (s.opVf o)).left = 4 ∧ (s.aper 8 (s.opVf o)).deferred = [])
    (h6 : (s.aper 776 (s.opVf o)).left = 4 ∧ (s.aper 776 (s.opVf o)).deferred = []) (h7 : s.barred o r = false) (h8 : s.isBad (lineOf r.key) = false)
    (h9 : SMap.find s.dir (lineOf r.key) = none) (h10 : SMap.getD s.crypt (lineOf r.key) [] = s.keyPair r.slot) (hn : n ≤ 4) : Servable s 3 o r n := by
  refine ⟨⟨o, h1, ?_, ?_, rfl, fun q h => h⟩, ?_, ?_, ?_, h7, h8, ?_, fun _ => h10⟩
  · simp [MemOp.lane, h2]
  · simp [h2]
  · rcases h3 with h | h <;> simp [h]
  · intro q hq
    have : q = r := by simpa [MemOp.mates, h2] using hq
    exact this ▸ h4
  · intro k hk
    rcases h3 with h | h <;> rw [h] at hk
    · have : k = 8 := (Home.slice.inj hk).symm
      subst this
      refine ⟨.inr ⟨h5.2, by omega⟩, .inr ⟨h6.2, ?_⟩⟩
      show n ≤ (s.aper 776 _).left
      omega
    · cases hk
  · intro id; simp [h9]

/-- Its hypotheses, as one test. -/
def servB (o : MemOp) (r : LaneReq) (s : State) : Bool :=
  decide (SMap.find s.ops 3 = some o ∧ o.lanes = [r] ∧ (r.home = .slice 8 ∨ r.home = .host) ∧ s.orderWaits 3 o r = false ∧
    ((s.aper 8 (s.opVf o)).left = 4 ∧ (s.aper 8 (s.opVf o)).deferred = []) ∧
    ((s.aper 776 (s.opVf o)).left = 4 ∧ (s.aper 776 (s.opVf o)).deferred = [])) &&
  decide (s.barred o r = false ∧ s.isBad (lineOf r.key) = false ∧ SMap.find s.dir (lineOf r.key) = none ∧
    SMap.getD s.crypt (lineOf r.key) [] = s.keyPair r.slot)

theorem serv (o : MemOp) (r : LaneReq) (n : Nat) (s : State) (hn : n ≤ 4) (h : servB o r s = true) : Servable s 3 o r n := by
  simp only [servB, Bool.and_eq_true, decide_eq_true_eq] at h
  obtain ⟨⟨a, b, c, d, e, f⟩, g, i, j, k⟩ := h
  exact servable o r n s a b c d e f g i j k hn

/-- The place of a write is free. -/
theorem writable (s : State) (t key : Nat) (h : s.replayOf t = none ∧ s.pageBusy (key / 65536) = false) : Writable s t key := ⟨h.1, h.2⟩

def oLd : MemOp := opOf (.ld 2 true) [(.v, 40)] [aLane 132096 .cleared]
def oSt : MemOp := opOf (.st 4) [] [aLane 132096 .cleared]

theorem witness_LoadsAndStoresServed :
    Servable (wD oLd) 3 oLd (aLane 132096 .cleared) ((wD oLd).fillsOf oLd (aLane 132096 .cleared)) ∧ SMap.find (wD oLd).ops 3 = some oLd ∧
    Servable (wD oSt) 3 oSt (aLane 132096 .cleared) ((wD oSt).fillsOf oSt (aLane 132096 .cleared)) ∧ Writable (wD oSt) 0 132096 ∧
    OffBars (wD oSt) (aLane 132096 .cleared) ∧ (wD oSt).l2 = [] :=
  ⟨serv _ _ _ _ (by decide +kernel) (by decide +kernel), by decide +kernel, serv _ _ _ _ (by decide +kernel) (by decide +kernel), writable _ _ _ (by decide +kernel),
    (fun _ h => by cases h), rfl⟩

def oAt (k : MemKind) : MemOp := opOf k [(.v, 40)] [aLane 132096 .cleared]

theorem witness_AtomicsAndLocksServed (k : MemKind) (h : k ∈ [MemKind.atom .cas, .fatom .add, .cadd, .crd false, .crd true]) :
    (oAt k).lanes = [aLane 132096 .cleared] ∧ Servable (wD (oAt k)) 3 (oAt k) (aLane 132096 .cleared) ((wD (oAt k)).rmwFills (oAt k) (aLane 132096 .cleared)) ∧
    Writable (wD (oAt k)) 0 132096 ∧ OffBars (wD (oAt k)) (aLane 132096 .cleared) ∧ (oAt k).origin = none := by
  refine ⟨rfl, serv _ _ _ _ ?_ ?_, writable _ _ _ ?_, (fun _ h => by cases h), rfl⟩ <;> revert k <;> decide +kernel

/-- The lock of line 2064, of the operation's context or another, or the table of slice 8 with no room left. -/
def wL (o : MemOp) (l : List (Nat × Lock)) (q : Nat) : State := { wD o with locks := l, apers := [(8 * 64, { aAper with lkq := q }), (776 * 64, aAper)] }
def aLock (c : Nat) : Lock := { ctx := c, vf := c, slice := 8 }

theorem witness_AtomicsAndLocksServed_locks (k : MemKind) (l : List (Nat × Lock)) (q : Nat)
    (h : (k, l, q) ∈ [(MemKind.lkl, [(2064, aLock 0)], 1), (.lkl, [], 0), (.lkl, [], 1), (.ulkl, [(2064, aLock 0)], 1), (.ulkl, [(2064, aLock 1)], 1)]) :
    Servable (wL (oAt k) l q) 3 (oAt k) (aLane 132096 .cleared) 0 := by
  refine serv _ _ _ _ (by decide) ?_
  simp only [List.mem_cons, Prod.mk.injEq, List.not_mem_nil, or_false] at h
  rcases h with h | h | h | h | h <;> obtain ⟨rfl, rfl, rfl⟩ := h <;> decide +kernel

/-! Pool words, monitors and merges. -/

/-- A pool object of two slots of 32 bytes on at line 2,064, with a count and a kind. -/
def wObj (o : MemOp) (kind count : Nat) : State :=
  { wD o with mem := Memory.writeN (Memory.writeN (Memory.writeN (Memory.writeN (wD o).mem 132096 kind 1) 132100 2 4) 132104 count 4) 132112 132128 8 }
def oPl (k : MemKind) : MemOp := { opOf k [(.v, 40), (.v, 41)] [aLane 132096 .moving] with stat := some (.v, 42) }

/-- The state once a pool word has read its header. -/
def headed (o : MemOp) (s : State) : State := (s.useLine o (aLane 132096 .moving) false).invalidatePeers 2064

/-- Whether a slot's address maps to itself at slice 8, on a page of 64 KiB or any other. -/
def mapsB (s : State) (va : Nat) (k : AccKind) : Bool :=
  match s.mapVa (s.team 0).cluster (s.team 0).part (s.team 0).crec va k with
  | .ok key home slot _ _ _ => decide (key = va ∧ home = .slice 8 ∧ slot = none)
  | _ => false

theorem witness_PoolWords (k : MemKind) (kind count : Nat)
    (h : (k, kind, count) ∈ [(MemKind.qpush, 1, 1), (.qpop, 2, 1), (.qpush, 1, 2), (.qpop, 1, 0), (.qpush, 0, 1), (.qpop, 3, 1)]) :
    Servable (wObj (oPl k) kind count) 3 (oPl k) (aLane 132096 .moving) ((wObj (oPl k) kind count).absent 132096).toNat ∧
    Writable (wObj (oPl k) kind count) 0 132096 ∧ (wObj (oPl k) kind count).isBad 2064 = false ∧
    Memory.readN (wObj (oPl k) kind count).mem 132096 1 = kind ∧ Memory.readN (wObj (oPl k) kind count).mem 132100 4 = 2 ∧
    (SMap.getD (wObj (oPl k) kind count).crypt 2064 [] = (wObj (oPl k) kind count).keyPair none ∧ SMap.find (wObj (oPl k) kind count).dir 2064 = none ∧
      (wObj (oPl k) kind count).slotClash (aLane 132096 .moving) = false ∧ (wObj (oPl k) kind count).l2 = [] ∧ (132128 + 8 * count) / 64 = 2064) ∧
    Memory.readN (wObj (oPl k) kind count).mem 132104 4 = count ∧ Memory.readN (wObj (oPl k) kind count).mem 132112 8 = 132128 ∧
    (wObj (oPl k) kind count).poolBehind 3 0 (aLane 132096 .moving) = false ∧ (wObj (oPl k) kind count).tlbCluster (oPl k) = ((wObj (oPl k) kind count).team 0).cluster ∧
    (∀ u, u ∈ [wObj (oPl k) kind count, headed (oPl k) (wObj (oPl k) kind count)] →
      mapsB u (132128 + 8 * count) .rmw = true ∧ mapsB u (132128 + 8 * (count - 1)) .rmw = true) := by
  simp only [List.mem_cons, Prod.mk.injEq, List.not_mem_nil, or_false] at h
  rcases h with h | h | h | h | h | h <;> obtain ⟨rfl, rfl, rfl⟩ := h <;>
    exact ⟨serv _ _ _ _ (by decide +kernel) (by decide +kernel), writable _ _ _ (by decide +kernel), by decide +kernel⟩

/-- An object whose slots no page maps. -/
theorem witness_PoolWords_unmapped :
    let s := { wObj (oPl .qpush) 1 1 with mem := Memory.writeN (wObj (oPl .qpush) 1 1).mem 132112 0x4000000000 8 }
    Memory.readN s.mem 132112 8 = 0x4000000000 ∧ s.l2 = [] ∧
    ∀ u, u ∈ [s, headed (oPl .qpush) s] →
      (match u.mapVa (s.tlbCluster (oPl .qpush)) (s.opPart (oPl .qpush)) (s.slotTables (oPl .qpush)) (0x4000000000 + 8) .rmw with
        | .fault _ _ => true | _ => false) = true := by decide +kernel

/-- A team on the cluster of the object's slice, and words held in its router. -/
def wRef (l : List (Nat × MemOp)) (r : List RefEntry) : State := wTeam (fun t => { t with cluster := 4 }) { wD (oPl .qpush) with ops := l, refl := r }
def aHeld (op until' : Nat) : RefEntry := { place := 4, port := 0, op := op, lane := 0, cyc := 0, until' := until' }
def oPc (k : MemKind) : MemOp := { oPl k with lanes := [aLane 132096 .cleared] }
def oPh (k : MemKind) : MemOp := { oPl k with lanes := [{ aLane 132096 .moving with since := 12 }] }

theorem witness_PoolWords_reflector :
    (let s := wRef [(3, oPc .qpush)] []; SMap.find s.ops 3 = some (oPc .qpush) ∧ (oPc .qpush).lane 0 = some (aLane 132096 .cleared) ∧
      s.orderWaits 3 (oPc .qpush) (aLane 132096 .cleared) = false) ∧
    (∀ n, n ∈ [0, 16] → let s := wRef [(3, oPl .qpush)] ((List.range n).map (fun k => aHeld (10 + k) 9));
      SMap.find s.ops 3 = some (oPl .qpush) ∧ (s.poolRoute (oPl .qpush) (aLane 132096 .moving))[0]? = some 4 ∧
      (∀ e, e ∈ s.refl → ¬ (e.op = 3 ∧ e.lane = 0)) ∧ (aLane 132096 .moving).since ≤ s.cycle .uncore ∧
      (s.refl.filter (fun e => e.place == 4 && e.port == 0 && e.holds (s.cycle .uncore))).length = n ∧
      0 + 1 = (s.poolRoute (oPl .qpush) (aLane 132096 .moving)).length) ∧
    (let s := wRef [(2, { oPh .qpush with gid := 1 }), (3, oPh .qpop)] [aHeld 2 11, aHeld 3 11];
      s.oldest 4 132096 0 true = some (aHeld 2 11) ∧ s.oldest 4 132096 0 false = some (aHeld 3 11) ∧ s.cycle .uncore < 12 ∧
      (s.poolRoute (oPh .qpop) { aLane 132096 .moving with since := 12 })[0]? = some 4 ∧
      (SMap.find s.ops 2).map (fun o => o.lane 0) = some (some { aLane 132096 .moving with since := 12 }) ∧
      (SMap.find s.ops 3).map (fun o => o.lane 0) = some (some { aLane 132096 .moving with since := 12 }) ∧
      (∀ e, e ∈ s.refl → e ≠ aHeld 2 11 → ¬ (e.op = 2 ∧ e.lane = 0)) ∧ (∀ e, e ∈ s.refl → e ≠ aHeld 3 11 → ¬ (e.op = 3 ∧ e.lane = 0))) := by decide +kernel

/-- A condition that the word at line 2,064 meets with code 1 and not with code 0, and monitors with room and without. -/
def oWt (cc : Nat) : MemOp := oAt (.waitc cc)
def aMon : MonEntry := { key := 132096, op := 9, lane := 0, queue := none }

theorem witness_MonitorsAndMerges (n : Nat) (h : n ∈ [0, 1]) :
    let s : State := { wD (oWt n) with mons := [aMon] }
    Servable s 3 (oWt n) (aLane 132096 .cleared) (s.absent 132096).toNat ∧ (∀ m, m ∈ s.mons → ¬ (m.queue = none ∧ m.op = 3 ∧ m.lane = 0)) ∧
    memWord s 132096 ≠ (aLane 132096 .cleared).cmp ∧ (s.mons.filter (fun m => sliceOfKey m.key == 8)).length < 4096 := by
  simp only [List.mem_cons, List.not_mem_nil, or_false] at h
  rcases h with rfl | rfl <;> exact ⟨serv _ _ _ _ (by decide +kernel) (by decide +kernel), by decide +kernel⟩

/-- A word of the host's memory, which no slice holds. -/
theorem witness_MonitorsAndMerges_host :
    let r : LaneReq := { aLane 132096 .cleared with home := .host }
    let o := { oWt 0 with lanes := [r] }
    let s := wD o
    Servable s 3 o r (s.absent 132096).toNat ∧ memWord s 132096 ≠ r.cmp ∧ (∀ k, r.home ≠ .slice k) ∧ s.mons = [] :=
  ⟨serv _ _ _ _ (by decide +kernel) (by decide +kernel), by decide +kernel, (fun k h => by cases h), rfl⟩

theorem filter_rep (n : Nat) (f : MonEntry → Bool) (h : f aMon = true) : (List.replicate n aMon).filter f = List.replicate n aMon := by
  simp [h]

theorem witness_MonitorsAndMerges_full :
    let s : State := { wD (oWt 0) with mons := List.replicate 4096 aMon }
    Servable s 3 (oWt 0) (aLane 132096 .cleared) (s.absent 132096).toNat ∧ (∀ m, m ∈ s.mons → ¬ (m.queue = none ∧ m.op = 3 ∧ m.lane = 0)) ∧
    4096 ≤ (s.mons.filter (fun m => sliceOfKey m.key == 8)).length := by
  refine ⟨serv _ _ _ _ (by decide +kernel) (by decide +kernel), ?_, ?_⟩
  · intro m hm
    obtain rfl := List.eq_of_mem_replicate hm
    decide
  · show 4096 ≤ ((List.replicate 4096 aMon).filter _).length
    exact Nat.le_of_eq (by rw [filter_rep _ _ (by decide +kernel), List.length_replicate])

/-- A merging read whose route starts at router 0, with an entry of its line there or none, or one whose answer has come. -/
def oMg : MemOp := opOf (.ldmc true) [(.v, 40)] [aLane 132096 .cleared]
def aMrg (v : Option LineAns) : MergeEntry := { id := 9, place := 0, line := 2064, net := 0, tags := [(3, 0)], val := v }
def anAns (b : Bool) : LineAns := { val := 5, slot := none, bad := b }
def wMg (l : List MergeEntry) : State := { wD oMg with merges := l }

theorem route_head (s : State) (h : (s.team oMg.team).cluster = 0) : (s.mergeRoute oMg 8)[0]? = some 0 := by
  simp only [State.mergeRoute, routeOf, routerOf, h]
  cases Config.routeVia _ _ _ <;> rfl

theorem witness_MonitorsAndMerges_merge :
    (SMap.find (wMg []).ops 3 = some oMg ∧ oMg.lane 0 = some (aLane 132096 .cleared) ∧
      (aLane 132096 .cleared).since ≤ (wMg []).cycle .uncore ∧ (aLane 132096 .cleared).place ≠ 255) ∧
    ((wMg []).mergeRoute oMg 8)[0]? = some 0 ∧ ((wMg [aMrg none]).mergeRoute oMg 8)[0]? = some 0 ∧
    ((wMg [aMrg none]).merges.filter (fun m => m.place == 0)).find? (fun m => m.line == 2064 && m.net == 0) = some (aMrg none) ∧
    (aMrg none).tags.length < 32 ∧ ((wMg []).merges.filter (fun m => m.place == 0)).find? (fun m => m.line == 2064 && m.net == 0) = none ∧
    (∀ b, b ∈ [false, true] → let s := wMg [aMrg (some (anAns b))]
      s.merges.find? (fun m => m.id == 9 && m.val.isSome) = some (aMrg (some (anAns b))) ∧
        (s.admitted oMg (aLane 132096 .cleared) = true ∧ (aLane 132096 .cleared).slot = (anAns b).slot ∧ (anAns b).bad = b)) ∧ (wMg [aMrg (some (anAns false))]).below 0 (3, 0) = [] := by
  refine ⟨by decide +kernel, route_head _ (by decide +kernel), route_head _ (by decide +kernel), by decide +kernel, by decide +kernel, by decide +kernel, by decide +kernel, ?_⟩
  show List.takeWhile (fun n => n != 0) ((wMg [aMrg (some (anAns false))]).mergeRoute oMg 8) = []
  have := route_head (wMg [aMrg (some (anAns false))]) (by decide +kernel)
  revert this
  cases (wMg [aMrg (some (anAns false))]).mergeRoute oMg 8 with
  | nil => intro; rfl
  | cons a l => intro h; have : a = 0 := by simpa using h
                subst this; rfl

/-- Virtual function 0 of partition 0, which exports its first megabyte under key 5; a line of a peer's; and a peer's operation at slice 8. -/
def anExp : Export := { valid := true, key := 5, lo := 0, hi := 1048575, at' := true, wr := true, rd := true }
def oPe (k : MemKind) : MemOp := { opOf k [] [aLane 132096 .cleared] with origin := some { peer := 2, part := 0, vf := 0 } }
def wEx (o : MemOp) (m : List MonEntry) : State :=
  { wD o with parts := [(0, { Part.zero with vfs := 1 })], exports := [(0, [anExp])], mons := m
              l2 := [(9, { cls := .normal, dirty := none, slot := none, used := 0, whose := .shared, below := 0 })] }

theorem witness_PeersAndHostAccess :
    (∀ k, k ∈ [MemKind.ld 8 false, .st 64, .atom .add, .own, .qpush] → k.fromPeer = true ∧ (132096 : DWord).toNat % k.peerBytes = 0 ∧
      (wEx oLd []).exporter 0 5 132096 k = some 0 ∧ (wEx oLd []).exporter 0 6 132096 k = none) ∧
    (wEx oLd []).ctxOfVf 0 0 = some 0 ∧ mapsB (wEx oLd []) 132096 .load = true ∧ mapsB (wEx oLd []) 132096 .store = true ∧
    SMap.find (wEx oLd []).dir 2064 = none ∧ (SMap.find (wEx oLd []).l2 9).map (fun l => l.whose) = some .shared ∧ (wEx oLd []).pageBusy 2 = false ∧
    ((wEx oLd []).dir.filter (fun y => sliceOf (64 * y.1) == sliceOf (64 * 2064) && y.1 != 2064)).length < 16384 := by
  decide +kernel

theorem witness_PeersAndHostAccess_served (k : MemKind) (m : List MonEntry)
    (h : (k, m) ∈ [(MemKind.ld 8 false, []), (.own, []), (.own, [aMon])]) :
    Servable (wEx (oPe k) m) 3 (oPe k) (aLane 132096 .cleared) ((wEx (oPe k) m).fillsOf (oPe k) (aLane 132096 .cleared)) := by
  simp only [List.mem_cons, Prod.mk.injEq, List.not_mem_nil, or_false] at h
  rcases h with h | h | h <;> obtain ⟨rfl, rfl⟩ := h <;> exact serv _ _ _ _ (by decide +kernel) (by decide +kernel)

/-! Teams. -/

/-- The team with its groups retired; the team faulted, with a report that has been sent. -/
def wTe : State := wK.modG (fun g => { g with retired := true })
def wTf (r : Report) : State := wTeam (fun t => { t with st := .faulted, reports := [r] }) { wK with parts := [(0, Part.zero)], launches := [(0, aLaunch 4)] }

theorem witness_TeamsAndContextsEnd :
    ((SMap.find wTe.teams 0).isSome = true ∧ (wTe.team 0).st = .running ∧
      (∀ i, i ∈ (wTe.team 0).groups → (wTe.grp i).retired = true ∧ (wTe.grp i).deferred = []) ∧ wTe.busy 0 = false) ∧
    (let s := wTf { aRep with sent := true }
     ((s.part 0).qtab < 2 ^ 64 ∧ (∀ j, j < 5 → s.pageBusy ((s.part 0).qtab / 65536 + j) = false) ∧ (s.ctx 0).part = 0) ∧
     (SMap.find s.teams 0).isSome = true ∧ (s.team 0).st = .faulted ∧ (s.team 0).reports ≠ [] ∧ (∀ r, r ∈ (s.team 0).reports → r.sent = true) ∧ (s.team 0).launch = 0 ∧
     (SMap.find s.ctxs 0).isSome = true ∧ (s.ctx 0).tdown = false ∧ (s.team 0).ctx = 0 ∧ (s.team 0).awaits = true ∧ (s.ctx 0).live = true ∧ s.boot.minimal = false) ∧
    (let s := wTeam (fun t => { t with st := .saved, reports := [{ aRep with sent := true }] }) { wK with groups := [] }
     (SMap.find s.teams 0).isSome = true ∧ (s.team 0).st = .saved ∧ s.groups = [] ∧ (s.team 0).reports ≠ [] ∧ ∀ r, r ∈ (s.team 0).reports → r.sent = true) ∧
    (let s := { wK.modCtx 0 (fun k => { k with tdown := true }) with teams := [] }
     s.outstanding (s.ctx 0).part (s.ctx 0).crec.pasid ((s.genOf (s.ctx 0).part (s.ctx 0).crec.pasid + 255) % 256) = 0 ∧
     (SMap.find s.ctxs 0).isSome = true ∧ (s.ctx 0).live = true ∧ (s.ctx 0).tdown = true ∧ (s.ctx 0).arriving = [] ∧ s.teams = [] ∧ s.ops = [] ∧ s.copies = []) := by
  decide +kernel

/-- Apertures with room for an image of a team without tiles, at tick 64. -/
def wAp (s : State) : State :=
  { wTeam (fun t => { t with kernel := { t.kernel with tiles := 0, scratch := 0 }, tiles := [] }) s with
    now := 64
    apers := (List.range 16 ++ (List.range 16).map (768 + ·)).map (fun k => (64 * k, { aAper with left := 64 })) }
def aPgf (c : Nat) : Report := { aRep with info := { fOf .translation with cause := c, addr := some 132096 } }
def wPg (c : Nat) : State := wAp (wTeam (fun t => { t with st := .faulted, reports := [aPgf c], crec := { t.crec with pgpol := 1 } }) { wD oLd with ops := [] })
def wMi : State := wAp (wTeam (fun t => { t with st := .missed }) wK)

/-- A team whose page request comes after 512 of its function's, and one that has missed a segment and has another attached. -/
def wPo : State :=
  let t := (wPg 1).team 0
  { wPg 1 with teams := [(0, { t with reports := [{ aPgf 1 with tick := 5 }] }), (1, { t with groups := [], reports := List.replicate 512 (aPgf 1) })] }
def wMs (st : TeamState) (g : Seg) : State := wAp (wTeam (fun t => { t with st := st, missSeg := some 7, attach := [8] }) { wK with segs := [(7, g), (8, aSeg .resident 0 [0])] })

/-- Nothing of the team is left in the units. -/
def Idle (s : State) : Prop := (SMap.find s.teams 0).isSome = true ∧ s.ops = [] ∧ (s.cluster (s.team 0).cluster).queue = []

theorem witness_StoppedTeamsGoOn :
    (let s := wTf { aRep with sent := true, info := fOf .softwareTrap }
     Idle s ∧ (s.team 0).reports ≠ [] ∧ (s.team 0).st = .faulted ∧ (∀ r, r ∈ (s.team 0).reports → r.sent = true) ∧
     (∀ r, r ∈ (s.team 0).reports → r.info.cls = .softwareTrap ∨ r.info.defer = true) ∧ s.boot.savesHeld = false) ∧
    (∀ c, c ∈ [0, 1] → let s := wPg c;
     Idle s ∧ (s.team 0).reports ≠ [] ∧ (s.team 0).st = .faulted ∧ (∀ r, r ∈ (s.team 0).reports → r.sent = false ∧ pageable r.info (s.team 0).crec.pgpol = true) ∧
     s.saveReady 0 = true ∧ s.pagesBack 0 = true ∧ s.boot.savesHeld = false ∧ s.inReplay 0 = false ∧ s.spanFree 524288 (s.imageBytes 0) = true) ∧
    ((wPg 1).team 0).reports = [aPgf 1] ∧ (aPgf 1).asks = true ∧ (wPg 1).pageAsked 0 = true ∧
    Idle wMi ∧ (wMi.team 0).st = .missed ∧ (wMi.team 0).missSeg = none ∧ wMi.saveReady 0 = true ∧ wMi.boot.savesHeld = false ∧ wMi.inReplay 0 = false := by
  simp only [Idle]; decide +kernel

theorem witness_StoppedTeamsGoOn_others :
    (wPo.pageAsked 0 = false ∧ (wPo.team 0).reports = [{ aPgf 1 with tick := 5 }] ∧ Idle wPo) ∧
    (let s := wTeam (fun t => { t with st := .saved, reports := [{ aRep with sent := true }] }) wK
     Idle s ∧ (s.team 0).st = .saved ∧ (s.team 0).reports ≠ [] ∧ ∀ r, r ∈ (s.team 0).reports → r.sent = true) ∧
    (let s := wMs .missed (aSeg .resident 4 [1])
     Idle s ∧ (s.team 0).st = .missed ∧ (s.team 0).missSeg = some 7 ∧ SMap.find s.segs 7 = some (aSeg .resident 4 [1]) ∧ s.missFails (s.team 0) (aSeg .resident 4 [1]) = true ∧ s.saveReady 0 = true) ∧
    (let s := wMs .saving (aSeg .mirrored 0 [])
     Idle s ∧ (s.team 0).st = .saving ∧ (s.team 0).missSeg ≠ none ∧ s.saveReady 0 = true ∧ s.boot.savesHeld = false ∧ s.inReplay 0 = false ∧ s.spanFree 524288 (s.imageBytes 0) = true) := by
  simp only [Idle]; decide +kernel

theorem witness_StoppedTeamsGoOn_admitted :
    (∀ c, c ∈ [0, 1] → Admitted (wPg c) 0 ((wPg c).imageUnits 524288 ((wPg c).imageBytes 0) true)) ∧
    (let s := wMs .saving (aSeg .mirrored 0 []); Admitted s 0 (s.imageUnits 524288 (s.imageBytes 0) true) ∧ s.vfOf 0 = 0) ∧
    Admitted wMi 0 (wMi.imageUnits 524288 (wMi.imageBytes 0) true) ∧ wMi.vfOf 0 = 0 ∧ ∀ c, c ∈ [0, 1] → (wPg c).vfOf 0 = 0 :=
  ⟨fun c hc => admitted _ _ _ (by simp only [Open]; revert c; decide +kernel), ⟨admitted _ _ _ (by simp only [Open]; decide +kernel), by decide +kernel⟩,
    admitted _ _ _ (by simp only [Open]; decide +kernel), by decide +kernel, by decide +kernel⟩

/-- The team with a kernel that runs for ten ticks or forever, or may be restarted, and in a state of its life. -/
def wPr (dur : Nat) (restart : Bool) (st : TeamState) : State :=
  wAp (wTeam (fun t => { t with st := st, kernel := { t.kernel with dur := dur, restart := restart } })
    { wK with launches := [(0, { aLaunch 4 with graph := false })], parts := [(0, Part.zero)] })

theorem witness_PreemptionSavesAndRestores :
    (∀ s, s ∈ [wPr 10 false .running, wPr 0 true .running, wPr 0 false .running] → (SMap.find s.teams 0).isSome = true ∧ s.inReplay 0 = false ∧
      (s.team 0).st = .running ∧ s.boot.savesHeld = false) ∧
    (let s := wPr 10 false .running; (s.team 0).kernel.dur ≠ 0 ∧ (s.ctx 0).stopd = false ∧ (s.team 0).kernel.dur - s.elapsed (s.team 0) ≤ 10) ∧
    (let s := wPr 0 true .running; (s.team 0).kernel.dur = 0 ∧ (s.team 0).kernel.restart = true ∧ (s.team 0).dirty = false ∧
      s.elapsed (s.team 0) < 2 * ((s.imageBytes 0 + s.savebw 0 - 1) / s.savebw 0)) ∧
    (let s := wPr 0 false .running; (s.team 0).kernel.dur = 0 ∧ (s.team 0).kernel.restart = false) ∧
    (let s := wPr 0 true .flushing; (s.team 0).st = .flushing ∧ s.busy 0 = false ∧ s.allStopped 0 = true ∧ s.faultless 0 = true ∧
      (SMap.find s.launches 0).map (fun x => x.graph) = some false ∧ (SMap.find s.ctxs 0).isSome = true) ∧
    (let s := wPr 0 true .saving; (s.team 0).st = .saving ∧ s.saveReady 0 = true ∧ s.spanFree 524288 (s.imageBytes 0) = true ∧ (s.team 0).groups = 0 :: [] ∧ s.vfOf 0 = 0) := by decide +kernel

theorem witness_PreemptionSavesAndRestores_save :
    let s := wPr 0 true .saving; Admitted s 0 (s.imageUnits 524288 (s.imageBytes 0) true) :=
  admitted _ _ _ (by simp only [Open]; decide +kernel)

/-- The team saved with its group, whose core is free, and the header of its image, in layout 1 and with a number of registers' bytes. -/
def anImg : SavedTeam := { area := 524288, groups := [(0, placeGroup)], queue := [] }
def wSv (regs : Nat) : State :=
  let s := wAp (wTeam (fun t => { t with st := .saved, saved := some anImg }) { wK with groups := [], parts := [(0, { Part.zero with facets := 1 })] })
  { s with
    boot := { s.boot with layouts := [1] }
    mem := putAll s.mem [(524288, 1, 2), (524324, 1, 1), (524336, regs, 4), (524352, regs, 4), (524364, regs, 4), (524368, regs, 4)] }

theorem witness_PreemptionSavesAndRestores_restore :
    (∀ n, n ∈ [1280, 1284] → (SMap.find (wSv n).teams 0).isSome = true ∧ (wSv n).inReplay 0 = false ∧ ((wSv n).team 0).st = .saved ∧ ((wSv n).team 0).saved = some anImg ∧
      (anImg.groups.map Prod.fst).Nodup ∧ (wSv n).ops = [] ∧ (wSv n).imageOk 0 = decide (n = 1280)) ∧
    (let s := wSv 1280; s.pagesBack 0 = true ∧ (s.team 0).reports = [] ∧ s.savedNeeds (s.team 0) = [] ∧
      (s.bestCore (s.savedClusters (s.team 0)) (s.team 0).kernel (s.team 0).items.length (fun _ => true)).isSome = true ∧
      s.vfOf 0 = 0) := by decide +kernel

theorem witness_PreemptionSavesAndRestores_restored :
    let s := wSv 1280; Admitted s 0 (s.imageUnits anImg.area (Memory.readN s.mem (anImg.area + 48) 4) false) :=
  admitted _ _ _ (by simp only [Open]; decide +kernel)

/-- Barriers 0 to 3 of a team and its partner's, if any: a complete phase of two, one arrival of two, one of 127 arrivals, and none. -/
def wBr (mate : Bool) : State :=
  { wK with
    teams := if mate then [(0, wK.team 0), (1, { wK.team 0 with teamid := 1, groups := [] })] else [(0, wK.team 0)]
    mem := [scratchKey 0, scratchKey 1].foldl (fun m a => Memory.writeN (Memory.writeN (Memory.writeN m
      a (barBits { phase := 255, cnt := 2, arr := 2, fixed := false, pend := 0, rsv := 0 }).toNat 8)
      (a + 8) (barBits { phase := 0, cnt := 2, arr := 1, fixed := true, pend := 0, rsv := 0 }).toNat 8)
      (a + 16) (barBits { phase := 0, cnt := 127, arr := 126, fixed := true, pend := 0, rsv := 0 }).toNat 8) wK.mem }

theorem witness_BarrierSteps :
    (∀ b, b ∈ [false, true] → (SMap.find (wBr b).teams 0).isSome = true ∧ ((wBr b).team 0).st = .running ∧ ((wBr b).team 0).barOwed = [] ∧
      (wBr b).mateOf 0 = (if b then some 1 else none) ∧ (wBr b).mateDue 0 = false) ∧
    (let s := wBr true
     ((s.bar 0 0).cnt ≠ 0 ∧ (s.bar 0 0).arr = (s.bar 0 0).cnt ∧ (s.bar 0 0).pend = 0) ∧
     (SMap.find s.teams 1).isSome = true ∧ (s.team 1).saved = none ∧ (s.team 1).barOwed = [] ∧
     (∀ k, k ∈ [0, 2] → let n := BitVec.ofNat 32 k; n.toNat ≤ 64 ∧ (if n = 0 then (s.bar 1 1).cnt else n.toNat) = (s.bar 1 1).cnt ∧ (s.bar 1 1).cnt ≠ 0 ∧
       (s.bar 1 1).arr ≠ (s.bar 1 1).cnt ∧ (s.bar 1 1).arr < 127) ∧
     (s.bar 1 3).cnt = 0 ∧ (s.bar 1 2).cnt = 127 ∧ (s.bar 1 2).arr = 126 ∧ (SMap.find s.groups 0).isSome = true ∧ 64 < (65 : Word).toNat ∧
     (s.bar 1 1).cnt ≠ (1 : Word).toNat) := by decide +kernel

/-! The units at work. -/

def aCopy (xs : List Xfer) (done : CopyDone) : Copy :=
  { gid := 0, team := 0, ctx := 0, core := 0, pol := 0, pos := { pa := 131072, w := 0 }, size := 4, scope := 0, ends := [(0, 132096, 132128)],
    xfers := xs, done := done, path := [], halt := false, late := 0 }
def wCp (c : Copy) : State := { wD oLd with ops := [], copies := [(3, c)] }
def aXfer : Xfer := { lane := 0, lanes := [0], chunk := 0 }
def aTouch (key : Nat) (wr : Bool) (a : Nat) : Touch :=
  { addr := BitVec.ofNat 64 a, key := key, n := 4, home := .slice 8, slot := none, wr := wr, page := some (31, 30, false), va := a }

theorem plain (s : State) (t : Touch) (k : Nat) (h1 : t.home = .slice k) (h2 : SMap.find s.dir (lineOf t.key) = none)
    (h3 : SMap.getD s.crypt (lineOf t.key) [] = s.keyPair t.slot) : Plain s t :=
  ⟨fun h => by simp [h1], fun id => by simp [h2], h3, fun m hm => by simp [h1] at hm⟩

/-- A state with no line stored under a key has its tables stored in clear. -/
theorem tablesClear (s : State) (c : CtxRec) (l : List Nat) (h : s.crypt = []) : TablesClear s c l := by
  intro _ _ a _
  simp [h, SMap.getD, SMap.find]

/-- An empty cache holds no copy of a peer's line. -/
theorem native (s : State) (a : Nat) (h : s.l2 = []) : Native s a := by
  intro l hl
  simp [h, SMap.find] at hl

set_option maxRecDepth 20000 in
theorem witness_CopyAtWork (d : CopyDone) (h : d ∈ [CopyDone.token 40 1, .bar 0]) :
    let c := aCopy [aXfer] d
    let s := wCp c
    SMap.find s.copies 3 = some c ∧ c.halt = false ∧ c.xfers = aXfer :: [] ∧ c.lanesOf aXfer = [(0, 132096, 132128)] ∧ c.size % 4 = 0 ∧
    (s.core c.core).xferAt ≤ s.cycle (s.clockOf (c.core / 12)) ∧
    s.xferPlaces c aXfer = [(0, 132096, .ok (aTouch 132096 false 132096)), (0, 132128, .ok (aTouch 132128 true 132128))] ∧
    s.touchFault (aTouch 132096 false 132096) = none ∧ s.touchFault (aTouch 132128 true 132128) = none ∧
    Plain s (aTouch 132096 false 132096) ∧ Plain s (aTouch 132128 true 132128) ∧ (∀ a, Native s a) ∧
    s.engineWaits 3 c.gid c.path [aTouch 132096 false 132096, aTouch 132128 true 132128] = false ∧ Writable s c.team 132128 ∧
    AtHand s c.team [aTouch 132096 false 132096, aTouch 132128 true 132128] ∧
    Admitted s (s.vfOf (s.team c.team).ctx) (s.walkUnits (s.team c.team) (pagesOf [aTouch 132096 false 132096, aTouch 132128 true 132128]) ++
      (s.sideUnits [aTouch 132096 false 132096] ++ s.sideUnits [aTouch 132128 true 132128])) ∧
    (aTouch 132128 true 132128).key + (aTouch 132128 true 132128).n ≤ scratchKey 0 := by
  simp only [List.mem_cons, List.not_mem_nil, or_false] at h
  rcases h with rfl | rfl <;>
    exact ⟨by decide +kernel, rfl, rfl, rfl, rfl, by decide +kernel, rfl, by decide +kernel, by decide +kernel,
      plain _ _ 8 rfl (by decide +kernel) (by decide +kernel), plain _ _ 8 rfl (by decide +kernel) (by decide +kernel), fun a => native _ a rfl, by decide +kernel,
      writable _ _ _ (by decide +kernel), .inr ⟨by decide +kernel, tablesClear _ _ _ rfl⟩, admitted _ _ _ (by simp only [Open]; decide +kernel), by decide +kernel⟩

/-- A window that a peer's counter lies in, with AT. -/
def wCw : State :=
  let s := wTeam (fun t => { t with crec := { t.crec with winbase := 196608, winlen := 2 } }) (wCp (aCopy [] (.ctr 0x8000000000000000)))
  { s with fleet := { s.fleet with planeen := 0 }, mem := Memory.writeN s.mem 196608 (2 ^ 96 + 2 ^ 99 + 31 * 2 ^ 144) 32 }

/-- A copy of system scope that owes an acknowledgement, and one that does not. -/
theorem witness_CopyAtWork_owes (l : List (Nat × Nat)) (h : l ∈ [[(3, 0)], [(2, 0)]]) :
    let c := { aCopy [] (.bar 0) with scope := 3 }
    let s := { wCp c with invals := l }
    SMap.find s.copies 3 = some c ∧ c.xfers = [] ∧ c.scope = 3 ∧ ((∃ y, y ∈ s.invals ∧ y.1 = 3) ↔ l = [(3, 0)]) := by
  revert l; decide +kernel

set_option maxRecDepth 20000 in
theorem witness_CopyAtWork_done :
    (∀ d, d ∈ [CopyDone.token 40 1, .bar 0, .ctr 132096] → SMap.find (wCp (aCopy [] d)).copies 3 = some (aCopy [] d) ∧
      (SMap.find (wCp (aCopy [] d)).groups (aCopy [] d).gid).isSome = true) ∧
    (let c := aCopy [] (.ctr 132096)
     let s := wCp c
     s.counterPlace c 132096 = .at' 132096 (.slice 8) none (some (31, 30, false)) ∧
     Admitted s (s.vfOf c.ctx) (s.walkUnits (s.team c.team) [(adOfs 132096, (31, 30, false))])) ∧
    (let c := aCopy [] (.ctr 0x8000000000000000)
     SMap.find wCw.copies 3 = some c ∧ (match wCw.counterPlace c 0x8000000000000000 with | .peer h _ => h == 0 | _ => false) = true) :=
  ⟨by decide +kernel, ⟨rfl, admitted _ _ _ (by simp only [Open]; decide +kernel)⟩, by decide +kernel⟩

/-- A matrix word at the head of cluster 0's queue, of a team with 192 KiB of scratchpad. -/
def aMx (k : MxKind) (row : Nat) (buf : List Word) : MxWord :=
  { row := row, buf := buf, id := 5, team := 0, gid := 0, pos := { pa := 131072, w := 0 }, pol := 0, kind := k, path := [], halt := false }
def wMx (w : MxWord) : State := wTeam (fun t => { t with kernel := { t.kernel with scratch := 768 } }) { wM with clusters := [(0, { ClusterSt.zero with queue := [w] })] }
def mxBase : DWord := 0x1000000000000040
def rowTouch (wr : Bool) (k : Nat) : Touch :=
  { addr := mxBase + BitVec.ofNat 64 (64 * k), key := scratchKey 0 + 64 + 64 * k, n := 64, home := .scratch 0, slot := none, wr := wr, page := none, va := 64 + 64 * k }

theorem witness_MatrixUnitAtWork :
    (∀ w, w ∈ [aMx (.zero 3 .i32) 0 [], aMx (.store 3 mxBase 8) 128 [], aMx (.scale mxBase 0) 0 [], aMx (.scale mxBase 3) 2 []] →
      (SMap.find (wMx w).teams 0).isSome = true ∧ w.team = 0 ∧ (wMx w).portWord 0 = some w ∧ 3 < ((wMx w).team 0).tiles.length) ∧
    (∀ k, k ∈ [MxKind.load 3 mxBase 8 .i32, .store 3 mxBase 8, .scale mxBase 1] → let w := aMx k 1 [];
      (wMx w).portWord 0 = some w ∧ w.row < w.kind.rows ∧ (∀ y, y ∈ ((wMx w).cluster 0).queue → y.id = w.id → y = w) ∧ w ∈ ((wMx w).cluster 0).queue) ∧
    (∀ t : MxKind, t ∈ [MxKind.steps 0 1 2 0 1 1 0 1] → let w := aMx t 0 []; (wMx w).nextWord 0 ((wMx w).cluster 0).lastStep (fun y => y.kind.isSteps) = some w ∧
      ((wMx w).cluster 0).stepFree ≤ (wMx w).cycle ((wMx w).clockOf 0) ∧ 0 < ((wMx w).team 0).tiles.length) ∧
    (∀ b, b ∈ [true, false] → let w := aMx (.fence 40) 0 []; let s := wTeam (fun t => { t with mdead := b }) (wMx w);
      (SMap.find s.teams 0).isSome = true ∧ (s.team 0).cluster = 0 ∧ (s.cluster 0).queue.find? (fun y => y.team == 0) = some w ∧
      (s.team 0).mxFree ≤ s.cycle (s.clockOf 0) ∧ (SMap.find s.groups w.gid).isSome = true ∧ (s.team 0).mdead = b ∧ (s.team 0).mstSys = false) ∧
    (let w := aMx (.fence 40) 0 []; let s := wTeam (fun t => { t with mstSys := true }) { wMx w with invals := [(3, 0)] }; (s.team 0).mstSys = true ∧ 3 < w.id ∧ 0 ∈ (s.team 0).groups) := by decide +kernel

/-- A load whose rows have all come, with a buffer of 16,384 words. -/
theorem witness_MatrixUnitAtWork_loaded :
    let w := aMx (.load 3 mxBase 8 .i32) 128 (List.replicate 16384 7)
    w.row = 128 ∧ 3 < ((wMx w).team 0).tiles.length ∧ w.buf.length = 16384 ∧ (wMx (aMx (.load 3 mxBase 8 .i32) 128 [])).portWord 0 = some (aMx (.load 3 mxBase 8 .i32) 128 []) :=
  ⟨rfl, by decide +kernel, List.length_replicate .., by decide +kernel⟩

theorem plainScratch (s : State) (t : Touch) (h1 : t.home = .scratch 0) (h2 : SMap.find s.dir (lineOf t.key) = none)
    (h3 : SMap.getD s.crypt (lineOf t.key) [] = s.keyPair t.slot) (h4 : scratchKey 0 + 8 * (s.team 0).kernel.barriers ≤ t.key) : Plain s t := by
  refine ⟨fun h => by simp [h1], fun id => by simp [h2], h3, fun m hm => ?_⟩
  rw [h1] at hm
  cases hm
  exact h4

theorem witness_MatrixUnitAtWork_row (k : MxKind) (wr : Bool) (h : (k, wr) ∈ [(MxKind.load 3 mxBase 8 .i32, false), (.store 3 mxBase 8, true)]) :
    let w := aMx k 0 []
    let s := wMx w
    (∀ j, j < 8 → Plain s (rowTouch wr j) ∧ (rowTouch wr j).key = scratchKey 0 + 64 + 64 * j ∧ (rowTouch wr j).wr = w.kind.isStore ∧
      s.touchFault (rowTouch wr j) = none) ∧ (∀ a, Native s a) ∧ (∀ j, j < 8 → Writable s 0 (rowTouch wr j).key) ∧
    s.engineWaits w.id w.gid w.path ((List.range 8).map (rowTouch wr)) = false ∧
    s.rowPlaces w (w.kind.rowBase w.row) w.kind.isStore = (List.range 8).map (fun j => (0, w.kind.rowBase w.row + BitVec.ofNat 64 (64 * j), .ok (rowTouch wr j))) ∧
    AtHand s 0 ((List.range 8).map (rowTouch wr)) ∧
    Admitted s (s.vfOf (s.team 0).ctx) (s.walkUnits (s.team 0) (pagesOf ((List.range 8).map (rowTouch wr))) ++
      (List.range 8).flatMap (fun j => s.sideUnits [rowTouch wr j])) := by
  have p : ∀ w, ∀ j, j < 8 → SMap.find (wMx w).dir (lineOf (rowTouch wr j).key) = none ∧ SMap.getD (wMx w).crypt (lineOf (rowTouch wr j).key) [] = [] :=
    fun _ _ _ => ⟨rfl, rfl⟩
  simp only [List.mem_cons, Prod.mk.injEq, List.not_mem_nil, or_false] at h
  rcases h with h | h <;> obtain ⟨rfl, rfl⟩ := h <;>
    exact ⟨fun j hj => ⟨plainScratch _ _ rfl (p _ j hj).1 (p _ j hj).2 (Nat.le_trans (by decide +kernel) (Nat.le_add_right (scratchKey 0 + 64) (64 * j))),
      rfl, rfl, (by decide +kernel : ∀ j, j < 8 → State.touchFault _ (rowTouch _ j) = none) j hj⟩, fun a => native _ a rfl,
      fun j hj => writable _ _ _ ((by decide +kernel : ∀ j, j < 8 → State.replayOf _ 0 = none ∧ State.pageBusy _ ((rowTouch _ j).key / 65536) = false) j hj),
      by decide +kernel, rfl, .inr ⟨by decide +kernel, tablesClear _ _ _ rfl⟩, admitted _ _ _ (by simp only [Open]; decide +kernel)⟩

/-- A segment of one unit in each state, in the memory of cluster 0 or the chip scratchpad, with its mirror at 1 MiB. -/
def aSg (chip : Bool) (st : SegState) (att : List Nat) (z : Option (Nat × Nat)) : Seg :=
  { aSeg st 0 att with chip := chip, units := 1, mirror := 1048576, zeroing := z }
def wSg (g : Seg) : State :=
  { wK with
    segs := [(7, g)], parts := [(0, { Part.zero with facets := 1 })], ticket := 8
    apers := (List.range 16 ++ (List.range 16).map (768 + ·)).map (fun k => (64 * k, { aAper with left := 128 })) }

theorem witness_SegmentUnitAtWork :
    (∀ b, b ∈ [false, true] → SMap.find (wSg (aSg b .resident [] (some (0, 40)))).segs 7 = some (aSg b .resident [] (some (0, 40))) ∧
      (SMap.find (wSg (aSg b .resident [] (some (0, 40)))).groups 0).isSome = true) ∧
    (let s := { wSg (aSg false .resident [] none) with teams := [] }; SMap.find s.segs 7 = some (aSg false .resident [] none)) ∧
    (let s := wTeam (fun t => { t with st := .saved }) (wSg (aSg false .resident [0] none)); ∀ t, t ∈ (aSg false .resident [0] none).attached → (s.team t).st = .saved) ∧
    (let g := aSg false .evicting [] none; g.waiters = [] ∧ Memory.wf (wSg g).mem = true ∧ g.mirror + 65536 * g.units ≤ 549755813888) ∧
    (∀ b, b ∈ [false, true] → let g := aSg b .mirrored [] none; ((wSg g).restorePlace g 0).isSome = true) ∧
    (let g := aSg false .restoring [] none; g.waiters = [] ∧ Memory.wf (wSg g).mem = true ∧ g.mirror % 64 = 0 ∧ g.mirror + 65536 * g.units ≤ 549755813888 ∧
      (wSg g).crypt = [] ∧ (wSg g).dir = [] ∧ (wSg g).l2 = []) := by decide +kernel

/-- Of the 1,024 lines of a unit, 64 lie at each slice, and 64 at each bank of the chip scratchpad. -/
def each (base : Nat) : List (Nat × Nat) := (List.range 16).map (fun k => (base + k, 64))

set_option maxRecDepth 20000 in
theorem segUnits :
    (let g := aSg true .resident [] (some (0, 40)); sumUnits ((List.range g.lines).flatMap ((wSg g).chipUnit g)) = each 0) ∧
    (let g := aSg false .evicting [] none; (wSg g).segUnits g true = each 0) ∧
    (let g := aSg false .restoring [] none; (wSg g).segUnits g false = each 0 ++ each 768) :=
  ⟨by decide +kernel, by decide +kernel, by decide +kernel⟩

theorem witness_SegmentUnitAtWork_admitted :
    (let g := aSg true .resident [] (some (0, 40)); Admitted (wSg g) g.vf (sumUnits ((List.range g.lines).flatMap ((wSg g).chipUnit g)))) ∧
    (let g := aSg false .evicting [] none; (∀ a, Native (wSg g) a) ∧ Admitted (wSg g) g.vf ((wSg g).segUnits g true)) ∧
    (let g := aSg false .restoring [] none; Admitted (wSg g) g.vf ((wSg g).segUnits g false)) := by
  refine ⟨?_, ⟨fun a => native _ a rfl, ?_⟩, ?_⟩
  · simp only [segUnits.1]; exact admitted _ _ _ (by simp only [Open]; decide +kernel)
  · simp only [segUnits.2.1]; exact admitted _ _ _ (by simp only [Open]; decide +kernel)
  · simp only [segUnits.2.2]; exact admitted _ _ _ (by simp only [Open]; decide +kernel)

/-- The context with a bucket, the facets in which a Stop stands, and charges on their way, the last of them a correction. -/
def aCtx (cap refill : Nat) (level resume : Int) (stopd : Bool) (held : List (Nat × Nat)) (arr : List Landing) : Ctx :=
  { placeCtx with cap := cap, refill := refill, level := level, resume := resume, stopd := stopd, held := held, arriving := arr }
def wCt (k : Ctx) : State := { wK with ctxs := [(0, k)], parts := [(0, { Part.zero with facets := 1 })] }
def come (cyc : Nat) (u : Int) (corr : Bool) : Landing := { cyc := cyc, units := u, corr := corr, ev := none }

/-- What lands now of three landings: the two whose cycles have come. -/
def arr3 : List Landing := [come 0 2 false, come 0 2 true, come 9 7 false]
theorem witness_EnergyStopsAndResumes :
    (∀ v : Int, v ∈ [5, 4] → let k := aCtx 100 10 v 0 false [] arr3; let s := wCt k;
      let here := k.arriving.filter (fun l => decide (l.cyc ≤ s.cycle (.facets k.part)))
      let sum : Int := (here.map Landing.units).foldl (· + ·) 0
      SMap.find s.ctxs 0 = some k ∧ k.writes = [] ∧ here = [come 0 2 false, come 0 2 true] ∧ (∀ l, l ∈ here → 0 ≤ l.units) ∧ k.level - sum ≥ -(2 ^ 63 * 256) ∧
      (v = 5 → 0 < k.level - sum) ∧ (v = 4 → k.cap ≠ 0 ∧ k.enf = true ∧ k.stopd = false ∧ k.level - sum ≤ 0) ∧ (s.part k.part).facetList = [0]) ∧
    (let k := aCtx 100 10 0 0 true [(0, 9)] []; SMap.find k.held 0 ≠ none ∧ ((wCt k).team ((wCt k).grp 0).team).ctx = 0 ∧ ((wCt k).grp 0).facet = 0) ∧
    (∀ n, n ∈ [0, 10] → let k := aCtx 100 10 0 n true [(0, 9)] []; (wCt k).ctxIds 0 = [0] ∧ k.part = 0 ∧ k.live = true ∧ k.arriving = [] ∧ k.cap ≠ 0 ∧
      (wCt k).fleet.refillScale = none ∧ (n = 0 → k.resume * 256 < min ((k.cap * 256 : Nat) : Int) (k.level + (k.refill * 256 : Nat))) ∧
      (n = 10 → min ((k.cap * 256 : Nat) : Int) (k.level + (k.refill * 256 : Nat)) ≤ k.resume * 256)) ∧
    (let k := aCtx 100 10 0 0 false [] []; (wCt k).boot.minimal = false ∧ k.live = true ∧ 15 ≤ k.opmax ∧ k.cap ≤ 100) := by decide +kernel

theorem witness_PointsAndCorrection :
    18 ≤ 18 ∧ (wK.ctxs.map Prod.fst).Nodup ∧ wK.boot.updAct = false ∧ wK.fleet.grant = none ∧ (wK.ctxs.all (fun x => x.2.live)) = true := by decide +kernel

/-! The front end. A context table at 320 KiB, a queue table at 384 KiB, a ring at 256 KiB, descriptors from 448 KiB. -/

/-- The record of context 0, a queue's descriptor in a state of its life, and the partition that maps queue 0 in slot 0. -/
def recWord : Nat := 65536 * 2 ^ 448 + 2 ^ 326
def aQueue (st wptr : Nat) (w : Option Wait) : Queue := { Queue.zero with ring := 262144, rptr := 5, wptr := wptr, log2 := 4, st := st, wait := w }
def qPart : Part := { Part.zero with ctxtab := 327680, qtab := 393216, vfs := 1, slots := [1], facets := 1 }
def wQu (q : Queue) (packet : Nat) : State :=
  { wK with parts := [(0, qPart)], queues := [(0, q)],
            mem := Memory.writeN (Memory.writeN wK.mem 262464 packet 64) 327680 recWord 64 }

/-- A wait packet of code 1 for a word at 132,096, with a timeout of 9, and a signal packet that adds 3 there with a message. -/
def waitPk (cc : Nat) : Nat := 3 + cc * 2 ^ 10 + 9 * 2 ^ 352 + 132096 * 2 ^ 448
def sigPk : Nat := 4 + 2 ^ 9 + 2 ^ 10 + 3 * 2 ^ 384 + 132096 * 2 ^ 448
def aWait (met : Bool) : Wait := { sig := 132096, value := 0, cc := 0, irq := true, expires := some 0, met := met }

/-- Nothing is shared where no line is in the L2 or another's. -/
theorem unshared (s : State) (h : s.dir = [] ∧ s.l2 = []) : Unshared s := by
  refine ⟨fun l d hd => ?_, fun l x hx => ?_⟩
  · simp [h.1, SMap.find] at hd
  · simp [h.2] at hx

theorem witness_QueuesAndPackets_unshared (q : Queue) (n : Nat) : Unshared (wQu q n) := unshared _ ⟨rfl, rfl⟩

theorem witness_QueuesAndPackets :
    (SMap.find wK.parts 0 = none ∧ SMap.find (wQu (aQueue 1 6 none) sigPk).parts 0 = some qPart ∧ (wQu (aQueue 1 6 none) sigPk).boot.minimal = false) ∧
    (2 ^ (aQueue 1 6 none).log2 < (22 + 4294967296 - (aQueue 1 6 none).rptr) % 4294967296 ∧ (21 + 4294967296 - (aQueue 1 6 none).rptr) % 4294967296 ≤ 2 ^ (aQueue 1 6 none).log2) ∧
    (let s := wQu (aQueue 1 5 none) sigPk; s.mapped 0 0 = true ∧ s.mapped 0 1 = false ∧ (s.queue 0 0).st ≤ 1 ∧
      ((s.setQueue 0 0 { s.queue 0 0 with wptr := 6 }).packet 0 0).isSome = true ∧ (packetStep 0 0 4).isSome = true) ∧
    (∀ w, w ∈ [0, 5, sigPk] → let s := wQu (aQueue 1 6 none) w; s.fetches 0 0 = true ∧ s.packet 0 0 = some w ∧ s.queueBusy 0 0 = false) ∧
    (let s := wQu { aQueue 1 6 none with ring := 0x4000000000 } 0; s.fetches 0 0 = true ∧ s.packet 0 0 = none ∧ s.queueBusy 0 0 = false) ∧
    (∀ c, c ∈ [0, 1] → let s := wQu (aQueue 1 6 none) (waitPk c); s.packet 0 0 = some (waitPk c) ∧ s.barWaits 0 0 (waitPk c) = false ∧ s.nextIs 0 0 3 = true ∧
      fld (waitPk c) 12 340 = 0 ∧ fld (waitPk c) 448 64 % 8 = 0 ∧ s.feKey 0 (s.queueRec 0 (s.queue 0 0)) (fld (waitPk c) 448 64) .load = some (132096, none) ∧ s.crypt = [] ∧
      (s.mons.filter (fun m => sliceOfKey m.key == sliceOf 132096)).length < 4096 ∧ isHbm 132096 = true) ∧
    (let s := wQu (aQueue 1 6 none) (waitPk 0 + 2 ^ 12); s.packet 0 0 = some (waitPk 0 + 2 ^ 12) ∧ s.nextIs 0 0 3 = true ∧ fld (waitPk 0 + 2 ^ 12) 12 340 ≠ 0) ∧
    (let s := wQu (aQueue 1 6 none) sigPk; s.packet 0 0 = some sigPk ∧ s.barWaits 0 0 sigPk = false ∧ s.nextIs 0 0 4 = true ∧ fld sigPk 12 340 = 0 ∧ fld sigPk 352 32 = 0 ∧
      fld sigPk 10 2 < 2 ∧ fld sigPk 448 64 % 8 = 0 ∧ s.feKey 0 (s.queueRec 0 (s.queue 0 0)) (fld sigPk 448 64) .rmw = some (132096, none) ∧ s.pageBusy 2 = false ∧ s.dir = [] ∧
      s.crypt = [] ∧ 132104 ≤ qPart.qtab) := by decide +kernel

theorem witness_QueuesAndPackets_waits :
    (∀ b, b ∈ [true, false] → let s := wQu (aQueue 2 6 (some (aWait b))) 0; (s.queue 0 0).st = 2 ∧ (s.queue 0 0).wait = some (aWait b) ∧ (aWait b).met = b ∧
      ((s.queue 0 0).rptr + 1) % 4294967296 = (s.queue 0 0).wptr ∧ (aWait b).expires = some 0 ∧ 0 ≤ s.now) ∧
    (∀ v, v ∈ [0x80, 0] → let y := { aWait false with value := v }; let s := wQu (aQueue 2 6 (some y)) 0; s.polls 0 0 = true ∧ (s.queue 0 0).wait = some y ∧ s.queueBusy 0 0 = false ∧
      s.feKey 0 (s.queueRec 0 (s.queue 0 0)) y.sig .load = some (132096, none) ∧ s.crypt = [] ∧ (y.cc = 0 ∧ Memory.readN s.mem 132096 8 = y.value ↔ v = 0)) ∧
    (let s := wQu (aQueue 1 5 none) 0; s.queueBusy 0 1 = false ∧ qPart.slots.getD 1 0 = 0 ∧ s.mapped 0 1 = false ∧ s.dying 0 (s.mapQueue 0 1).pasid = false ∧ (s.mapQueue 0 1).rptr = (s.mapQueue 0 1).wptr ∧
      qPart.slots.getD 0 0 = 0 + 1) := by decide +kernel

/-- A grid packet of two teams with descriptors that the rules accept or refuse, and a graph packet of one record for a table of one node. -/
def gridPk (n : Nat) : Nat := 1 + n * 2 ^ 192 + 458752 * 2 ^ 320 + 459264 * 2 ^ 384
def graphPk : Nat := 2 + 2 ^ 256 + 2 ^ 288 + 459776 * 2 ^ 320 + 460800 * 2 ^ 384
def descWord : Nat := 2 ^ 180 + 131072 + 16 * 2 ^ 224 + 2 * 2 ^ 256
def nodeWord : Nat := 1 + 32 * 2 ^ 253 + 458752 * 2 ^ 448 + 459264 * 2 ^ 384
def wGl (packet desc : Nat) : State :=
  let s := wQu (aQueue 1 6 none) packet
  { s with mem := Memory.writeN (Memory.writeN (Memory.writeN s.mem 458752 desc 64) 460800 nodeWord 64) 459776 7 4, ticket := 9 }

theorem witness_LaunchesAndRecords_grid :
    (let s := wGl (gridPk 2) descWord; let c := s.queueRec 0 (s.queue 0 0); s.packet 0 0 = some (gridPk 2) ∧ s.barWaits 0 0 (gridPk 2) = false ∧ s.nextIs 0 0 1 = true ∧
      s.feRead 0 c 458752 16 = some descWord ∧ (s.feWords 0 c 459264 (kernelOf 9 458752 descWord).args).isSome = true ∧
      gridBad (gridPk 2) (kernelOf 9 458752 descWord) = none ∧ badDesc descWord = false ∧ s.kernelBad 0 (s.readCtx 0 (s.queue 0 0).ctx) (kernelOf 9 458752 descWord) = false ∧
      (kernelOf 9 458752 descWord).chip = 0 ∧ qPart.replay.arm = false ∧ s.queueBusy 0 0 = false) ∧
    (let s := wGl (gridPk 0) descWord; s.packet 0 0 = some (gridPk 0) ∧ s.nextIs 0 0 1 = true ∧ (gridBad (gridPk 0) (kernelOf 9 458752 descWord)).isSome = true) ∧
    (let s := wGl (gridPk 2) 0; s.packet 0 0 = some (gridPk 2) ∧ s.nextIs 0 0 1 = true ∧ gridBad (gridPk 2) (kernelOf 9 458752 0) = none ∧ badDesc 0 = true ∧
      (s.feRead 0 (s.queueRec 0 (s.queue 0 0)) 458752 16 = some 0 ∧ (s.feWords 0 (s.queueRec 0 (s.queue 0 0)) 459264 (kernelOf 9 458752 0).args).isSome = true)) := by decide +kernel

theorem witness_LaunchesAndRecords_graph :
    let s := wGl graphPk descWord
    let c := s.queueRec 0 (s.queue 0 0)
    s.packet 0 0 = some graphPk ∧ s.barWaits 0 0 graphPk = false ∧ s.nextIs 0 0 2 = true ∧ fld graphPk 10 246 = 0 ∧ fld graphPk 256 16 ≠ 0 ∧ fld graphPk 272 16 < fld graphPk 256 16 ∧
    fld graphPk 384 64 % 64 = 0 ∧ (match s.readNodes 0 0 (fld graphPk 256 16) c (fld graphPk 384 64) (fld graphPk 256 16) with
      | .ok [nd] => decide (nd.kernel.record = 16 ∧ fld graphPk 288 32 ≤ nd.gcap ∧ s.activeNodes 0 < 64) && (s.feWords 0 c (fld graphPk 320 64) (fld graphPk 288 32 * nd.kernel.record / 4)).isSome
      | _ => false) = true := by decide +kernel

/-- A graph with a node of a ring of one record and a buffer of one, an emission of records for it, and the contexts' spill quota. -/
def bNode (buf : List (List Word)) (spill : List (Nat × List Word)) : Node :=
  { aNode 16 with kernel := { Kernel.zero with record := 16, cgrp := 1 }, ring := 132096, ringCap := 1, gcap := 32, buf := buf, spill := spill, since := some 0 }
def anEm (n : Nat) : Emission :=
  { launch := 0, node := 0, ctx := 0, gid := 0, pos := { pa := 131072, w := 0 }, owed := [2], recs := List.replicate n [1, 2, 3, 4] }
def wEm (nd : Node) (n : Nat) : State :=
  { wQu (aQueue 1 5 none) 0 with
    launches := [(0, { aLaunch 16 with nodes := [nd] })], emissions := [(4, anEm n)], now := 4096
    mem := Memory.writeN (wQu (aQueue 1 5 none) 0).mem 132096 (1 + 2 * 2 ^ 32 + 3 * 2 ^ 64 + 4 * 2 ^ 96) 16 }

theorem witness_LaunchesAndRecords_records :
    (∀ n, n ∈ [1, 33] → let s := wEm (bNode [] []) n;
      SMap.find s.emissions 4 = some (anEm n) ∧ (∀ x, x ∈ s.emissions → ¬ (x.1 < 4 ∧ x.2.gid = (anEm n).gid)) ∧ (∀ o, o ∈ (anEm n).owed → SMap.find s.ops o = none) ∧
      (SMap.find s.launches 0).map (fun y => (y.graph, y.nodes[0]?)) = some (true, some (bNode [] [])) ∧ s.overQuota 0 (bNode [] []) 0 n = decide (n = 33) ∧
      s.ringBusy { aLaunch 16 with nodes := [bNode [] []] } (bNode [] []) n = false ∧ ∀ z, z ∈ s.emissions → s.arrivesFirst 4 (anEm n) z = false) ∧
    (let s := { wEm (bNode [] []) 1 with ops := [(2, aStore)] }; SMap.find s.emissions 4 = some (anEm 1) ∧ ∃ o, o ∈ (anEm 1).owed ∧ SMap.find s.ops o ≠ none) ∧
    (let nd := bNode [] [(0, [1, 2, 3, 4])]; let s := wEm nd 0; s.mayRefill 0 nd = true ∧ nd.spill.length = 1 ∧ nd.lineRecs = 1 ∧ (s.part 0).refilled ≤ s.now ∧ s.queueBusy 0 0 = false ∧
      (let y := { aLaunch 16 with nodes := [nd] }; let b := s.bringLine 0 132096 .normal none false; SMap.find s.launches 0 = some y ∧ s.feKey 0 (s.launchRec y) (nd.ringAt 0) .load = some (132096, none) ∧
        b.feKey 0 (b.launchRec y) (nd.ringAt 0) .load = some (132096, none)) ∧
      s.feKey 0 (s.readCtx 0 0) (nd.ringAt 0) .load = some (132096, none) ∧ SMap.getD s.crypt (lineOf 132096) [] = s.keyPair none ∧
      (List.range (nd.kernel.record / 4)).map (fun j => BitVec.ofNat 32 (Memory.readN s.mem (132096 + 4 * j) 4)) = [1, 2, 3, 4]) ∧
    ((bNode [[1, 2, 3, 4]] []).since = some 0 ∧ (bNode [[1, 2, 3, 4]] []).timer = 0 ∧ 0 + 4096 ≤ (wEm (bNode [[1, 2, 3, 4]] []) 0).now ∧ (bNode [[1, 2, 3, 4]] []).buf ≠ []) := by
  decide +kernel

/-- A launch that is over, and one of one team that a ready context has. -/
def endLaunch : Launch := { aLaunch 16 with graph := false, nodes := [], teams := 1, next := 1, compl := 132096 }
def newLaunch : Launch := { endLaunch with next := 0, kernel := { Kernel.zero with cgrp := 1, cvreg := 8, csreg := 16, codebase := 131072 } }
def wDp (l : Launch) (cap : Nat) : State :=
  { wQu (aQueue 1 5 none) 0 with launches := [(0, l)], teams := [], groups := [], ctxs := [(0, { placeCtx with cap := cap, level := 5 })], ticket := 9 }

theorem witness_LaunchesAndRecords_dispatch :
    (let s := wDp endLaunch 100; s.launchDone 0 endLaunch = true ∧ endLaunch.replay = false ∧ endLaunch.compl % 8 = 0 ∧
      SMap.find s.launches 0 = some endLaunch ∧ s.launchOwes 0 = false ∧ s.queueBusy 0 0 = false ∧ s.feKey 0 (s.launchRec endLaunch) endLaunch.compl .rmw = some (132096, none) ∧ s.pageBusy 2 = false ∧ s.dir = [] ∧ s.crypt = [] ∧ 132104 ≤ qPart.qtab) ∧
    (let s := { wDp endLaunch 100 with invals := [(3, 0)] }; s.launchOwes 0 = true ∧ s.launchDone 0 endLaunch = true ∧ endLaunch.compl ≠ 0) ∧
    (let s := wDp endLaunch 0; (s.part 0).facets ≠ 0 ∧ ∀ c, c ∈ s.ctxIds 0 → s.ctxReady 0 c = false) ∧
    (let s := wDp newLaunch 100; (s.part 0).facets ≠ 0 ∧ s.ctxIds 0 = [0] ∧ s.ctxReady 0 0 = true ∧ (s.ctx 0).passed < (s.part 0).fb ∧ newLaunch.next < newLaunch.teams ∧
      newLaunch.kernel.segNames = [] ∧ s.segs = [] ∧ newLaunch.kernel.pair = false ∧ newLaunch.kernel.cmem = 0 ∧ newLaunch.chipSeg = none ∧ newLaunch.cmSegs = [] ∧
      newLaunch.line = [] ∧ newLaunch.again = [] ∧ newLaunch.graph = false ∧ newLaunch.replay = false ∧ s.teams = [] ∧
      (s.bestCore (s.clustersOf 0) newLaunch.kernel (newLaunch.items newLaunch.next).length (fun _ => true)).isSome = true ∧
      s.laneOff 0 newLaunch.kernel (s.readCtx 0 0).lpsize [] = some 0) := by decide +kernel

/-! Partitions, keys, boot and counters. -/

/-- Two partitions, of which the first has facet 0 and virtual function 0, and the second facet 1 and virtual function 1. -/
def wPt (p : Part) : State := { wK with parts := [(0, p), (1, { Part.zero with facets := 2, vfs := 2, keygrant := 2 })] }

theorem witness_PartitionsAndTranslations :
    (wPt qPart).boot.minimal = false ∧ ((wPt qPart).part 0).rst = 0 ∧
    (∀ v, v ∈ [2 * 2 ^ 80, 2 * 2 ^ 128, 2 * 2 ^ 256] → ∃ y, y ∈ (wPt qPart).parts ∧ y.1 ≠ 0 ∧
      (y.2.facets &&& v / 2 ^ 80 % 2 ^ 16 ≠ 0 ∨ y.2.vfs &&& v / 2 ^ 128 % 2 ^ 64 ≠ 0 ∨ y.2.keygrant &&& v / 2 ^ 256 % 2 ^ 256 ≠ 0)) ∧
    (4 < ((List.range 64).filter (fun i => (31 * 2 ^ 128 / 2 ^ 128 % 2 ^ 64).testBit i)).length) ∧ (0 / 2 ^ 80 % 2 ^ 16 ≠ qPart.facets ∧ (wPt qPart).ctxIds 0 ≠ []) ∧
    (∀ v, v ∈ [2 ^ 80 + 2 ^ 128 + 2 ^ 74] → (∀ y, y ∈ (wPt qPart).parts → y.1 ≠ 0 → ¬ (y.2.facets &&& v / 2 ^ 80 % 2 ^ 16 ≠ 0 ∨ y.2.vfs &&& v / 2 ^ 128 % 2 ^ 64 ≠ 0 ∨
      y.2.keygrant &&& v / 2 ^ 256 % 2 ^ 256 ≠ 0)) ∧ ¬ 4 < ((List.range 64).filter (fun i => (v / 2 ^ 128 % 2 ^ 64).testBit i)).length ∧ v / 2 ^ 80 % 2 ^ 16 = qPart.facets) ∧
    (∀ n, n ∈ [2, 3] → ((wPt { qPart with rst := n }).part 0).rst = n) ∧ ((wPt { qPart with invBusy := true }).part 0).invBusy = true ∧
    (wPt { qPart with invBusy := true }).owesCovered 0 = false ∧ (wPt qPart).ops = [] := by decide +kernel

/-- An access that an invalidation covers and that is not over. -/
def wOw (h : Home) : State :=
  let o := opOf (.ld 4 false) [(.v, 40)] [{ aLane 132096 .cleared with home := h }]
  { wPt { qPart with invBusy := true, invOp := 0 } with ops := [(3, o)] }

theorem witness_PartitionsAndTranslations_owed :
    (wOw (.slice 8)).owesCovered 0 = true ∧
    (let s := wOw .host; ∃ o, o ∈ s.ops ∧ o.2.cleared = true ∧ s.opPart o.2 = 0 ∧ s.opPasid o.2 = 0 ∧
      ∃ r, r ∈ o.2.lanes ∧ r.over = false ∧ r.home = .host) := by decide +kernel

def wKy (k : Keys) : State := { wPt { qPart with keygrant := 8 } with keys := k }
def aKey (op slot : Nat) (data : List Nat) (sl : List (Nat × List Nat)) : Keys :=
  { Keys.zero with busy := true, op := op, slot := slot, kdata := data, slots := sl }

/-- A busy interface, a free one, and each answer of a command: loaded, erased, halves equal, slot full, slot held, no such command. -/
theorem witness_KeysAndApertures :
    (wKy Keys.zero).boot.minimal = false ∧ Keys.zero.busy = false ∧ (∀ k, k ∈ [aKey 0 5 [1] [], aKey 1 5 [] [(5, [1])]] → (wKy k).keys.busy = true) ∧
    (let k := aKey 0 5 [] []; let d := (List.range 64).map (fun i => k.kdata.getD i 0 % 256); d.take 32 = d.drop 32) ∧
    (let k := aKey 0 5 [1] [(5, [1])]; let d := (List.range 64).map (fun i => k.kdata.getD i 0 % 256); d.take 32 ≠ d.drop 32 ∧ SMap.find k.slots k.slot = some [1]) ∧
    (∃ x, x ∈ (wKy (aKey 1 3 [] [])).parts ∧ x.2.keygrant.testBit 3 = true) ∧ 2 ≤ (aKey 2 0 [] []).op ∧
    (∀ v, v ∈ [0, 65536 * 512 + 6553] → ∀ t, t ∈ [0, 255] → ¬ (6553 < v % 65536 ∨ 512 < v / 65536 % 1024)) ∧ (6400 < 6401 % 65536 ∧ 7200 < 7201 % 65536) := by decide +kernel

/-- Cluster 0 in each power state, empty or with the team. -/
def wCl (p : PowerState) (wake : Bool) (ts : List (Nat × Team)) : State := { wK with clusters := [(0, { ClusterSt.zero with power := p, wake := wake })], teams := ts }

theorem witness_GatingBootAndUpdate :
    (let s := { wG (aSeg .resident 0 []) with teams := [] }; (s.cluster 0).power = .on ∧ s.boot.minimal = false ∧ ∃ g, g ∈ s.segs ∧ g.2.chip = false ∧ g.2.cluster = 0 ∧ g.2.st = .resident) ∧
    (let s := wCl .on false []; (s.cluster 0).power = .on ∧ (s.cluster 0).wake = false ∧ s.segs = [] ∧ s.teams = []) ∧
    (∀ p, p ∈ [PowerState.quiescing, .draining, .savingRetention, .clockGated] → (wCl p false []).quiet 0 = true ∧ (wCl p false wK.teams).quiet 0 = false ∧ p ≠ .on ∧ p ≠ .railGated) ∧
    (∀ b, b ∈ [true, false] → let s := { wCl .clockGated false [] with clusters := [(0, { ClusterSt.zero with power := .clockGated, ret := b })] }
      (s.cluster 0).power = .clockGated ∧ s.quiet 0 = true ∧ (s.cluster 0).ret = b) ∧
    ((wCl .clockGated true []).quiet 0 = true ∧ ((wCl .clockGated true []).cluster 0).wake = true) ∧ ((wCl .railGated false []).cluster 0).power = .railGated ∧
    ((wCl .waking true []).cluster 0).power = .waking ∧ State.reset.boot.released = false ∧ State.reset.boot.failcnt < 3 ∧
    (∀ b, b ∈ [true, false] → let s := { wK with boot := { Boot.zero with released := true, bootok := b, updBusy := b, updVer := b, updAct := b, minimal := b } }
      s.boot.released = true ∧ s.boot.bootok = b ∧ s.boot.updBusy = b ∧ s.boot.updVer = b ∧ s.boot.updAct = b ∧ s.boot.minimal = b) := by decide +kernel

/-- A partition in a replay with one page captured, one under way or none, in a pass, with a result. -/
def aRp (arm : Bool) (copying : List Nat) (pass result areapg : Nat) : Replay :=
  { Replay.zero with arm := arm, npass := 1, state := 2, areapg := areapg, area := 64, pages := [3], copying := copying, pass := pass, full := result == 3, launch := 0 }
def wRp (r : Replay) : State := { wK with parts := [(0, { qPart with replay := r })], launches := [(0, { endLaunch with replay := true })], teams := [] }

theorem witness_CountersAndReplay_unshared (r : Replay) : Unshared (wRp r) := unshared _ ⟨rfl, rfl⟩

theorem witness_CountersAndReplay :
    (∀ b, b ∈ [true, false] → ((wRp (aRp b [] 0 0 2)).part 0).replay.arm = b ∧ (wRp (aRp b [] 0 0 2)).boot.minimal = false ∧ (SMap.find (wRp (aRp b [] 0 0 2)).parts 0).isSome = true) ∧
    (let v := 2 ^ 63 + 2 * 2 ^ 24 + 64; v.testBit 63 = true ∧ 1 ≤ v / 2 ^ 24 % 65536 ∧ v / 2 ^ 24 % 65536 ≤ 4096 ∧ ∀ k, k < v / 2 ^ 24 % 65536 → let a := (v % 2 ^ 24 + k) * 65536
      a + 65535 < 549755813888 ∧ (a + 65535) % 34359738368 < 27000000000 ∧ qPart.facets.testBit (a / 34359738368) = true) ∧
    ((2 ^ 63 : Nat).testBit 63 = true ∧ ¬ 1 ≤ (2 ^ 63 : Nat) / 2 ^ 24 % 65536) ∧
    (∀ n, n ∈ [1, 2] → let r := aRp true [] 0 0 n; r.state = 2 ∧ 7 ∉ r.pages ∧ 7 ∉ r.copying ∧ r.full = false ∧ (r.areapg ≤ r.pages.length + r.copying.length ↔ n = 1)) ∧
    (9 ∈ (aRp true [9] 0 0 2).copying ∧ Memory.wf (wRp (aRp true [9] 0 0 2)).mem = true) ∧
    (∀ x, x ∈ [(0, 3), (1, 0), (0, 0)] → let r := aRp true [] x.1 x.2 2; let s := wRp r; (SMap.find s.launches r.launch).map (fun l => l.replay) = some true ∧ r.state = 2 ∧
      (match SMap.find s.launches 0 with | some l => s.launchDone 0 l | none => false) = true ∧ r.copying = [] ∧ Memory.wf s.mem = true ∧ r.pages.Nodup ∧
      ∀ g, g ∈ r.pages → g < 8388608 ∧ (g < r.area ∨ r.area + r.pages.length ≤ g)) := by decide +kernel

/-- A pass whose counts are still on their way, and a reset. -/
def wRs : State :=
  { wRp { aRp true [] 0 0 2 with state := 3, next := 1 } with
    apers := (List.range 16 ++ (List.range 16).map (768 + ·)).map (fun k => (64 * k, { aAper with left := 128 })) }

theorem witness_CountersAndReplay_resets :
    (let s := { wRp (aRp true [] 0 0 2) with agenda := [({ tick := 0, cyc := none }, .counterEvent 0 { ctx := 0, ev := 1, replay := true } 1)] }
     s.replayLands 0 = true ∧ (s.part 0).replay.state = 2) ∧ (wRp (aRp true [] 0 0 2)).replayLands 0 = false ∧ (aRp true [9] 0 0 2).copying ≠ [] ∧
    (let r := (wRs.part 0).replay; (SMap.find wRs.launches r.launch).map (fun l => l.replay) = some true ∧ r.state = 3 ∧ (SMap.find wRs.parts 0).isSome = true ∧
      Memory.wf wRs.mem = true ∧ r.pages.Nodup ∧ ∀ g, g ∈ r.pages → g < 8388608 ∧ (g < r.area ∨ r.area + r.pages.length ≤ g)) ∧
    (wRs.fleet.errHeld = [] ∧ wRs.fleet.held = [] ∧ wRs.fleet.certs = []) := by decide +kernel

set_option maxRecDepth 20000 in
theorem witness_CountersAndReplay_admitted :
    (let s := { wRs with parts := [(0, { qPart with replay := aRp true [] 0 0 2 })] }
     Admitted s (s.vfOf (s.replayPayer 0)) (sumUnits (s.pageUnits (65536 * 7) ((64 + 1) * 65536)))) ∧
    Admitted wRs (wRs.vfOf 0) (wRs.restoreUnits 0) :=
  ⟨admitted _ _ _ (by simp only [Open]; decide +kernel), admitted _ _ _ (by simp only [Open]; decide +kernel)⟩

/-! The fleet interface and the configuration registers. -/

/-- A meter ring with a slot free, and no partition. -/
def wFl : State := { wK with parts := [], fleet := { Fleet.zero with meter := { base := 262144, log2 := 4, wptr := 0, rptr := 0 } } }

theorem witness_ExportsAndReports :
    (wFl.now % wFl.fleet.exptNext.getD wFl.fleet.expt < wFl.fleet.exptNext.getD wFl.fleet.expt) ∧ wFl.parts = [] ∧ wFl.fleet.leaving = [] ∧ wFl.fleet.held = [] ∧
    wFl.fleet.certs = [] ∧ SMap.find wFl.fleet.vfMeters 80 = none ∧
    (wFl.fleet.meter.wptr + 4294967296 - wFl.fleet.meter.rptr) % 4294967296 < 2 ^ wFl.fleet.meter.log2 ∧ wFl.fleet.leaf < 32768 ∧ wFl.boot.minimal = false ∧
    (let s := { wFl with parts := [(0, qPart)] }; (0, qPart) ∈ s.parts ∧ qPart.vfs.testBit 0 = true) ∧
    (∀ b, b ∈ [true, false] → let s := { wFl with boot := { Boot.zero with locked := true, bootok := b } }; s.boot.locked = true ∧ s.boot.bootok = b ∧ s.boot.minimal = false ∧
      s.fleet.certs = []) := by decide +kernel

theorem find_one {α : Type} (k : Nat) (v : α) : SMap.find [(k, v)] k = some v := by simp [SMap.find]

theorem witness_CapsPlanesAndErrors :
    (let f := { Fleet.zero with demands := [(Config.fabricId, 5)] }; f.demands ≠ [] ∧ ∀ x, x ∈ f.served → SMap.find f.demands x.1 ≠ none) ∧
    (5 ≤ (7 : Nat) ∧ (7 : Nat) < 8 ∧ 3 ≤ ({ Fleet.zero with missed := 3 } : Fleet).missed) ∧
    (∀ n, n ∈ [7, 8] → let f := { Fleet.zero with retries := [(31, n)] }; 31 ∉ f.down ∧ (SMap.getD f.retries 31 0 < 8 ↔ n = 7)) ∧
    (wFl.isBad 2064 = false ∧ (wFl.fleet.badLines.filter (fun x => x.1 == sliceOf (64 * 2064))).length < 64) ∧
    (let s := { wFl with fleet := { wFl.fleet with badLines := (List.range 64).map (fun k => (8, k)) } }
     s.isBad 2064 = false ∧ 64 ≤ (s.fleet.badLines.filter (fun x => x.1 == sliceOf (64 * 2064))).length) ∧
    (let f := { Fleet.zero with errors := { base := 262144, log2 := 4, wptr := 0, rptr := 0 } }
     (f.errors.wptr + 4294967296 - f.errors.rptr) % 4294967296 < 2 ^ f.errors.log2 ∧ f.errHeld = [] ∧ ({ wFl with fleet := f }).mayWrite 262144 32 = true) := by
  refine ⟨⟨by decide, fun x hx => ?_⟩, by decide +kernel, by decide +kernel, by decide +kernel, by decide +kernel, by decide +kernel⟩
  have : x = (Config.fabricId, Config.packageFloor) := by simpa [Fleet.served, Fleet.zero, SMap.set] using hx
  subst this
  simp [find_one]

theorem witness_ConfigurationRegisters :
    (∀ b, b ∈ [true, false] → let s := { wPt qPart with boot := { Boot.zero with locked := b } }; s.boot.minimal = false ∧ s.boot.locked = b) ∧
    (∃ k, k < 8 ∧ 0x22222221 / 16 ^ k % 16 < 2) ∧ (∀ k, k < 8 → 2 ≤ 0x22222222 / 16 ^ k % 16) ∧ (SMap.find (wPt qPart).parts 0).isSome = true ∧
    (let v := 2 ^ 31 + 3; v.testBit 31 = true ∧ 2 ≤ v % 4 ∧ Keys.zero.busy = false) ∧ (SMap.find (wPt qPart).ctxs 0).isSome = true ∧
    ((wPt qPart).part 0).replay.arm = false ∧ 2 ^ 62 + 2 ^ 61 < 2 ^ 63 ∧ (2 ^ 62 + 2 ^ 61) / 2 ^ 61 % 4 = 3 ∧ (wPt qPart).fleet.held = [] ∧ (wPt qPart).fleet.certs = [] ∧
    (wPt qPart).fleet.errHeld = [] := by decide +kernel

/-! A step, the encoding and the invariants. -/

/-- A placed word with its group, and what exec answers of it on the state that issues it. -/
def wSt (w : Nat) (f : Group → Group) : State := (State.reset.placeWord w).modG f
def issuing (i : Instr) (w : Nat) (f : Group → Group) : Option State :=
  let s := wSt w f
  let set : IssueCtx := { snap := some (signedNow (s.grp 0)), w := 0, next := { pa := 131084, w := 0 }, phase := .whole }
  let walked := ({ s with cur := 0 } : State).fetchWalk 0 131072
  match exec i { ({ walked with icache := SMap.set s.icache (icKey 0 0 131072) [w, 0, 0] : State }.resign) with issue := set } with
  | .next t => some t
  | _ => none
def stepReady (w : Nat) (f : Group → Group) : Bool :=
  let s := wSt w f
  let g := s.grp 0
  decide (s.rest = none ∧ s.due = [] ∧ s.subcores = [(g.subKey, [(0, g)])] ∧ (∀ x, x ∈ s.groups → s.mayFault x.2 = true → s.ready x.2 = true) ∧
      g.block = none ∧ g.deferred = [] ∧ g.clear = none ∧ g.loopBuf = none) &&
    (match s.packetAt 0 0 (s.team 0).crec 131072 with | .ok c => c == [w % 4294967296, w / 4294967296, 0] | _ => false) && s.icache.isEmpty &&
    !isLit [w, 0, 0] 0 && !isPad [w, 0, 0] 0 && !isHeadMajor (majorOf w)

/-- A move, a jump, a vote that waits, a software trap and a word whose source is empty; each on its own in its packet. -/
theorem witness_StepRunsTheDecodedWord :
    (∀ w, w ∈ [0x0230001E, 0x10000000, 0x7A009189] → stepReady w id = true) ∧ stepReady 0x68488182 (fun g => { g with em := 1 }) = true ∧
    stepReady 0x0230001E (fun g => g.emptyS 0) = true ∧
    ((issuing (.smov 6 0 false) 0x0230001E id).map (fun t => (t.verdict, t.cur, (t.grp 0).clear)) = some (.issued, 0, none)) ∧
    ((issuing (.jmp 0 0) 0x10000000 id).map (fun t => (t.verdict, (t.grp 0).clear)) = some (.transferred, none)) ∧
    ((issuing (.trap 0x123) 0x7A009189 id).map (fun t => t.verdict) = some .trapped) ∧
    ((issuing (.smov 6 0 false) 0x0230001E (fun g => g.emptyS 0)).map (fun t => t.verdict) = some .held) ∧
    ((issuing (.voteBallot 9 4 3 false) 0x68488182 (fun g => { g.wrS 3 3 with em := 1 })).map (fun t => (t.verdict, (t.grp 0).clear)) = some (.blocked, none)) ∧
    stepReady 0x4048400C id = true ∧ ((issuing (.ldB32 9 2 0 6 false) 0x4048400C id).map (fun t => (t.verdict, (t.grp 0).clear.isSome)) = some (.issued, true)) := by
  decide +kernel

theorem witness_StepRunsTheDecodedWord_words :
    decodeWord 0x0230001E none = .ok (false, .smov 6 0 false) ∧ decodeWord 0x10000000 none = .ok (false, .jmp 0 0) ∧ decodeWord 0x7A009189 none = .ok (false, .trap 0x123) ∧
    decodeWord 0x68488182 none = .ok (false, .voteBallot 9 4 3 false) ∧ decodeWord 0x4048400C none = .ok (false, .ldB32 9 2 0 6 false) := ⟨rfl, rfl, rfl, rfl, rfl⟩

theorem witness_DecodeOfEncode :
    ([Instr.smov 6 5 true, .jmp 4 2097151, .vcmp 9 63 0 63 true true, .acp 62 62 63 63 true 62 63 true 6 2 0 3, .atomAdd 63 62 63 63 true 63 true false].all
      (fun i => i.wellFormed && i.hasWords)) = true := by decide +kernel

theorem witness_StepKeepsMemoryCanonical :
    MemInv (wSt 0x0230001E id) ∧ (match step (wSt 0x0230001E id) with | .next _ => true | _ => false) = true := by
  simp only [MemInv]; decide +kernel

theorem witness_WordsReachNoConfiguration :
    (Instr.smov 6 0 false).hasWords = true ∧ (issuing (.smov 6 0 false) 0x0230001E id).isSome = true := by decide +kernel

/-- R421: of three responses that leave router 5 in one cycle, the one whose network follows the network served last goes first, and the
network is then the one served last. -/
def splitAt (id net : Nat) : MergeEntry := { id := id, place := 5, line := 0, net := net, tags := [], val := some (anAns false) }
theorem test_router_round_robin :
    let s := { State.reset with merges := [splitAt 1 0, splitAt 2 1, splitAt 3 4], arb := [(5, 1)] }
    let w : When := { tick := 0, cyc := some (.uncore, 0) }
    let l := s.arbitrate [(0, w, .mergedResponseSplit 1), (1, w, .mergedResponseSplit 2), (2, w, .mergedResponseSplit 3)]
    l.map Prod.fst = [2, 0, 1] ∧ (s.taking 2 w (.mergedResponseSplit 3)).arb = [(5, 4)] := by decide +kernel

theorem witness_WordsAreCharged :
    Live wK ∧ (SMap.find wK.ctxs wK.myTeam.ctx).isSome = true ∧ SOk wK 1 ∧ SOk wK 63 ∧ VOk wK 0 ∧ VOk wK 63 ∧ IntTagged wK 0 ∧ wKZ.src.em = 0 ∧
    (∃ f, (Instr.saddS 63 1 1 true false, f) ∈ uniTable 63 1 1 true false) ∧ (∃ f, (Instr.vabs 63 0 true, f) ∈ vecUnTable 63 0 true 0) := by
  refine ⟨?_, ?_, ?_, ?_, ?_, ?_, ?_, by decide +kernel, ⟨_, .head _⟩, ⟨_, .head _⟩⟩ <;> (try simp only [Live, SOk, VOk, RegOk, IntTagged]) <;> decide +kernel

end Sys2Proof.Tests
end

section
/-! SUPPORT. What the issue of a word leaves as it was: each update that a word makes keeps what only the monitor and the device change, the
issue of a word keeps it where its effect does, and every word of the encoding is the issue of such a word. -/

namespace Sys2Proof.Claims

open Sys2Proof.Machine Sys2Proof.Laws

/-! ### Updates that keep the configuration -/

/-- An update of groups, teams, cores, operations, requests and steps in flight. -/
theorem Sealed.of_frame {s t : State} (h : { t with
    groups := s.groups, teams := s.teams, cores := s.cores, ops := s.ops, copies := s.copies, emissions := s.emissions, segReqs := s.segReqs,
    icache := s.icache, halves := s.halves, agenda := s.agenda, ticket := s.ticket, verdict := s.verdict } = s) : Sealed s t where
  boot := (congrArg State.boot h :)
  keys := (congrArg State.keys h :)
  access := (congrArg State.access h :)
  apers := (congrArg State.apers h :)
  exports := (congrArg State.exports h :)
  gens := (congrArg State.gens h :)
  weights := (congrArg State.weights h :)
  scale := (congrArg State.scale h :)
  fleet := (congrArg State.fleet h :)
  queues := (congrArg State.queues h :)
  msix := (congrArg State.msix h :)
  monlog := (congrArg State.monlog h :)
  power cl := (congrArg (fun u => (State.cluster u cl).power) h :)
  parts p x hx := ⟨x, (congrArg (fun u => SMap.find (State.parts u) p) h :).trans hx, rfl⟩
  energy c x hx := ⟨x, (congrArg (fun u => SMap.find (State.ctxs u) c) h :).trans hx, rfl, rfl, rfl, rfl, rfl, rfl, rfl⟩
  device a _ := (congrArg (fun u => Memory.read (State.mem u) a) h :)

theorem Sealed.refl (s : State) : Sealed s s := .of_frame rfl

theorem Sealed.trans {s t u : State} (h : Sealed s t) (k : Sealed t u) : Sealed s u where
  boot := k.boot.trans h.boot
  keys := k.keys.trans h.keys
  access := k.access.trans h.access
  apers := k.apers.trans h.apers
  exports := k.exports.trans h.exports
  gens := k.gens.trans h.gens
  weights := k.weights.trans h.weights
  scale := k.scale.trans h.scale
  fleet := k.fleet.trans h.fleet
  queues := k.queues.trans h.queues
  msix := k.msix.trans h.msix
  monlog := k.monlog.trans h.monlog
  power cl := (k.power cl).trans (h.power cl)
  parts p x hx := by
    obtain ⟨y, hy, hyx⟩ := h.parts p x hx
    obtain ⟨z, hz, hzy⟩ := k.parts p y hy
    exact ⟨z, hz, by rw [← hzy] at hyx; exact hyx⟩
  energy c x hx := by
    obtain ⟨y, hy, hcrec, hacct, hlevel, hcap, hstopd, hcorr, hfair⟩ := h.energy c x hx
    obtain ⟨z, hz, kcrec, kacct, klevel, kcap, kstopd, kcorr, kfair⟩ := k.energy c y hy
    exact ⟨z, hz, kcrec.trans hcrec, kacct.trans hacct, klevel.trans hlevel, kcap.trans hcap, kstopd.trans hstopd, kcorr.trans hcorr,
      kfair.trans hfair⟩
  device a ha := (k.device a ha).trans (h.device a ha)

/-! One more update of such a kind, or one more charge or count, keeps the configuration too. -/

section
variable {s t : State}

theorem Sealed.setGrp (h : Sealed s t) {i : Nat} {g : Group} : Sealed s (t.setGrp i g) := h.trans (.of_frame rfl)
theorem Sealed.modG (h : Sealed s t) {f : Group → Group} : Sealed s (t.modG f) := h.trans (.of_frame rfl)
theorem Sealed.modTeam (h : Sealed s t) {i : Nat} {f : Team → Team} : Sealed s (t.modTeam i f) := h.trans (.of_frame rfl)
theorem Sealed.setCore (h : Sealed s t) {i : Nat} {c : CoreSt} : Sealed s (t.setCore i c) := h.trans (.of_frame rfl)
theorem Sealed.post (h : Sealed s t) {dt : Nat} {e : Ev} : Sealed s (t.post dt e) := h.trans (.of_frame rfl)
theorem Sealed.postAt (h : Sealed s t) {k : Clock} {n : Nat} {e : Ev} : Sealed s (t.postAt k n e) := h.trans (.of_frame rfl)
theorem Sealed.tick (h : Sealed s t) : Sealed s t.tick := h.trans (.of_frame rfl)
theorem Sealed.verd (h : Sealed s t) {v : Verdict} : Sealed s (t.verd v) := h.trans (.of_frame rfl)
theorem Sealed.transfer (h : Sealed s t) {p : Pos} : Sealed s (t.transfer p) := h.modG.verd
theorem Sealed.block (h : Sealed s t) {on : BlockOn} : Sealed s (t.block on) := h.modG.verd
theorem Sealed.withOps (h : Sealed s t) {l : List (Nat × MemOp)} : Sealed s { t with ops := l } := h.trans (.of_frame rfl)
theorem Sealed.withCopies (h : Sealed s t) {l : List (Nat × Copy)} : Sealed s { t with copies := l } := h.trans (.of_frame rfl)
theorem Sealed.withEmissions (h : Sealed s t) {l : List (Nat × Emission)} : Sealed s { t with emissions := l } := h.trans (.of_frame rfl)
theorem Sealed.withSegReqs (h : Sealed s t) {l : List (Nat × SegReq)} : Sealed s { t with segReqs := l } := h.trans (.of_frame rfl)

end

end Sys2Proof.Claims

namespace Sys2Proof.Laws

open Sys2Proof.Machine Sys2Proof.Claims

/-- Charges and counts leave the accounts: a charge lands by a step of its own (R149). -/
theorem Acct.sealed {s t : State} (h : Acct s t) : Sealed s t := by
  have hctx : Sealed s { s with ctxs := t.ctxs } :=
    { Sealed.refl s with
      energy := fun c x hx => by
        have e := h.ctxs c
        rw [hx] at e
        obtain ⟨y, hy, hb⟩ := Option.map_eq_some_iff.mp e
        exact ⟨y, hy, (congrArg Ctx.crec hb :), (congrArg Ctx.acct hb :), (congrArg Ctx.level hb :), (congrArg Ctx.cap hb :),
          (congrArg Ctx.stopd hb :), (congrArg Ctx.corr hb :), (congrArg Ctx.fair hb :)⟩ }
  have e := congrArg (fun u : State => { u with ctxs := t.ctxs }) h.rest
  exact hctx.trans (.of_frame (by rw [← e]))

/-- A context asks for an operating point (R162). -/
theorem sealed_asks (s : State) (c : Nat) (f : Ctx → List (Nat × Option Nat)) :
    Sealed s (s.modCtx c (fun x => { x with asks := f x })) :=
  { Sealed.refl s with
    energy := fun d x hx => by
      simp only [State.modCtx, SMap.find_modify, hx]
      split <;> exact ⟨_, rfl, rfl, rfl, rfl, rfl, rfl, rfl, rfl⟩ }

/-- A word joins the queue of a cluster's matrix unit (R307). -/
theorem sealed_queue (s : State) (cl : Nat) (q : List MxWord) : Sealed s (s.setCluster cl { s.cluster cl with queue := q }) :=
  { Sealed.refl s with
    power := fun k => by
      by_cases hk : k = cl
      · simp [State.cluster, State.setCluster, hk]
      · simp [State.cluster, State.setCluster, SMap.getD_set_ne _ _ _ hk] }

/-- The signature of a grid is the replay's own account of its groups (R452). -/
theorem sealed_grid (s : State) (p : Nat) (f : Part → Nat) :
    Sealed s (s.modPart p (fun x => { x with replay := { x.replay with grid := f x } })) :=
  { Sealed.refl s with
    parts := fun d x hx => by
      simp only [State.modPart, SMap.find_modify, hx]
      split <;> exact ⟨_, rfl, rfl⟩ }

/-- An update of memory that leaves every byte of device memory. -/
theorem sealed_mem (s : State) (m : Memory) (h : ∀ a, a < 18446744073709551616 → Memory.read m a = Memory.read s.mem a) :
    Sealed s { s with mem := m } :=
  { Sealed.refl s with device := h }

/-- A barrier word lies in a scratchpad, beyond every byte of device memory (R105, R291). -/
theorem sealed_setBar (t b : Nat) (x : Bar) (s : State) : Sealed s (s.setBar t b x) := by
  have hkey : 18446744073709551616 ≤ scratchKey t := by unfold scratchKey; omega
  exact sealed_mem s _ fun a ha => Memory.read_writeN_out s.mem _ _ _ a (Or.inl (by omega))

/-! ### Transfers, signatures and exceptions -/

theorem sealed_counts (s : State) (l : List (Nat × Nat)) : Sealed s (s.counts l) := (acct_counts s l).sealed

theorem sealed_jump (p : Pos) (s : State) : Sealed s (s.jump p) := (Sealed.refl s).transfer.trans (sealed_counts ..)

theorem sealed_sign (e : Bool) (s : State) : Sealed s (s.sign e) := by
  unfold State.sign
  split
  · exact (Sealed.refl s).modG
  · exact .refl s

theorem sealed_branch (c : Bool) (pa : DWord) (s : State) : Sealed s (s.branch c pa) := by
  unfold State.branch
  split
  · exact (sealed_jump _ s).trans (sealed_sign ..)
  · exact sealed_sign ..

theorem sealed_tuneHalves (s : State) : Sealed s s.tuneHalves := by
  have hstep : ∀ u h, Sealed u (if u.counting h.gid && h.since.isNone then u.watchHalf h else u) := fun u h => by
    split
    · exact (Sealed.refl u).post
    · exact .refl u
  have hfold : ∀ (l : List Half) (u : State), Sealed u
      (l.foldl (fun u h => if u.counting h.gid && h.since.isNone then u.watchHalf h else u) u) := by
    intro l
    induction l with
    | nil => exact Sealed.refl
    | cons h r ih => exact fun u => (hstep u h).trans (ih _)
  exact Sealed.trans (t := { s with halves := s.halves.map (fun h => h.tune s.now (s.counting h.gid)) }) (.of_frame rfl) (hfold _ _)

theorem sealed_stopTeam (s : State) (gid : Nat) (f : FaultInfo) (bound : Pos) (hact : Bool) : Sealed s (s.stopTeam gid f bound hact) := by
  unfold State.stopTeam
  have hstop : ∀ g t m, Sealed s ((s.setGrp gid g).modTeam t m).tuneHalves := fun g t m =>
    (Sealed.refl s).setGrp.modTeam.trans (sealed_tuneHalves _)
  simp only
  split
  · exact (hstop _ _ _).post.post.tick
  · exact (hstop _ _ _).postAt

theorem sealed_takeFault (s : State) (gid : Nat) (f : FaultInfo) (bound : Pos) : Sealed s (s.takeFault gid f bound) := by
  unfold State.takeFault
  have htaken : ∀ t, Sealed s (((s.count t 0x16 1).modTeam t Team.unsave).verd .trapped) := fun t =>
    (acct_count s t 0x16 1).sealed.modTeam.verd
  simp only
  split
  · split
    · exact (htaken _).setGrp.trans (sealed_tuneHalves _)
    · exact (htaken _).setGrp.trans (sealed_stopTeam ..)
  · exact (htaken _).trans (sealed_stopTeam ..)

theorem sealed_issueFault (s : State) (f : FaultInfo) : Sealed s (s.issueFault f) :=
  (acct_charge s _ _ _ _).sealed.trans (sealed_takeFault ..)

/-! ### The issue of a word -/

theorem sealed_begin (s : State) (sp : WordSpec) : Sealed s (s.begin sp) := by
  have hacct : Sealed s ((s.charge s.myTeam.ctx s.g.facet (sp.classes s) (some (s.inReplay s.g.team))).counts (sp.evs s)) :=
    (acct_charge s _ _ _ _).sealed.trans (sealed_counts ..)
  unfold State.begin
  simp only
  split
  · exact hacct.verd.modTeam
  · exact hacct.verd

theorem sealed_hold (s : State) (sp : WordSpec) : Sealed s (s.hold sp) := by
  unfold State.hold
  split
  · exact (acct_count ..).sealed.verd
  · exact (Sealed.refl s).verd

/-- An outcome whose next state, where it answers one, keeps the configuration. -/
structure SealedNext (s : State) (o : Host.Outcome State Fault Refusal) : Prop where
  next : ∀ t, o = .next t → Sealed s t

theorem sealedNext_next {s t : State} (h : Sealed s t) : SealedNext s (.next t) :=
  ⟨fun _ ht => Host.Outcome.next.inj ht ▸ h⟩

/-- The issue of a word keeps the configuration where its effect does, and what its waiting leaves. -/
theorem issueWord_sealed {sp : WordSpec} {eff : State → State} {s : State} (hwait : ∀ u, Sealed u (sp.onWait u))
    (heff : ∀ u, Sealed u (eff u)) : SealedNext s (issueWord sp eff s) := by
  have hverd : ∀ v, Sealed s (s.verd v) := fun _ => (Sealed.refl s).verd
  unfold issueWord
  split
  · exact sealedNext_next (hverd _)
  · split
    · exact sealedNext_next ((hverd _).trans (heff _))
    · split
      case h_1 =>
        refine sealedNext_next ?_
        split
        · exact hverd _
        · exact sealed_begin s sp
        · exact (sealed_begin s sp).trans (heff _)
      case h_2 => exact sealedNext_next (sealed_hold s sp)
      case h_3 => exact sealedNext_next (hwait s).verd
      case h_4 => exact sealedNext_next (sealed_issueFault ..)
      case h_5 =>
        refine sealedNext_next ?_
        split
        · exact hverd _
        · exact sealed_issueFault ..

end Sys2Proof.Laws
end

section
/-! SUPPORT. The words, family by family: the issue of each keeps the configuration, since its effect does. -/

namespace Sys2Proof.Laws

open Sys2Proof.Machine Sys2Proof.Claims

/-! ### Uniform and vector words -/

theorem sealed_wrS (d : Nat) (x : Word) (s : State) : Sealed s (s.wrS d x) := (Sealed.refl s).modG

theorem sealed_wrSPair (d : Nat) (x : DWord) (s : State) : Sealed s (s.wrSPair d x) := (Sealed.refl s).modG

theorem sealed_wrV (d : Nat) (t : Tag) (m : Word) (f : Nat → Word) (s : State) : Sealed s (s.wrV d t m f) := (Sealed.refl s).modG

theorem sealed_laneWr (d : Nat) (t : Tag) (em : Word) (f : Nat → Word) (s : State) : Sealed s (s.laneWr d t em f) := by
  unfold State.laneWr
  split
  · exact .refl s
  · exact sealed_wrV ..

theorem sealed_laneWrS (d : Nat) (em x : Word) (s : State) : Sealed s (s.laneWrS d em x) := by
  unfold State.laneWrS
  split
  · exact .refl s
  · exact sealed_wrS ..

theorem wrS_sealed {sp : WordSpec} {d : Nat} {x : Word} {s : State}
    (hwait : ∀ u, Sealed u (sp.onWait u) := by exact Sealed.refl) :
    SealedNext s (issueWord sp (State.wrS d x) s) := issueWord_sealed hwait (sealed_wrS d x)

theorem wrSPair_sealed {sp : WordSpec} {d : Nat} {x : DWord} {s : State}
    (hwait : ∀ u, Sealed u (sp.onWait u) := by exact Sealed.refl) :
    SealedNext s (issueWord sp (State.wrSPair d x) s) := issueWord_sealed hwait (sealed_wrSPair d x)

theorem laneWr_sealed {sp : WordSpec} {d : Nat} {t : Tag} {em : Word} {f : Nat → Word} {s : State}
    (hwait : ∀ u, Sealed u (sp.onWait u) := by exact Sealed.refl) :
    SealedNext s (issueWord sp (State.laneWr d t em f) s) := issueWord_sealed hwait (sealed_laneWr d t em f)

theorem laneWrS_sealed {sp : WordSpec} {d : Nat} {em x : Word} {s : State}
    (hwait : ∀ u, Sealed u (sp.onWait u) := by exact Sealed.refl) :
    SealedNext s (issueWord sp (State.laneWrS d em x) s) := issueWord_sealed hwait (sealed_laneWrS d em x)

/-- A word that writes its two halves to a pair of vectors (R228, R250). -/
theorem lanePair_sealed {sp : WordSpec} {d e : Nat} {t u : Tag} {em : Word} {f g : Nat → Word} {s : State}
    (hwait : ∀ u, Sealed u (sp.onWait u) := by exact Sealed.refl) :
    SealedNext s (issueWord sp (fun s' => (s'.laneWr d t em f).laneWr e u em g) s) :=
  issueWord_sealed hwait (fun v => (sealed_laneWr d t em f v).trans (sealed_laneWr e u em g _))

/-! ### Memory words -/

/-- A memory word makes an operation, which is served later: its issue writes no memory (R333). -/
theorem sealed_memEff (f : MemForm) (clears : Bool) (s0 s : State) : Sealed s (memEff f clears s0 s) := by
  unfold memEff
  simp only
  split
  · exact (Sealed.refl s).modG
  · exact (Sealed.refl s).modG.withOps.tick.post

theorem memWord_sealed (f : MemForm) (us : List Use) (regs : List Nat) (fmt : Group → Option Nat) (fx : Bool) (s : State) :
    SealedNext s (memWord f us regs fmt fx s) := by
  unfold Machine.memWord
  exact issueWord_sealed .refl (sealed_memEff f true s)

theorem execPref_sealed (base idx pol : Nat) (fx : Bool) (s : State) : SealedNext s (execPref base idx pol fx s) := by
  unfold execPref
  exact issueWord_sealed .refl (sealed_memEff _ false s)

/-! ### Member-masked words -/

theorem sealed_memberEff {r : Group → Arrival} {fin : HeldInst → State → State} (hfin : ∀ h u, Sealed u (fin h u)) (s0 s : State) :
    Sealed s (memberEff r fin s0 s) := by
  unfold memberEff
  split
  · exact .refl s
  · split
    case h_1 => exact (Sealed.refl s).modG.trans (hfin ..)
    case h_2 => exact (Sealed.refl s).modG.block
    case h_3 => exact .refl s

theorem voteWord_sealed (f : HeldInst → Word) (d a b : Nat) (fa : Bool) (s : State) : SealedNext s (voteWord f d a b fa s) := by
  unfold voteWord
  exact issueWord_sealed .refl (sealed_memberEff (fun _ => sealed_wrS d _) s)

theorem shflWord_sealed (us : List Use) (fmt : Group → Option Nat) (aux : Group → Nat → Word) (src : HeldInst → Nat → Option Nat)
    (d a b : Nat) (fa : Bool) (s : State) : SealedNext s (shflWord us fmt aux src d a b fa s) := by
  unfold shflWord
  exact issueWord_sealed .refl (sealed_memberEff (fun _ => sealed_wrV _ _ _ _) s)

theorem gredWord_sealed (scan : Bool) (tag : Tag) (tags : List Tag) (f : List Word → Word) (d a b : Nat) (fa : Bool) (s : State) :
    SealedNext s (gredWord scan tag tags f d a b fa s) := by
  unfold gredWord
  exact issueWord_sealed .refl (sealed_memberEff (fun _ => sealed_wrV _ _ _ _) s)

theorem execXchg_sealed (d a b : Nat) (fa : Bool) (s : State) : SealedNext s (execXchg d a b fa s) := by
  unfold execXchg
  refine issueWord_sealed .refl fun u => ?_
  split
  · exact sealed_wrV ..
  · exact sealed_memberEff (fun _ v => (Sealed.refl v).modG.withOps.tick.post) s u

/-! ### Barrier words -/

theorem sealed_arriveAt (bar n : Nat) (s : State) : Sealed s (s.arriveAt bar n) := by
  unfold State.arriveAt
  split
  · exact sealed_setBar ..
  · exact (Sealed.refl s).post

theorem sealed_arriveOwn (bar n : Nat) (s : State) : Sealed s (s.arriveOwn bar n) :=
  (sealed_arriveAt bar n s).modTeam.postAt

theorem execBinit_sealed (bar a : Nat) (fa : Bool) (s : State) : SealedNext s (execBinit bar a fa s) := by
  unfold execBinit
  exact issueWord_sealed .refl (sealed_setBar _ _ _)

theorem execBarr_sealed (bar a : Nat) (fa : Bool) (s : State) : SealedNext s (execBarr bar a fa s) := by
  unfold execBarr
  exact issueWord_sealed .refl (sealed_arriveOwn _ _)

theorem execBwait_sealed (bar a : Nat) (fa : Bool) (s : State) : SealedNext s (execBwait bar a fa s) := by
  unfold execBwait
  refine issueWord_sealed .refl fun u => ?_
  split
  · exact .refl u
  · exact (Sealed.refl u).block

theorem execBarrw_sealed (bar a : Nat) (fa : Bool) (s : State) : SealedNext s (execBarrw bar a fa s) := by
  unfold execBarrw
  exact issueWord_sealed .refl fun u => (sealed_arriveOwn _ _ u).block

theorem execBexp_sealed (bar a : Nat) (fa : Bool) (s : State) : SealedNext s (execBexp bar a fa s) := by
  unfold execBexp
  exact issueWord_sealed .refl fun u => (sealed_setBar _ _ _ u).postAt

theorem execBarrPeer_sealed (bar a : Nat) (fa : Bool) (s : State) : SealedNext s (execBarrPeer bar a fa s) := by
  unfold execBarrPeer
  refine issueWord_sealed .refl fun u => ?_
  simp only
  split
  · exact (Sealed.refl u).modTeam.post
  · exact (acct_chargeShared u _ _ _ _ _).sealed.modTeam.post

/-! ### Control words -/

theorem execNop_sealed (s : State) : SealedNext s (execNop s) := by
  unfold execNop
  exact issueWord_sealed .refl .refl

/-- A conditional or an indirect transfer, whose effect is a branch (R204 to R209). -/
theorem branch_sealed {sp : WordSpec} {c : Bool} {pa : DWord} {s : State}
    (hwait : ∀ u, Sealed u (sp.onWait u) := by exact Sealed.refl) :
    SealedNext s (issueWord sp (State.branch c pa) s) := issueWord_sealed hwait (sealed_branch c pa)

theorem execJmp_sealed (cond off : Nat) (s : State) : SealedNext s (execJmp cond off s) := by
  unfold execJmp
  exact branch_sealed

theorem execCall_sealed (d off : Nat) (s : State) : SealedNext s (execCall d off s) := by
  unfold execCall
  exact issueWord_sealed .refl fun u => (sealed_wrSPair d _ u).trans (sealed_branch ..)

theorem execCallr_sealed (d a : Nat) (fa : Bool) (s : State) : SealedNext s (execCallr d a fa s) := by
  unfold execCallr
  exact issueWord_sealed .refl fun u => (sealed_wrSPair d _ u).trans (sealed_branch ..)

theorem execEmwr_sealed (a : Nat) (fa : Bool) (s : State) : SealedNext s (execEmwr a fa s) := by
  unfold execEmwr
  exact issueWord_sealed .refl fun u => (Sealed.refl u).modG.trans (sealed_sign ..)

theorem sealed_pop (s : State) : Sealed s s.pop := by
  unfold State.pop
  split
  · exact .refl s
  · split
    · exact (Sealed.refl s).modG.transfer
    · exact (Sealed.refl s).modG.transfer

theorem execDiv_sealed (d other joff : Nat) (s : State) : SealedNext s (execDiv d other joff s) := by
  unfold execDiv
  refine issueWord_sealed .refl fun u => ?_
  refine Sealed.trans ?_ (sealed_sign ..)
  split
  · exact (Sealed.refl u).tick.modG.modG.trans (sealed_jump ..)
  · split
    · exact (Sealed.refl u).tick.modG.modG.trans (sealed_jump ..)
    · exact (Sealed.refl u).tick.modG.modG.trans (sealed_jump ..)

theorem execJoin_sealed (s : State) : SealedNext s (execJoin s) := by
  unfold execJoin
  exact issueWord_sealed .refl fun u => ((sealed_pop u).trans (sealed_counts ..)).trans (sealed_sign ..)

theorem sealed_retire (s : State) : Sealed s s.retire := by
  have hcount : ∀ f l, Sealed s ((s.modG f).counts l) := fun _ _ => (Sealed.refl s).modG.trans (sealed_counts ..)
  unfold State.retire
  simp only
  split
  · exact (hcount _ _).post
  · exact hcount _ _

theorem sealed_gridSign (s : State) : Sealed s s.gridSign := by
  unfold State.gridSign
  simp only
  split
  · exact sealed_grid ..
  · exact .refl s

theorem execExit_sealed (s : State) : SealedNext s (execExit s) := by
  unfold execExit
  refine issueWord_sealed .refl fun u => ?_
  refine Sealed.trans (Sealed.trans ?_ (sealed_sign ..)) (sealed_gridSign _)
  split
  · exact ((Sealed.refl u).modG.trans (sealed_retire _)).verd
  · split
    · exact (Sealed.refl u).modG.transfer
    · exact (Sealed.refl u).modG.trans (sealed_pop _)

theorem execItemput_sealed (a : Nat) (fa : Bool) (s : State) : SealedNext s (execItemput a fa s) := by
  unfold execItemput
  exact issueWord_sealed .refl fun u => (Sealed.refl u).setCore

theorem execItemhead_sealed (d a : Nat) (fa : Bool) (imm : Nat) (s : State) : SealedNext s (execItemhead d a fa imm s) := by
  unfold execItemhead
  refine issueWord_sealed .refl fun u => ?_
  simp only
  refine Sealed.trans ?_ (sealed_sign ..)
  split
  · exact ((Sealed.refl u).setCore.trans (sealed_wrV ..)).modG.trans (sealed_jump ..)
  · exact ((Sealed.refl u).setCore.trans (sealed_wrV ..)).modG.trans (sealed_jump ..)

theorem execLoopb_sealed (d n : Nat) (s : State) : SealedNext s (execLoopb d n s) := by
  unfold execLoopb
  refine issueWord_sealed .refl fun u => ?_
  split
  · exact (sealed_wrS d 0 u).trans (sealed_sign ..)
  · refine ((Sealed.trans ?_ (sealed_jump ..))).trans (sealed_sign ..)
    split
    · exact (sealed_wrS ..).modG
    · exact sealed_wrS ..

/-! ### Engine words -/

theorem sealed_joinLine (core n : Nat) (slot : Bool) (s : State) : Sealed s (s.joinLine core n slot) := (Sealed.refl s).setCore

theorem sealed_register (core : Nat) (l : List RangeLock) (s : State) : Sealed s (s.register core l) := (Sealed.refl s).setCore

theorem execAcp_sealed (d base idx pol : Nat) (fx : Bool) (dbase didx : Nat) (fy : Bool) (size cmpl bar csc : Nat) (s : State) :
    SealedNext s (execAcp d base idx pol fx dbase didx fy size cmpl bar csc s) := by
  unfold execAcp
  refine issueWord_sealed (fun u => sealed_joinLine _ _ _ u) fun u => ?_
  split
  · exact .refl u
  · simp only
    split
    · exact (sealed_register ..).tick.modG.withCopies.post
    · exact (sealed_register ..).tick.withCopies.post

theorem sealed_mxPush (k : MxKind) (pol : Word) (pos : Pos) (s : State) : Sealed s (s.mxPush k pol pos) :=
  (sealed_queue s s.g.cluster _).tick.post.post.post

theorem mxWord_sealed (memb : Nat) (us : List Use) (tiles : List Nat) (opnd : State → Bool) (chk : State → Option FaultInfo)
    (locks : State → Nat → List RangeLock) (cls : List (Nat × Nat)) (kind : State → MxKind) (pol : Group → Word)
    (track : Team → Team) (s : State) : SealedNext s (mxWord memb us tiles opnd chk locks cls kind pol track s) := by
  unfold mxWord
  refine issueWord_sealed (fun u => ?_) (sealed_memberEff (fun _ u => ?_) s)
  · simp only
    split
    · exact sealed_joinLine ..
    · exact .refl u
  · refine Sealed.trans ?_ (sealed_mxPush ..)
    split
    · exact (sealed_register ..).modTeam
    · exact (Sealed.refl u).modTeam

theorem execMzero_sealed (tag d memb : Nat) (s : State) : SealedNext s (execMzero tag d memb s) := by
  unfold execMzero
  exact mxWord_sealed ..

theorem execMld_sealed (d a b : Nat) (fa fb : Bool) (memb desc : Nat) (fy : Bool) (s : State) :
    SealedNext s (execMld d a b fa fb memb desc fy s) := by
  unfold execMld
  exact mxWord_sealed ..

theorem execMst_sealed (d a b : Nat) (fa fb : Bool) (memb desc : Nat) (fy : Bool) (s : State) :
    SealedNext s (execMst d a b fa fb memb desc fy s) := by
  unfold execMst
  exact mxWord_sealed ..

theorem execMscale_sealed (a b : Nat) (fa fb : Bool) (memb desc : Nat) (fy : Bool) (s : State) :
    SealedNext s (execMscale a b fa fb memb desc fy s) := by
  unfold execMscale
  exact mxWord_sealed ..

theorem stepWord_sealed (loop : Bool) (d a b memb desc : Nat) (fy : Bool) (s : State) :
    SealedNext s (stepWord loop d a b memb desc fy s) := by
  unfold stepWord
  exact mxWord_sealed ..

theorem execMfence_sealed (d : Nat) (s : State) : SealedNext s (execMfence d s) := by
  unfold execMfence
  refine issueWord_sealed .refl fun u => ?_
  split
  · exact sealed_wrS ..
  · exact (Sealed.refl u).modG.trans (sealed_mxPush ..)

theorem execMwait_sealed (a : Nat) (fa : Bool) (memb : Nat) (s : State) : SealedNext s (execMwait a fa memb s) := by
  unfold execMwait
  refine issueWord_sealed .refl fun u => ?_
  split
  · exact .refl u
  · split
    · simp only
      split
      · exact (Sealed.refl u).modG
      · exact (Sealed.refl u).modG.modG.block
    · exact (Sealed.refl u).modG.block
    · exact .refl u

/-! ### Segment, record and system words -/

theorem sealed_askSegments (op : SegOp) (name units d : Nat) (pos : Pos) (s : State) : Sealed s (s.askSegments op name units d pos) :=
  (Sealed.refl s).withSegReqs.tick.postAt

theorem segWord_sealed {sp : WordSpec} {op : SegOp} {d name units dst : Nat} {pos : Pos} {s : State}
    (hwait : ∀ u, Sealed u (sp.onWait u) := by exact Sealed.refl) :
    SealedNext s (issueWord sp (fun u => (u.modG (Group.owe d)).askSegments op name units dst pos) s) :=
  issueWord_sealed hwait fun u => (Sealed.refl u).modG.trans (sealed_askSegments ..)

theorem execSegatt_sealed (d a : Nat) (fa : Bool) (s : State) : SealedNext s (execSegatt d a fa s) := by
  unfold execSegatt
  exact issueWord_sealed .refl fun u => (Sealed.refl u).modG.withOps.tick.postAt

theorem execSegdet_sealed (a : Nat) (fa : Bool) (s : State) : SealedNext s (execSegdet a fa s) := by
  unfold execSegdet
  exact issueWord_sealed .refl (sealed_askSegments _ _ _ _ _)

theorem emitWord_sealed (r a b : Nat) (fa fb : Bool) (s : State) : SealedNext s (emitWord r a b fa fb s) := by
  unfold emitWord
  refine issueWord_sealed .refl fun u => ?_
  split
  · exact .refl u
  · exact (Sealed.refl u).withEmissions.tick.post

theorem execCsrw_sealed (d n : Nat) (s : State) : SealedNext s (execCsrw d n s) := by
  unfold execCsrw
  exact issueWord_sealed .refl fun u => (Sealed.refl u).modG

theorem execIcinv_sealed (s : State) : SealedNext s (execIcinv s) := by
  unfold execIcinv
  exact issueWord_sealed .refl fun _ => .of_frame rfl

theorem execIcinvAll_sealed (s : State) : SealedNext s (execIcinvAll s) := by
  unfold execIcinvAll
  exact issueWord_sealed .refl fun _ => .of_frame rfl

theorem meterWord_sealed (bucket : Bool) (d : Nat) (s : State) : SealedNext s (meterWord bucket d s) := by
  unfold meterWord
  exact issueWord_sealed .refl fun u => (Sealed.refl u).modG.withOps.tick.postAt

theorem execOpreq_sealed (a : Nat) (fa : Bool) (s : State) : SealedNext s (execOpreq a fa s) := by
  unfold execOpreq
  exact issueWord_sealed .refl fun u => sealed_asks u _ _

theorem execYieldW_sealed (s : State) : SealedNext s (execYieldW s) := by
  unfold execYieldW
  exact issueWord_sealed .refl fun u => (Sealed.refl u).modG

theorem execTrap_sealed (n : Nat) (s : State) : SealedNext s (execTrap n s) := by
  unfold execTrap
  exact issueWord_sealed .refl fun _ => sealed_takeFault ..

theorem execTrapret_sealed (s : State) : SealedNext s (execTrapret s) := by
  unfold execTrapret
  exact issueWord_sealed .refl fun u => (Sealed.refl u).modG.verd.trans (sealed_counts ..)

end Sys2Proof.Laws
end

section
/-! SUPPORT. O59: no word reaches what only the monitor and the device change. -/

namespace Sys2Proof.Laws

open Sys2Proof.Machine Sys2Proof.Claims

/-- Every word of the encoding, by the family of its meaning; a step without an encoding is no word. -/
theorem exec_sealed (i : Instr) (hi : i.hasWords = true) (s : State) : SealedNext s (exec i s) := by
  cases i with
  | saddS | saddZ | ssubS | ssubZ | smulS | smulZ | smulhS | smulhZ | sdivS | sdivZ | sremS | sremZ | sand | sor | sxor | sandn | sshl | sshr
  | ssra | srot | sminS | sminZ | smaxS | smaxZ | scmp | spopc | sclz | sctz | sbrev | smov | saddSImm | sshlImm | sshrImm | ssraImm | srotImm
  | ssel | sbfeS | sbfeZ | sbfi | sli | slit | emrd | bqry | csrr => exact wrS_sealed
  | sadd64 | ssub64 | clk => exact wrSPair_sealed
  | vadd | vsub | vmul | vmulhS | vmulhZ | vand | vor | vxor | vandn | vshl | vshr | vsra | vminS | vminZ | vmaxS | vmaxZ | vpackB8 | vpackB16
  | vpermb | vabs | vpopc | vclz | vbrev | vmov | vaddImm | vshlImm | vshrImm | vsraImm | vsatS8 | vsatZ8 | vsatS16 | vsatZ16 | vunpackS8
  | vunpackZ8 | vunpackS16 | vunpackZ16 | vsel | vbcast | vbfeS | vbfeZ | vbfi | vmad | vtag | winchk => exact laneWr_sealed
  | vfadd | vfsub | vfmul | vfma | vfdot2 | vfmin | vfmax | vfscale | vfrcp | vfrsq | vfsqrt | vfexp2 | vflog2 | vfsin | vfcos | vfrnd
  | vfabs | vfneg | vfclass | vfcvt | vfcvti | vicvtf => exact laneWr_sealed
  | vlane | vcmp | vfcmp => exact laneWrS_sealed
  | vaddc | vsubb | vclmulLo | vclmulHi => exact lanePair_sealed
  | ldB32 | ldB64 | ldZ8 | ldS8 | ldZ16 | ldS16 | stB8 | stB16 | stB32 | stB64 | ldmcB32 | ldsB32 | ldsB64 | stsB32 | stsB64 | lflush
  | atomAdd | atomSub | atomAnd | atomOr | atomXor | atomMins | atomMaxs | atomMinz | atomMaxz | atomExch | atomCas | fatomAdd | fatomMin
  | fatomMax | cadd | crd | crdRst | qpush | qpop | waitc | lkl | ulkl => exact memWord_sealed ..
  | pref => exact execPref_sealed ..
  | voteAll | voteAny | voteBallot => exact voteWord_sealed ..
  | shflIdx | shflUp | shflDown | shflXor => exact shflWord_sealed ..
  | gredAdd | gredMins | gredMaxs | gredMinz | gredMaxz | gredAnd | gredOr | gredXor | gredFadd | gredFmin | gredFmax
  | gscanAdd | gscanMins | gscanMaxs | gscanMinz | gscanMaxz | gscanAnd | gscanOr | gscanXor | gscanFadd | gscanFmin | gscanFmax =>
    exact gredWord_sealed ..
  | xchg => exact execXchg_sealed ..
  | binit => exact execBinit_sealed ..
  | barr => exact execBarr_sealed ..
  | bwait => exact execBwait_sealed ..
  | barrw => exact execBarrw_sealed ..
  | bexp => exact execBexp_sealed ..
  | barrPeer => exact execBarrPeer_sealed ..
  | jmp => exact execJmp_sealed ..
  | brz | brnz | jmpr | ret => exact branch_sealed
  | call => exact execCall_sealed ..
  | callr => exact execCallr_sealed ..
  | emwr => exact execEmwr_sealed ..
  | nop => exact execNop_sealed ..
  | exit => exact execExit_sealed ..
  | join => exact execJoin_sealed ..
  | div => exact execDiv_sealed ..
  | itemput => exact execItemput_sealed ..
  | itemhead => exact execItemhead_sealed ..
  | loopb => exact execLoopb_sealed ..
  | acp => exact execAcp_sealed ..
  | mzero => exact execMzero_sealed ..
  | mld => exact execMld_sealed ..
  | mst => exact execMst_sealed ..
  | mscale => exact execMscale_sealed ..
  | mma | mloop => exact stepWord_sealed ..
  | mfence => exact execMfence_sealed ..
  | mwait => exact execMwait_sealed ..
  | segcrtCm | segcrtChip | segdel | segqry => exact segWord_sealed
  | segatt => exact execSegatt_sealed ..
  | segdet => exact execSegdet_sealed ..
  | emit16 | emit32 | emit64 => exact emitWord_sealed ..
  | csrw => exact execCsrw_sealed ..
  | icinv => exact execIcinv_sealed ..
  | icinvAll => exact execIcinvAll_sealed ..
  | rdmeter | rdbkt => exact meterWord_sealed ..
  | opreq => exact execOpreq_sealed ..
  | yieldW => exact execYieldW_sealed ..
  | trap => exact execTrap_sealed ..
  | trapret => exact execTrapret_sealed ..
  | _ => exact Bool.noConfusion hi

/-- Settles O59: the effect of every word is made of updates that keep the configuration, another tenant's record and device memory. -/
theorem wordsReachNoConfiguration : Obligations.WordsReachNoConfiguration := by
  unfold Obligations.WordsReachNoConfiguration
  exact fun s t i hi ht => (exec_sealed i hi s).next t ht

end Sys2Proof.Laws
end

section
/-! SUPPORT. O55: the words that the spec writes out. -/

namespace Sys2Proof.Laws

open Sys2Proof.Machine

/-- Settles O55, by running the decoder on each word. -/
theorem specWordsDecode : Obligations.SpecWordsDecode := by
  unfold Obligations.SpecWordsDecode
  and_intros <;> rfl

end Sys2Proof.Laws
end

section
/-! SUPPORT. O53: what a write to a configuration register leaves. First what each operation behind such a write does, then the clauses of the
statement register by register. -/

namespace Sys2Proof.Laws

open Sys2Proof.Machine Sys2Proof.Claims

/-! ### Lists and fields of registers -/

theorem getD_map_range {α : Type} (f : Nat → α) (d : α) {n j : Nat} (h : j < n) : ((List.range n).map f).getD j d = f j := by
  simp [List.getD, h]

theorem getD_setNat (l : List Nat) (i v : Nat) {n j : Nat} (h : j < n) :
    (setNat n l i v).getD j 0 = if j = i then v else l.getD j 0 := getD_map_range _ _ h

/-- Entry `k` of an XLAT register is hexadecimal digit `k` of the written value (R430). -/
theorem fld_nibble (v k : Nat) : fld v (4 * k) 4 = v / 16 ^ k % 16 := by
  simp [fld, Nat.pow_mul]

theorem xlatBad_iff (v : Nat) : xlatBad v = true ↔ ∃ k, k < 8 ∧ v / 16 ^ k % 16 < 2 := by
  simp [xlatBad, fld_nibble, Nat.blt_eq]

theorem getD_xlatSet (l : List Nat) (i v : Nat) {j : Nat} (h : j < 48) :
    (xlatSet l i v).getD j 0 = if j / 8 = i then v / 16 ^ (j % 8) % 16 else l.getD j 0 := by
  simp only [xlatSet, getD_map_range _ _ h, fld_nibble]

/-! ### The operations of a write -/

section
variable {s : State} {i v : Nat}

theorem sized_of_le {eff : State → State} (h4 : 4 ≤ v) (h16 : v ≤ 16) : s.sized v eff = eff s := by
  simp [State.sized, h4, h16]

theorem sized_refused {eff : State → State} (h : v < 4 ∨ 16 < v) : s.sized v eff = s.tell .configError v := by
  have hsize : ¬(4 ≤ v ∧ v ≤ 16) := by omega
  simp [State.sized, hsize]

/-- A partition that a write makes starts with the clocks' present counts; any other keeps its own. -/
theorem part_putPart (s : State) (p : Nat) (f : Part → Part) :
    ∃ a b, (s.putPart p f).part p = f { s.part p with opSince := a, cyc := b } := by
  simp only [State.putPart, State.part, SMap.getD_set_self]
  cases h : SMap.find s.parts p with
  | none => exact ⟨s.fleet.lastExport, s.cyc0 (.facets p), by simp [SMap.getD, h]⟩
  | some x => exact ⟨x.opSince, x.cyc, by simp [SMap.getD, h]⟩

theorem find_putPart_ne (s : State) {p j : Nat} (f : Part → Part) (h : j ≠ p) :
    SMap.find (s.putPart p f).parts j = SMap.find s.parts j := SMap.find_set_ne _ _ h

/-- Where no certificate and no record is held, none goes to a ring (R460, R461). -/
theorem flushMeters_of_none (hheld : s.fleet.held = []) (hcerts : s.fleet.certs = []) : s.flushMeters = s := by
  simp only [State.flushMeters, State.flushCerts, hheld, hcerts, List.foldl_nil]
  rw [← hheld, ← hcerts]

theorem flushErrors_of_none (h : s.fleet.errHeld = []) : s.flushErrors = s := by
  simp only [State.flushErrors, h, List.foldl_nil]

/-! ### A write comes about -/

/-- `u` is `t` but for the verdict, which is still that of `s`. -/
def Leaves (s t u : State) : Prop := { u with verdict := s.verdict } = t

/-- A write outside minimal mode is what `writeReg` gives of the register's number (R7, R436). -/
theorem exec_configWrite {n : Nat} {r : CReg} (hm : s.boot.minimal = false) (hr : cregs[n]? = some r) :
    exec (.configRegisterWrite n i v) s = .next ((s.verd .issued).writeReg r i v) := by
  show execConfigRegisterWrite n i v s = _
  simp [execConfigRegisterWrite, hr, evStep, State.configs, hm]

theorem comes_write {n : Nat} {r : CReg} {t : State} {p : State → Prop} (hm : s.boot.minimal = false) (hr : cregs[n]? = some r)
    (hw : (s.verd .issued).writeReg r i v = t) (hv : t.verdict = .issued) (hp : p t) : Comes (.configRegisterWrite n i v) s p :=
  ⟨t, (exec_configWrite hm hr).trans (congrArg _ hw), hv, hp⟩

/-- A refused write is reported, and changes nothing else. -/
theorem comes_refused {n k : Nat} {r : CReg} (hm : s.boot.minimal = false) (hr : cregs[n]? = some r)
    (hw : (s.verd .issued).writeReg r i v = (s.verd .issued).tell .configError k) :
    Comes (.configRegisterWrite n i v) s (Leaves s { s with monlog := s.monlog ++ [(.configError, k)] }) :=
  comes_write hm hr hw rfl rfl

/-- A step that changes one partition, and of it neither of the counts that a partition's first write starts. -/
theorem comes_putPart {e : Instr} {f : Part → Part} (he : exec e s = .next ((s.verd .issued).putPart i f))
    (hf : ∀ x a b, { f { x with opSince := a, cyc := b } with opSince := x.opSince, cyc := x.cyc } = f x) :
    Comes e s (fun u => Leaves s { s with parts := u.parts } u ∧
      { u.part i with opSince := (s.part i).opSince, cyc := (s.part i).cyc } = f (s.part i) ∧
      ∀ j, j ≠ i → SMap.find u.parts j = SMap.find s.parts j) := by
  obtain ⟨a, b, hab⟩ := part_putPart (s.verd .issued) i f
  refine ⟨_, he, rfl, rfl, ?_, fun j hj => find_putPart_ne (s.verd .issued) f hj⟩
  rw [hab]
  exact hf (s.part i) a b

/-! ### Registers of the monitor's tables -/

theorem comes_locked (hm : s.boot.minimal = false) (hl : s.boot.locked = true) {n : Nat} (hn : n < 3) :
    Comes (.configRegisterWrite n i v) s (Leaves s s) := by
  have hkeeps : ∀ r, r = .xlat ∨ r = .weight ∨ r = .scale → (s.verd .issued).writeReg r i v = s.verd .issued := by
    rintro r (rfl | rfl | rfl) <;> simp [State.writeReg, State.verd, hl]
  obtain rfl | rfl | rfl : n = 0 ∨ n = 1 ∨ n = 2 := by omega
  · exact comes_write hm rfl (hkeeps _ (.inl rfl)) rfl rfl
  · exact comes_write hm rfl (hkeeps _ (.inr (.inl rfl))) rfl rfl
  · exact comes_write hm rfl (hkeeps _ (.inr (.inr rfl))) rfl rfl

theorem writeReg_xlat (hl : s.boot.locked = false) (hi : i < 6) :
    s.writeReg .xlat i v = if xlatBad v then s.tell .configError i else { s with boot := { s.boot with xlat := xlatSet s.boot.xlat i v } } :=
  if_neg (by simp only [hl, Nat.ble_eq, Bool.false_or]; omega)

theorem comes_xlat (hm : s.boot.minimal = false) (hl : s.boot.locked = false) (hi : i < 6) :
    ((∃ k, k < 8 ∧ v / 16 ^ k % 16 < 2) →
      Comes (.configRegisterWrite 0 i v) s (Leaves s { s with monlog := s.monlog ++ [(.configError, i)] })) ∧
    ((∀ k, k < 8 → 2 ≤ v / 16 ^ k % 16) →
      Comes (.configRegisterWrite 0 i v) s (fun u => Leaves s { s with boot := { s.boot with xlat := u.boot.xlat } } u ∧
        ∀ j, j < 48 → u.boot.xlat.getD j 0 = if j / 8 = i then v / 16 ^ (j % 8) % 16 else s.boot.xlat.getD j 0)) := by
  constructor
  · intro hbad
    exact comes_refused hm rfl ((writeReg_xlat (s := s.verd .issued) hl hi).trans (if_pos ((xlatBad_iff v).mpr hbad)))
  · intro hok
    have hgood : ¬xlatBad v = true := fun h => by
      obtain ⟨k, hk, hlow⟩ := (xlatBad_iff v).mp h
      exact absurd (hok k hk) (by omega)
    exact comes_write hm rfl ((writeReg_xlat (s := s.verd .issued) hl hi).trans (if_neg hgood)) rfl ⟨rfl, fun j hj => getD_xlatSet _ _ _ hj⟩

theorem comes_weight (hm : s.boot.minimal = false) (hl : s.boot.locked = false) (hi : i < 18) :
    Comes (.configRegisterWrite 1 i v) s (fun u => Leaves s { s with weights := u.weights } u ∧
      u.weights.getD i 0 = v % 2 ^ 48 ∧ ∀ j, j < 18 → j ≠ i → u.weights.getD j 0 = s.weights.getD j 0) := by
  have hw : (s.verd .issued).writeReg .weight i v = { s.verd .issued with weights := setNat 18 s.weights i (v % 2 ^ 48) } :=
    if_neg (by simp only [State.verd_boot, hl, Nat.ble_eq, Bool.false_or]; omega)
  exact comes_write hm rfl hw rfl ⟨rfl, (getD_setNat _ _ _ hi).trans (if_pos rfl), fun j hj hne => (getD_setNat _ _ _ hj).trans (if_neg hne)⟩

theorem comes_scale (hm : s.boot.minimal = false) (hl : s.boot.locked = false) (hi : i < 16) :
    Comes (.configRegisterWrite 2 i v) s (fun u => Leaves s { s with scale := u.scale } u ∧
      u.scale.getD i 0 = v ∧ ∀ j, j < 16 → j ≠ i → u.scale.getD j 0 = s.scale.getD j 0) := by
  have hw : (s.verd .issued).writeReg .scale i v = { s.verd .issued with scale := setNat 16 s.scale i v } :=
    if_neg (by simp only [State.verd_boot, hl, Nat.ble_eq, Bool.false_or]; omega)
  exact comes_write hm rfl hw rfl ⟨rfl, (getD_setNat _ _ _ hi).trans (if_pos rfl), fun j hj hne => (getD_setNat _ _ _ hj).trans (if_neg hne)⟩

theorem comes_access (hm : s.boot.minimal = false) :
    Comes (.configRegisterWrite 3 i v) s (fun u => Leaves s { s with access := u.access } u ∧
      SMap.find u.access i = some (accOf v) ∧ ∀ j, j ≠ i → SMap.find u.access j = SMap.find s.access j) :=
  comes_write hm rfl rfl rfl ⟨rfl, SMap.find_set_self .., fun _ hj => SMap.find_set_ne _ _ hj⟩

theorem comes_exports (hm : s.boot.minimal = false) :
    Comes (.configRegisterWrite 4 i v) s (fun u => Leaves s { s with exports := u.exports } u ∧
      ∀ k, k < 256 → ∃ l, SMap.find u.exports (i / 256) = some l ∧
        l[k]? = some (if k ≠ i % 256 then (SMap.getD s.exports (i / 256) []).getD k Export.none else exportOf v)) := by
  refine comes_write hm rfl rfl rfl ⟨rfl, fun k hk => ⟨_, SMap.find_set_self .., ?_⟩⟩
  simp [exportSet, hk, ite_not, State.verd]

theorem comes_expt (hm : s.boot.minimal = false) (hlo : 1000000 ≤ v) (hhi : v ≤ 1000000000) :
    Comes (.configRegisterWrite 5 i v) s (Leaves s { s with fleet := { s.fleet with exptNext := some v } }) := by
  have hw : (s.verd .issued).writeReg .expt i v = (s.verd .issued).modFleet (fun f => { f with exptNext := some v }) := by
    simp [State.writeReg, hlo, hhi]
  exact comes_write hm rfl hw rfl rfl

theorem comes_expt_refused (hm : s.boot.minimal = false) (h : v < 1000000 ∨ 1000000000 < v) :
    Comes (.configRegisterWrite 5 i v) s (Leaves s { s with monlog := s.monlog ++ [(.configError, v)] }) := by
  have hrange : ¬(1000000 ≤ v ∧ v ≤ 1000000000) := by omega
  exact comes_refused hm rfl (by simp [State.writeReg, hrange])

/-! ### Registers of partitions and facets -/

/-- A register of one partition (R346, R349, R402, R413). -/
theorem comes_partReg {n : Nat} {r : CReg} {f : Part → Part} (hm : s.boot.minimal = false) (hr : cregs[n]? = some r)
    (hw : (s.verd .issued).writeReg r i v = (s.verd .issued).putPart i f)
    (hf : ∀ x a b, { f { x with opSince := a, cyc := b } with opSince := x.opSince, cyc := x.cyc } = f x) :
    Comes (.configRegisterWrite n i v) s (fun u => Leaves s { s with parts := u.parts } u ∧
      { u.part i with opSince := (s.part i).opSince, cyc := (s.part i).cyc } = f (s.part i) ∧
      ∀ j, j ≠ i → SMap.find u.parts j = SMap.find s.parts j) :=
  comes_putPart ((exec_configWrite hm hr).trans (congrArg _ hw)) hf

theorem writeReg_frBase (hi : i < 16) : s.writeReg .frBase i v = s.putPart i (fun p => { p with ring := p.ring.setBase v }) :=
  if_pos (by simp [hi])

theorem writeReg_frLog2 (hi : i < 16) (h4 : 4 ≤ v) (h16 : v ≤ 16) :
    s.writeReg .frLog2 i v = s.putPart i (fun p => { p with ring := p.ring.setLog2 v }) :=
  (if_pos (by simp [hi])).trans (sized_of_le h4 h16)

theorem writeReg_pfHold (hi : i < 16) : s.writeReg .pfHold i v = s.putPart i (fun p => { p with pfhold := v % 2 ^ 32 }) :=
  if_pos (by simp [hi])

theorem writeReg_tlbInvVa (hi : i < 16) : s.writeReg .tlbInvVa i v = s.putPart i (fun p => { p with invVa := v % 2 ^ 41 }) :=
  if_pos (by simp [hi])

theorem comes_savebw (hm : s.boot.minimal = false) (hi : i < 16) :
    Comes (.configRegisterWrite 15 i v) s (fun u => Leaves s { s with savebws := u.savebws } u ∧ u.savebw i = v % 2 ^ 32 ∧
      ∀ j, j ≠ i → u.savebw j = s.savebw j) := by
  have hw : (s.verd .issued).writeReg .saveBw i v = { s.verd .issued with savebws := SMap.set s.savebws i (v % 2 ^ 32) } := by
    simp [State.writeReg, State.verd, hi]
  exact comes_write hm rfl hw rfl ⟨rfl, SMap.getD_set_self .., fun _ hj => SMap.getD_set_ne _ _ _ hj⟩

/-! ### Rings -/

theorem writeReg_vfBase (hi : i < 64) : s.writeReg .vfBase i v = s.modFleet (fun f => f.setRing i ((f.ring i).setBase v)) :=
  if_pos (by simp [hi])

theorem writeReg_vfLog2 (hi : i < 64) (h4 : 4 ≤ v) (h16 : v ≤ 16) :
    s.writeReg .vfLog2 i v = s.modFleet (fun f => f.setRing i ((f.ring i).setLog2 v)) :=
  (if_pos (by simp [hi])).trans (sized_of_le h4 h16)

/-- A size outside 4 to 16 is refused of every ring (R402, R460, R471). -/
theorem comes_size_refused (hm : s.boot.minimal = false) {n : Nat} (hn : n ∈ [7, 9, 11, 13]) (h7 : n = 7 → i < 16) (h13 : n = 13 → i < 64)
    (hv : v < 4 ∨ 16 < v) :
    Comes (.configRegisterWrite n i v) s (Leaves s { s with monlog := s.monlog ++ [(.configError, v)] }) := by
  simp only [List.mem_cons, List.not_mem_nil, or_false] at hn
  obtain rfl | rfl | rfl | rfl := hn
  · exact comes_refused hm rfl (by simp [State.writeReg, h7, sized_refused hv])
  · exact comes_refused hm rfl (sized_refused hv)
  · exact comes_refused hm rfl (sized_refused hv)
  · exact comes_refused hm rfl (by simp [State.writeReg, h13, sized_refused hv])

/-- A ring of a virtual function is written (R460). -/
theorem comes_vfRing {e : Instr} {f : Ring → Ring} (hi : i < 64)
    (he : exec e s = .next ((s.verd .issued).modFleet (fun x => x.setRing i (f (x.ring i))))) :
    Comes e s (fun u => Leaves s { s with fleet := { s.fleet with vfMeters := u.fleet.vfMeters } } u ∧
      SMap.find u.fleet.vfMeters i = some (f (SMap.getD s.fleet.vfMeters i Ring.zero))) := by
  have hne : i ≠ 64 := by omega
  have hset : (s.verd .issued).modFleet (fun x => x.setRing i (f (x.ring i))) =
      { s.verd .issued with fleet := { s.fleet with
          vfMeters := SMap.set s.fleet.vfMeters i (f (SMap.getD s.fleet.vfMeters i Ring.zero)) } } := by
    simp [State.modFleet, Fleet.setRing, Fleet.ring, hne, State.verd]
  exact ⟨_, he.trans (congrArg _ hset), rfl, rfl, SMap.find_set_self ..⟩

/-! ### Keys, contexts, replays, clusters and boot -/

/-- GO = 1 starts a command (R419). -/
theorem comes_kcmd_go (hm : s.boot.minimal = false) (hb : s.keys.busy = false) (hgo : v.testBit 31 = true) :
    Comes (.configRegisterWrite 19 i v) s (fun u =>
      u.keys = { s.keys with busy := true, slot := v / 256 % 256, op := v % 4 } ∧ Sent s u 1 .keyCommandComplete ∧
        Leaves s { s with keys := u.keys, agenda := u.agenda } u) := by
  have hw : (s.verd .issued).writeReg .kcmd i v = (s.verd .issued).keyCommand (v / 256 % 256) (v % 4) := by
    simp [State.writeReg, State.writeKcmd, State.verd, hb, hgo, fld]
  exact comes_write hm rfl hw rfl ⟨rfl, List.mem_append_right _ (List.mem_singleton_self _), rfl⟩

theorem comes_kcmd_stay (hm : s.boot.minimal = false) (hb : s.keys.busy = false) (hgo : v.testBit 31 = false) :
    Comes (.configRegisterWrite 19 i v) s (Leaves s { s with keys := { s.keys with slot := v / 256 % 256, op := v % 4 } }) := by
  have hw : (s.verd .issued).writeReg .kcmd i v = { s.verd .issued with keys := { s.keys with slot := v / 256 % 256, op := v % 4 } } := by
    simp [State.writeReg, State.writeKcmd, State.verd, hb, hgo, fld]
  exact comes_write hm rfl hw rfl rfl

/-- KCMD keeps its value while a command is in progress (log entry 25). -/
theorem comes_kcmd_busy (hm : s.boot.minimal = false) (hb : s.keys.busy = true) : Comes (.configRegisterWrite 19 i v) s (Leaves s s) :=
  comes_write hm rfl (if_pos hb) rfl rfl

theorem comes_kdata (hm : s.boot.minimal = false) (hi : i < 16) (hb : s.keys.busy = false) :
    Comes (.configRegisterWrite 18 i v) s (fun u => Leaves s { s with keys := { s.keys with kdata := u.keys.kdata } } u ∧
      ∀ k, k < 64 → u.keys.kdata.getD k 0 = if k / 4 = i then v / 256 ^ (k % 4) % 256 else s.keys.kdata.getD k 0) := by
  have hw : (s.verd .issued).writeReg .kdata i v = { s.verd .issued with keys := { s.keys with
      kdata := (List.range 64).map (fun k => if k / 4 = i then v / 256 ^ (k % 4) % 256 else s.keys.kdata.getD k 0) } } :=
    if_neg (by simp only [State.verd_keys, hb, Nat.ble_eq, Bool.or_false]; omega)
  exact comes_write hm rfl hw rfl ⟨rfl, fun k hk => getD_map_range _ _ hk⟩

theorem comes_frontEnd (hm : s.boot.minimal = false) (hi : i < 16384) :
    Comes (.configRegisterWrite 14 i v) s (fun u => Leaves s { s with ctxs := u.ctxs } u ∧
      SMap.find u.ctxs i = some { s.ctx i with part := i / 1024, spq := v / 65536 % 2 ^ 24 } ∧
      ∀ j, j ≠ i → SMap.find u.ctxs j = SMap.find s.ctxs j) := by
  have hw : (s.verd .issued).writeReg .frontEnd i v =
      { s.verd .issued with ctxs := SMap.set s.ctxs i { s.ctx i with part := i / 1024, spq := v / 65536 % 2 ^ 24 } } := by
    simp [State.writeReg, State.setSpq, State.verd, State.ctx, hi, fld]
  exact comes_write hm rfl hw rfl ⟨rfl, SMap.find_set_self .., fun _ hj => SMap.find_set_ne _ _ hj⟩

theorem comes_rpsel (hm : s.boot.minimal = false) (hi : i < 256) (harm : (s.part (i / 16)).replay.arm = false) :
    Comes (.configRegisterWrite 17 i v) s (fun u => Leaves s { s with parts := u.parts } u ∧
      (u.part (i / 16)).replay.sel.getD (i % 16) 0 = v % 2 ^ 32 ∧
      ∀ j, j < 16 → j ≠ i % 16 → (u.part (i / 16)).replay.sel.getD j 0 = (s.part (i / 16)).replay.sel.getD j 0) := by
  have hw : (s.verd .issued).writeReg .rpsel i v = (s.verd .issued).putPart (i / 16)
      (fun p => { p with replay := { p.replay with sel := setNat 16 p.replay.sel (i % 16) (v % 2 ^ 32) } }) :=
    if_neg (by simpa [State.replay, State.verd, State.part, hi] using harm)
  refine comes_write hm rfl hw rfl ⟨rfl, ?_⟩
  obtain ⟨a, b, hab⟩ := part_putPart (s.verd .issued) (i / 16)
    (fun p => { p with replay := { p.replay with sel := setNat 16 p.replay.sel (i % 16) (v % 2 ^ 32) } })
  rw [hab]
  exact ⟨(getD_setNat _ _ _ (Nat.mod_lt _ (by decide))).trans (if_pos rfl), fun j hj hne => (getD_setNat _ _ _ hj).trans (if_neg hne)⟩

theorem comes_cpwr (hm : s.boot.minimal = false) (hi : i < 128) (hgate : v.testBit 0 = false) :
    Comes (.configRegisterWrite 25 i v) s (fun u => Leaves s { s with clusters := u.clusters } u ∧
      u.cluster i = { s.cluster i with ret := v.testBit 1 } ∧ ∀ j, j ≠ i → u.cluster j = s.cluster j) := by
  have hw : (s.verd .issued).writeReg .cpwr i v = (s.verd .issued).setRet i (v.testBit 1) :=
    if_pos (by simp [hi, hgate])
  exact comes_write hm rfl hw rfl ⟨rfl, SMap.getD_set_self .., fun _ hj => SMap.getD_set_ne _ _ _ hj⟩

theorem comes_tlbInv_refused (hm : s.boot.minimal = false) (h : v / 2 ^ 61 % 4 = 3) :
    Comes (.configRegisterWrite 21 i v) s (Leaves s { s with monlog := s.monlog ++ [(.configError, i)] }) :=
  comes_refused hm rfl (if_pos h)

/-- UPDSTAGE is written in minimal mode too (R436). -/
theorem comes_updStage :
    Comes (.configRegisterWrite 22 i v) s (Leaves s { s with boot := { s.boot with updStage := v % 2 ^ 64 } }) := by
  refine ⟨(s.verd .issued).writeReg .updStage i v, ?_, rfl, rfl⟩
  show execConfigRegisterWrite 22 i v s = _
  simp [execConfigRegisterWrite, cregs, evStep]

/-! ### Read pointers -/

theorem exec_frrptr_part (hm : s.boot.minimal = false) (hi : i < 16) (w : Word) : exec (.frrptrWrite i w) s =
    .next ((s.verd .issued).putPart i (fun p => { p with ring := { p.ring with rptr := w.toNat } })) := by
  have hring : i < 82 := by omega
  show execFrrptrWrite i w s = _
  simp [execFrrptrWrite, evStep, State.configs, hm, hi, hring]

theorem exec_frrptr_meter (hm : s.boot.minimal = false) (hheld : s.fleet.held = []) (hcerts : s.fleet.certs = []) (w : Word) :
    exec (.frrptrWrite 16 w) s =
      .next ((s.verd .issued).modFleet (fun f => { f with meter := { f.meter with rptr := w.toNat } })) := by
  have hflush := flushMeters_of_none
    (s := (s.verd .issued).modFleet (fun f => { f with meter := { f.meter with rptr := w.toNat } })) hheld hcerts
  show execFrrptrWrite 16 w s = _
  simp [execFrrptrWrite, evStep, State.configs, hm, hflush]

theorem exec_frrptr_errors (hm : s.boot.minimal = false) (hheld : s.fleet.errHeld = []) (w : Word) :
    exec (.frrptrWrite 17 w) s =
      .next ((s.verd .issued).modFleet (fun f => { f with errors := { f.errors with rptr := w.toNat } })) := by
  have hflush := flushErrors_of_none
    (s := (s.verd .issued).modFleet (fun f => { f with errors := { f.errors with rptr := w.toNat } })) hheld
  show execFrrptrWrite 17 w s = _
  simp [execFrrptrWrite, evStep, State.configs, hm, hflush]

theorem exec_frrptr_vf (hm : s.boot.minimal = false) (hi : i < 64) (hheld : s.fleet.held = []) (hcerts : s.fleet.certs = []) (w : Word) :
    exec (.frrptrWrite (18 + i) w) s =
      .next ((s.verd .issued).modFleet (fun f => f.setRing i ({ f.ring i with rptr := w.toNat }))) := by
  have hne : i ≠ 64 := by omega
  have hring : 18 + i < 82 := by omega
  have hother : ¬18 + i < 16 ∧ 18 + i ≠ 16 ∧ 18 + i ≠ 17 := by omega
  have hflush := flushMeters_of_none
    (s := (s.verd .issued).modFleet (fun f => f.setRing i ({ f.ring i with rptr := w.toNat })))
    (by simpa [State.modFleet, Fleet.setRing, hne] using hheld) (by simpa [State.modFleet, Fleet.setRing, hne] using hcerts)
  show execFrrptrWrite (18 + i) w s = _
  simp [execFrrptrWrite, evStep, State.configs, hm, hring, hother, hflush]

end

/-- Settles O53, register by register in the order of their clauses. -/
theorem configurationRegisters : Obligations.ConfigurationRegisters := by
  unfold Obligations.ConfigurationRegisters
  intro s i v hm
  refine ⟨fun hl n hn => comes_locked hm hl hn,
    fun hl hi => comes_xlat hm hl hi,
    fun hl hi => comes_weight hm hl hi,
    fun hl hi => comes_scale hm hl hi,
    comes_access hm,
    comes_exports hm,
    fun hlo hhi => comes_expt hm hlo hhi,
    fun h => comes_expt_refused hm h,
    fun hi => ⟨?frBase, ?frLog2, comes_savebw hm hi, ?pfHold, ?tlbInvVa⟩,
    fun n hn h7 h13 hv => comes_size_refused hm hn h7 h13 hv,
    comes_write hm rfl rfl rfl rfl,
    fun h4 h16 => ⟨comes_write hm rfl (sized_of_le h4 h16) rfl rfl, comes_write hm rfl (sized_of_le h4 h16) rfl rfl⟩,
    comes_write hm rfl rfl rfl rfl,
    fun hi => ⟨?vfBase, ?vfLog2⟩,
    fun hb => ⟨comes_kcmd_go hm hb, comes_kcmd_stay hm hb⟩,
    comes_kcmd_busy hm,
    comes_frontEnd hm,
    comes_rpsel hm,
    comes_cpwr hm,
    comes_kdata hm,
    comes_tlbInv_refused hm,
    comes_updStage,
    comes_write hm rfl rfl rfl rfl,
    comes_write hm rfl rfl rfl rfl,
    fun w => ⟨?faultPtr, ?meterPtr, ?errorPtr, ?vfPtr⟩⟩
  case frBase => exact comes_partReg hm rfl (writeReg_frBase hi) (fun _ _ _ => rfl)
  case frLog2 => exact fun h4 h16 => comes_partReg hm rfl (writeReg_frLog2 hi h4 h16) (fun _ _ _ => rfl)
  case pfHold => exact comes_partReg hm rfl (writeReg_pfHold hi) (fun _ _ _ => rfl)
  case tlbInvVa => exact comes_partReg hm rfl (writeReg_tlbInvVa hi) (fun _ _ _ => rfl)
  case vfBase => exact comes_vfRing (f := Ring.setBase v) hi ((exec_configWrite hm rfl).trans (congrArg _ (writeReg_vfBase hi)))
  case vfLog2 =>
    exact fun h4 h16 => comes_vfRing (f := Ring.setLog2 v) hi ((exec_configWrite hm rfl).trans (congrArg _ (writeReg_vfLog2 hi h4 h16)))
  case faultPtr => exact fun hi => comes_putPart (exec_frrptr_part hm hi w) (fun _ _ _ => rfl)
  case meterPtr => exact fun hheld hcerts => ⟨_, exec_frrptr_meter hm hheld hcerts w, rfl, rfl⟩
  case errorPtr => exact fun hheld => ⟨_, exec_frrptr_errors hm hheld w, rfl, rfl⟩
  case vfPtr =>
    exact fun hi hheld hcerts => comes_vfRing (f := fun r => { r with rptr := w.toNat }) hi (exec_frrptr_vf hm hi hheld hcerts w)

end Sys2Proof.Laws
end
